-- ==== Sys2Proof/Word.lean ====
section
/-! DEFINITION. The word types of the model (spec/00_scope.md, Bits, bytes and encodings). -/

namespace Sys2Proof

/-- A byte (R9: little-endian everywhere, byte offset 0 of a field holds its bits [7:0]). -/
abbrev Byte := BitVec 8
/-- A run of bytes in offset order. -/
abbrev Bytes := List Byte
/-- A 64-B line of memory, byte 0 in bits [7:0] (R69, R72). -/
abbrev Line := BitVec 512
/-- A 128-bit AES block. -/
abbrev Block128 := BitVec 128
/-- A 256-bit key, byte 0 in bits [7:0]. -/
abbrev Key := BitVec 256
/-- A SHA-384 digest, byte 0 in bits [7:0]. -/
abbrev Digest := BitVec 384

/-- Byte `i` of a word, little-endian (R9). -/
def byteAt {w : Nat} (x : BitVec w) (i : Nat) : Byte := (x >>> (8 * i)).setWidth 8

/-- The first `n` bytes of a word, little-endian (R9). -/
def toBytes {w : Nat} (n : Nat) (x : BitVec w) : Bytes := (List.range n).map (byteAt x)

/-- A word of width `w` read little-endian from bytes (R9). -/
def ofBytes (w : Nat) : Bytes → BitVec w
  | [] => 0
  | b :: bs => b.setWidth w ||| (ofBytes w bs <<< 8)

/-- `n` bytes of a natural number, little-endian (R9). -/
def leBytes (n v : Nat) : Bytes := toBytes n (BitVec.ofNat (8 * n) v)

/-- Bits [hi:lo] of a word as a number. -/
def bitField {w : Nat} (x : BitVec w) (hi lo : Nat) : Nat := (x.toNat >>> lo) % 2 ^ (hi + 1 - lo)

/-- `n` zero bytes. -/
def zeroBytes (n : Nat) : Bytes := List.replicate n 0

end Sys2Proof
end

