-- ==== Sys2Proof/Config.lean ====
section
/-! DEFINITION. What an implementation fixes (the configuration row, R31) and the free values the spec leaves open. Choices marked
in the log: DEDUCED 66; DESIGN CHOICE 6, 7, 9, 10, 11, 12, 13, 14, 15, 24, 56; PRESUMED 16. -/

namespace Sys2Proof.Config

/-- The configuration rows of R31; the code is CFG_SIZES0.ROW (R508). -/
inductive Row where
  | full | half | quarter
deriving DecidableEq, Repr

/-- One of three row figures. -/
def Row.pick {α : Type} (r : Row) (a b c : α) : α := match r with | .full => a | .half => b | .quarter => c

def Row.code (r : Row) : Nat := r.pick 0 1 2
/-- Memory stacks and ply lanes (R31). -/
def Row.stackCount (r : Row) : Nat := r.pick 16 8 4
/-- log2 of the stacks. -/
def Row.stackBits (r : Row) : Nat := r.pick 4 3 2
def Row.spindles (r : Row) : Nat := r.pick 64 32 16
def Row.slots (r : Row) : Nat := r.pick 64 64 32
def Row.floor (r : Row) : Nat := r.pick 30 14 12
def Row.pool (r : Row) : Nat := r.pick 1920 896 384
def Row.whorls (r : Row) : Nat := r.pick 4096 2048 1024
def Row.epochRegions (r : Row) : Nat := r.pick 1024 512 256
def Row.weftPorts (r : Row) : Nat := r.pick 18 12 6
def Row.hostPorts (r : Row) : Nat := r.pick 2 2 1
def Row.fthStreams (r : Row) : Nat := r.pick 8 4 2
def Row.absorberLines (r : Row) : Nat := r.pick 4096 2048 1024
/-- Open-entry capacity of R195 and R269. -/
def Row.openCap (r : Row) : Nat := r.pick 12288 10240 9216
def Row.bobbinKiB (r : Row) : Nat := r.pick 49152 24576 12288
def Row.reelCeiling (r : Row) : Nat := r.pick 1000 250 125
def Row.fedRate (r : Row) : Nat := r.pick 1000 250 125
/-- One ply of L2 to L4, in KiB (R142). -/
def Row.upKiB (r : Row) : Nat := r.pick 4161 2081 1041

/-- Free value: the n-th 512-bit draw from the TRNG's conditioned output (R302). -/
opaque trng : Nat → BitVec 512
/-- Free value: the n-th choice the spec leaves to Frexis (a free slot, a run of FREE hanks, a victim, a port hash). -/
opaque choice : Nat → Nat
/-- Free value: the two candidate spindles of the keyed hash of R40 (hash key, key ID, slot). -/
opaque homePair : BitVec 64 → Nat → Nat → Nat × Nat
/-- Free value: how many blocks beyond the slow corner's a whorl accepts in a tick (R36). -/
opaque whorlRate : Nat → Nat
/-- Free value: whether a whorl's handshake, a spindle's arbiter or a unit's handshake stands still in a tick (tick, index; R403, R405,
R408). -/
opaque whorlStalls : Nat → Nat → Bool
opaque spindleStalls : Nat → Nat → Bool
opaque unitStalls : Nat → Nat → Bool
/-- Free value: the n-th choice of the whorl array (an idle whorl, how far a dropped unit had come). -/
opaque arrayPick : Nat → Nat
/-- Free value: the n-th output of the re-spin DRBG under its seed (R59). -/
opaque respinDrbg : BitVec 256 → Nat → Nat
/-- Free value: the port hash of R209 over a session and a frame's nonce. -/
opaque pathHash : Nat → Nat → Nat
/-- Free value: the 32 bytes of an OPEN or ACCEPT payload from its fields; the spec names them and places none (R217). -/
opaque openBytes : List Nat → Bytes
/-- Free value: the signed exchange messages of a federation bring-up (die, randoms), and F wrapped under its shared secret; the spec
names the algorithms and gives no layout (R235). -/
opaque fedExchange : Nat → BitVec 512 → Bytes
opaque fedWrap : BitVec 256 → BitVec 512 → Bytes
/-- Free value: the bytes of the ROM as R327 measures them. -/
opaque romDigest : BitVec 384
/-- Free value: an ECDSA P-384 public key of a private scalar (FIPS 186-5, uninterpreted). -/
opaque ecPublic : BitVec 384 → Bytes
/-- Free value: an ECDSA P-384 signature (scalar, nonce draw, digest), uninterpreted. -/
opaque ecSign : BitVec 384 → Nat → BitVec 384 → Bytes
/-- Free value: ECDSA P-384 verification (public key, digest, signature), uninterpreted. -/
opaque ecVerify : Bytes → BitVec 384 → Bytes → Bool
/-- Free value: the ECDH P-384 shared secret of a scalar and a public key, uninterpreted. -/
opaque ecdh : BitVec 384 → Bytes → Bytes
/-- Free value: ML-KEM-1024 encapsulation (encapsulation key, draw) to (ciphertext, shared secret), uninterpreted. -/
opaque mlkemEncap : Bytes → Nat → Bytes × Bytes
/-- Free value: the ML-DSA-87 public key of a seed, uninterpreted. -/
opaque mldsaPublic : BitVec 256 → Bytes
/-- Free value: an ML-DSA-87 signature (seed, message), uninterpreted. -/
opaque mldsaSign : BitVec 256 → Bytes → Bytes
/-- Free value: ML-DSA-87 verification (public key, message, signature), uninterpreted. -/
opaque mldsaVerify : Bytes → Bytes → Bytes → Bool
/-- Free value: decoding of the PUF's BCH(127,64) blocks against the helper data (R297); none where a block fails. -/
opaque pufDecode : Bytes → Bytes → Option Bytes
/-- Free value: the DER encoding of a certificate of R301 from its keys and what it carries. -/
opaque certChain : Bytes → Bytes → Bytes
/-- Free value: what the security firmware controller answers to a debug read (R496). -/
opaque fwDebug : Nat → BitVec 64 → BitVec 64
/-- Free value: the n-th time sample of a monitor probe in 0.25 ns units (R461). -/
opaque probeSample : Nat → Nat → Nat
/-- Free value: the stream of a record whose stream the spec does not give, by its kind (R464, R465). -/
opaque recordStream : Nat → Nat
/-- Free value: DATA of a spool record whose stream's content the spec does not place (stream, two operands) (R464, R465). -/
opaque spoolData : Nat → Nat → Nat → BitVec 128
/-- Free value: what a published standard's message carries that this spec does not fix (message kind, request). -/
opaque stdBody : Nat → Bytes → Bytes

/-- Free value: blocks of its running message that the bulk AEAD service takes in a tick (R36, R55). -/
opaque aeadRate : Nat → Nat
/-- Free value: the bits of an IDE Extended Capability register that the PCIe standard makes writable, by dword. -/
opaque cfgMask : Nat → BitVec 32
/-- Free value: the other bits of that register (row, function, dword). -/
opaque cfgFixed : Nat → Nat → Nat → BitVec 32
/-- Parameter of the integrator: byte offset of the IDE Extended Capability in a function's configuration space (R483). -/
opaque ideCapOffset : Nat
/-- Free value: dword of the capability at which a stream's registers start; the PCIe standard lays them out (64: the link stream). -/
opaque ideBlock : Nat → Nat
/-- Free value: the 48-bit provisioned ID of the I3C target. -/
opaque i3cPid : BitVec 48
/-- Free value: the JEDEC code of IDCODE, a parameter of the integrator (R496, R498). -/
opaque jedec : BitVec 11
/-- Free value: the shared secret and session keys' confirmation that FINISH carries (shared secret, transcript). -/
opaque finishMac : Bytes → Bytes → Bytes
/-- Free value: the responder's confirmation in KEY_EXCHANGE_RSP and FINISH_RSP (shared secret, transcript). -/
opaque finishRsp : Bytes → Bytes → Bytes
/-- Free value: the root and the leaf public key of a certificate chain in DER (R257); none where it does not verify. -/
opaque chainKeys : Bytes → Option (Bytes × Bytes)
/-- Free value: Aedmel's ECDSA and ML-DSA-87 public keys, whose digests the ROM holds (R339). -/
opaque aedmelEc : Bytes
opaque aedmelPq : Bytes
/-- Free value: a public key is a point on P-384, and an encapsulation key is valid under FIPS 203 (R311). -/
opaque ecPoint : Bytes → Bool
opaque kemKeyOk : Bytes → Bool

end Sys2Proof.Config
end

