-- ==== Sys2Proof/Syntax.lean ====
section
/-! DEFINITION. The commands of the block, one constructor per row of spec/opcode_table.json, and their operands. Choices marked
in the log: DEDUCED 148; DESIGN CHOICE 20. -/

namespace Sys2Proof

/-- A ring pair: the manager's, or that of a defined skein (R361). -/
inductive Ring where
  | mgr
  | skein (n : Nat)
deriving DecidableEq, Repr

/-- Wake sources (R436). -/
inductive WakeSource where
  | i3c | alarm
  /-- A doorbell write of a defined skein or of the manager, or a set-up register access. -/
  | doorbell (skein : Option Nat)
deriving DecidableEq, Repr

/-- What is read: a line of a memory stack, or a word of the bobbin cache or of the absorber with a double-bit error, in both copies
where it has two (R105, R197). -/
inductive MemAt where
  | stack
  | bobbin (both : Bool)
  | absorber
deriving DecidableEq, Repr

/-- What the forced checks of a recomputation find by the vote of R62: every one agrees, or the recomputing whorl, the checker or both are
caught (R398). -/
inductive Redo where
  | agrees | producer | checker | both
deriving DecidableEq, Repr

/-- What a memory controller's line differs from the line last written there, when Frexis reads it inside a step:
bits flipped, and the UE and CE marks of R481; and how the whorls fare with it (R398). -/
structure MemEv where
  /-- Physical place of the line (lane and line index, Machine/Twist.lean); for a cached word its entry, for the absorber its line. -/
  key : Nat
  flip : Line
  ue : Bool
  ce : Bool
  place : MemAt := .stack
  /-- The whorl computes the line wrong at first (R398). -/
  wrong : Bool := false
  /-- The recomputations, in order; one that is not listed agrees (R398). -/
  redo : List Redo := []
deriving DecidableEq, Repr

/-- The differing lines met by a command that reads memory; a line not listed returns as last written. -/
abbrev MemEvs := List MemEv

/-- What a TDISP message says before its body: the function that it addresses and its code (R245). -/
structure TdispMsg where
  func : BitVec 16
  code : BitVec 8
deriving DecidableEq, Repr

/-- An MCTP message as it was reassembled: its path, message type, command code and length in bytes (R250). -/
structure MctpMsg where
  path : BitVec 2
  type : BitVec 8
  cmd : BitVec 8
  len : BitVec 32
deriving DecidableEq, Repr

/-- A REQ transfer of a warp port (R478). -/
structure WarpReq where
  port : Nat
  tag : BitVec 16
  len : BitVec 2
  ack : Bool
  addr : BitVec 64
  mask : BitVec 64
  data : Line
  skeinTag : BitVec 6
  keyidV : Bool
  keyid : BitVec 12
  fenceV : Bool
  fence : BitVec 12
  peerV : Bool
  peer : BitVec 16
  plyop : BitVec 32
  srtag : BitVec 64
  layer : BitVec 16
  operator : BitVec 16
  /-- The reserved CMD, or a reserved bit of the transfer, is set (R478). -/
  rsvd : Bool
deriving DecidableEq, Repr

/-- A TGT transfer of the control port (R484). -/
structure Tgt where
  func : BitVec 11
  t : Bool
  addr : BitVec 16
  read : Bool
  data : BitVec 64
  be : BitVec 8
deriving DecidableEq, Repr

/-- A WREQ transfer of the request window port (R485); `size8` names an access of 8 B, otherwise 64 B. -/
structure Wreq where
  addr : BitVec 19
  read : Bool
  size8 : Bool
  skeinTag : BitVec 6
  data : Line
deriving DecidableEq, Repr

/-- The fields of an OPEN or ACCEPT payload (R217). -/
structure OpenF where
  kind : Nat
  gen : Nat
  index : Nat
  member : Nat
  pod : Nat
  endpoint : Nat
  channel : Nat
  bind : Nat
  device : BitVec 128
  rand : BitVec 64
deriving DecidableEq, Repr

/-- A protected word of the block (R394, R397). -/
inductive EccWord where
  /-- Datapath word of the request in flight at a place of the list of requests. -/
  | warp (place : Nat)
  | key (id : Nat)
  | region (r : Nat)
  /-- Bitmap word 0 or 1 of a 16 KiB group. -/
  | bitmap (group : Nat) (second : Bool)
  | hank (h : Nat)
  /-- Places in the quarantine table and in the extent table. -/
  | quar (i : Nat)
  | extent (i : Nat)
  | fence (owner : Option Nat) (i : Nat)
  /-- An accepted descriptor of a ring, or its completion entry. -/
  | desc (r : Ring) (index : BitVec 16)
  /-- A place in a spindle's queue. -/
  | unit (spindle i : Nat)
  /-- Message context of a descriptor. -/
  | context (r : Ring) (index : BitVec 16)
  | session (si : Nat)
  /-- Four entries of a whorl's ledger. -/
  | ledger (whorl i : Nat)
  /-- A bobbin cache entry; `both` says that both SRAM copies of an L2 to L4 node failed. -/
  | bobbin (level idx : Nat) (both : Bool)
  /-- A word of four root entries (R84). -/
  | root (word : Nat)
  | absorber (line : Nat)
  | highWater (requester : Nat)
  | retiredMap
  /-- A 32-B word of a firmware bank: true for bank B. -/
  | bank (isB : Bool) (i : Nat)
  | spool (i : Nat)
deriving DecidableEq, Repr

/-- What the sweep finds of one word: its flipped bits, 0 to 255 data and 256 to 265 check bits. -/
structure EccErr where
  word : EccWord
  flips : List (Fin 266)
deriving DecidableEq, Repr

/-- What a start finds: its straps, supplies, OTP, fuzzy readings and self-tests (R67, R296, R303, R357, R426, R492). -/
structure StartIn where
  dieIndex : BitVec 2
  pkgDies : BitVec 3
  i3cSa : BitVec 7
  /-- The VAO_MAIN and VAO_BACKUP detectors read good. -/
  mainGood : Bool
  backupGood : Bool
  /-- OTP bits that the test flow has set since the last start, by word; and the bits that read differently at the two margins. -/
  otp : List (Nat × BitVec 64)
  weak : List (Nat × BitVec 64)
  /-- The 889 majority bits of each regeneration attempt, in bytes. -/
  races : List Bytes
  /-- How often the TRNG's start-up tests failed. -/
  trngFails : Nat
  /-- Whorls that failed a known-answer block. -/
  badWhorls : List (BitVec 12)
deriving DecidableEq, Repr

/-- What DBG_FW does to the security firmware controller (R496). -/
inductive DbgOp where
  | halt | resume | step
  | read (addr : BitVec 64)
deriving DecidableEq, Repr

/-- What DBG_READ reads (R496). -/
inductive DbgRead where
  | health | global | monitors | spool | image
  /-- Counter window of a slot. -/
  | window (slot : BitVec 6)
deriving DecidableEq, Repr

/-- The commands of the block: one constructor per row of spec/opcode_table.json. -/
inductive Instr where
  /-- START (R296): A start of the block: it regenerates the root, derives keys, samples the straps, runs the whorl known-answer tests and completes any pending life-cycle intent. -/
  | start (a : StartIn)
  /-- BLOCK_RESET_EDGE (R408): A block reset edge: ports abort outstanding requests, IDE streams go Insecure, every skein is destroyed and the hang dump is taken. -/
  | blockResetEdge
  /-- UNIT_HANG (R408): A unit without its own reset domain stops its handshake for 100 ticks while it holds work, and Frexis performs a block reset. -/
  | unitHang (unit : BitVec 8)
  /-- VAO_MAIN_LOST (R427): VAO_MAIN becomes bad while VAO_BACKUP is good, and the distaff switches to VAO_BACKUP within 2 µs and raises ACLASS 6. -/
  | vaoMainLost
  /-- VAO_MAIN_RESTORED (R427): VAO_MAIN has been good for 10 ms, and the distaff switches back to it and raises ACLASS 6. -/
  | vaoMainRestored
  /-- CORE_SUPPLY_LOSS (R430): The core supply falls below 0.66 V, and the distaff isolates the datapath; a start with LAST_START 4 follows when the supply returns. -/
  | coreSupplyLoss
  /-- DISTAFF_BROWN_OUT (R432): In low-power mode, the distaff logic rail browns out; the regulator enters normal mode and the distaff restarts, keeping retention only if it is intact. -/
  | distaffBrownOut (kept : Bool)
  /-- REQUEST_REST (R435): A PWR_CTRL.REQ write of REST: Frexis checks for refusers, then stops work, writes back absorber entries, gates the datapath and enters low-power mode. -/
  | requestRest (q : Tgt) (evs : MemEvs)
  /-- REQUEST_OFF (R438): A PWR_CTRL.REQ write of OFF: Frexis checks for refusers, refuser 9 included, enters as for REST and drives OFF_READY high. -/
  | requestOff (q : Tgt) (evs : MemEvs)
  /-- WAKE (R436): A wake source (I3C address match, alarm, doorbell or register access) ends REST or aborts an entry into it, and the held accesses are replayed. -/
  | wake (src : WakeSource)
  /-- TICK_LOST (R443): The oscillator finds a tick interval outside 0.98 to 1.02 µs; Frexis issues substitute edges and stamp quality changes. -/
  | tickLost
  /-- TICK_REGAINED (R443): After 1,000 consecutive good tick intervals, Frexis takes the tick back, stops substitute edges and may take a locked value. -/
  | tickRegained
  /-- PPS_EDGE (R444): A PPS edge: Frexis compares the bus value with T, locks, steps T with a gap record, or counts a disagreement. -/
  | ppsEdge (bus : Option (BitVec 64))
  /-- TOD_BUS_LOST (R442): The time-of-day bus has not changed for 2 ticks, and quality falls from locked to holdover. -/
  | todBusLost
  /-- PPS_LOST (R442): No PPS edge has come within 1.1 s while PPS_EN is 1, and quality falls to holdover. -/
  | ppsLost
  /-- SLOT_STROBE (R446): A rising slot-strobe edge is accepted or discarded; an accepted edge advances slot-strobe epoch regions and clears STROBE_MISSING. -/
  | slotStrobe
  /-- STROBE_MISSING (R446): The missing-strobe interval reaches twice EXPECT_US; Frexis sets STROBE_MISSING and raises ACLASS 7. -/
  | strobeMissing
  /-- ALARM (R447): T reaches TIM_ALARM; Frexis clears the alarm and wakes the block, raises WAKE_REQ, or raises ACLASS 7, according to the power state. -/
  | alarm
  /-- RING_ENABLE (R362): A write of CMD_RING_CTRL.ENABLE: Frexis checks the zones, sets the locks and zone readback, and starts the manager ring, or records the failure in TWS_STATUS. -/
  | ringEnable (q : Tgt)
  /-- FW_LOAD (R514): A DST_FW_LOAD write while both banks are empty starts a ROM load attempt of a host image into bank A. -/
  | fwLoad (q : Tgt) (image : Bytes)
  /-- TIM_ALARM_WRITE (R447): An 8-B write to TIM_ALARM is ordered against the alarm's action, and it arms the written value. -/
  | timAlarmWrite (q : Tgt)
  /-- TIM_STROBE_WRITE (R446): A write to TIM_STROBE restarts the missing-strobe interval, and with EXPECT_US 0 it clears STROBE_MISSING. -/
  | timStrobeWrite (q : Tgt)
  /-- LCS_GATE_WRITE (R516): A write to LCS_GATE closes debug, scan or telemetry paths for the rest of the start, and it may resume a halted firmware controller. -/
  | lcsGateWrite (q : Tgt)
  /-- LATCHED_HALF_READ (R503): A 4-B read of the low half of TIM_NOW or PWR_REFUSE_COUNT latches the high half for the next read. -/
  | latchedHalfRead (q : Tgt)
  /-- REGISTER_WRITE (R502): A write to a set-up register that has no behaviour of its own is applied in arrival order under the access codes. -/
  | registerWrite (q : Tgt)
  /-- SQ_TAIL (R365): A doorbell write of SQ_TAIL is checked and, if honoured, makes descriptors available for fetch. -/
  | sqTail (q : Tgt)
  /-- CQ_HEAD (R365): A doorbell write of CQ_HEAD is checked and frees completion entries, which may let fetch resume. -/
  | cqHead (q : Tgt)
  /-- ATTN_ACK (R379): A doorbell write of ATTN_ACK records the ASEQ that software has seen, which may clear ATTN. -/
  | attnAck (q : Tgt)
  /-- WARP_READ (R90): A read request at a warp port: key selection, ownership, mark and twist, then a metadata walk and a data read, or a zero answer. -/
  | warpRead (q : WarpReq) (evs : MemEvs)
  /-- WARP_WRITE (R69): A write request at a warp port: checks, a walk, a minor advance or a bitmap check, encipherment, and the write with its MAC. -/
  | warpWrite (q : WarpReq) (evs : MemEvs)
  /-- MEMORY_READ_RETURN (R481): An MRSP return from the memory controller is decrypted and verified and its request is answered, or an error is handled. -/
  | memoryReadReturn (lane : BitVec 8) (mtag : BitVec 8) (data : Line) (ue : Bool) (ce : Bool) (evs : MemEvs)
  /-- MEMORY_WRITE_ACCEPT (R482): The memory controller acknowledges a write, which lets write responses, page releases and window releases proceed. -/
  | memoryWriteAccept (lane : BitVec 8)
  /-- ADD (R181): A ply ADD on a class S line, direct or exact, pre-summed or serial, with the old value returned when FETCH is set. -/
  | plyAdd (q : WarpReq) (evs : MemEvs)
  /-- MIN (R180): A ply MIN on a class S line or element. -/
  | plyMin (q : WarpReq) (evs : MemEvs)
  /-- MAX (R180): A ply MAX on a class S line or element. -/
  | plyMax (q : WarpReq) (evs : MemEvs)
  /-- AND (R176): A ply AND on a class S line or element. -/
  | plyAnd (q : WarpReq) (evs : MemEvs)
  /-- OR (R176): A ply OR on a class S line or element. -/
  | plyOr (q : WarpReq) (evs : MemEvs)
  /-- XOR (R176): A ply XOR on a class S line or element. -/
  | plyXor (q : WarpReq) (evs : MemEvs)
  /-- SWAP (R176): A ply SWAP atomic that writes a new element and returns the old one. -/
  | plySwap (q : WarpReq) (evs : MemEvs)
  /-- CAS (R176): A ply CAS atomic that writes only when the old element equals the compare value, and returns the old one. -/
  | plyCas (q : WarpReq) (evs : MemEvs)
  /-- ABSORBER_WINDOW_CLOSE (R193): A line's absorber window closes after PLY_WINDOW ticks, and the line is written back once. -/
  | absorberWindowClose (line : BitVec 52) (evs : MemEvs)
  /-- WINDOW_HANK_ALLOC (R154): A request-window cell write with OP HANK_ALLOC. -/
  | windowHankAlloc (q : Wreq)
  /-- WINDOW_HANK_FREE (R154): A request-window cell write with OP HANK_FREE. -/
  | windowHankFree (q : Wreq)
  /-- WINDOW_HANK_REF (R154): A request-window cell write with OP HANK_REF. -/
  | windowHankRef (q : Wreq)
  /-- BUCKET_SELECTOR_WRITE (R459): Device code writes a bucket selector in the counter window, which clears that bucket's counts. -/
  | bucketSelectorWrite (q : Wreq)
  /-- NOP (R370): A NOP descriptor completes and signals its fence if asked. -/
  | nop (r : Ring) (d : Line)
  /-- FENCE_SIGNAL (R382): FENCE_SIGNAL with MODE 0 signals a fence of the ring's set to a value. -/
  | fenceSignal (r : Ring) (d : Line)
  /-- FENCE_RESET (R389): FENCE_SIGNAL with MODE 1 resets an unreferenced fence. -/
  | fenceReset (r : Ring) (d : Line)
  /-- FENCE_GRANT (R388): FENCE_SIGNAL with MODE 2 sets or withdraws a fence's grantee. -/
  | fenceGrant (r : Ring) (d : Line)
  /-- FENCE_WAIT (R385): FENCE_WAIT waits for a fence to reach a target, to error, or to time out. -/
  | fenceWait (r : Ring) (d : Line)
  /-- FENCE_WAIT_TIMEOUT (R387): A FENCE_WAIT's timeout wins its race; the wait completes with TIMEOUT, and a LATE record follows any later signal. -/
  | fenceWaitTimeout (r : Ring) (index : BitVec 16)
  /-- HANK_ALLOC (R151): HANK_ALLOC allocates a contiguous run of FREE hanks bound to a key ID. -/
  | hankAlloc (r : Ring) (d : Line)
  /-- HANK_FREE (R391): HANK_FREE drops a hold on a run of hanks. -/
  | hankFree (r : Ring) (d : Line)
  /-- HANK_REVOKE (R392): HANK_FREE with REVOKE on the manager ring revokes hanks, and their users complete with HANK_REVOKED. -/
  | hankRevoke (r : Ring) (d : Line)
  /-- HANK_REF (R390): HANK_REF raises the holds of a run of hanks. -/
  | hankRef (r : Ring) (d : Line)
  /-- MAILBOX_NAME (R393): HANK_REF with MAILBOX names a class S hank as the skein's mailbox. -/
  | mailboxName (r : Ring) (d : Line)
  /-- MAILBOX_RELEASE (R393): HANK_FREE with MAILBOX drops the mailbox hold. -/
  | mailboxRelease (r : Ring) (d : Line)
  /-- IMPORT (R320): IMPORT deciphers a host message into hanks, measures it, and checks its tag. -/
  | importMsg (r : Ring) (d : Line) (msg : Bytes) (evs : MemEvs)
  /-- EXPORT (R321): EXPORT enciphers a range of hanks to host memory under the transfer key's export key. -/
  | exportMsg (r : Ring) (d : Line) (evs : MemEvs)
  /-- DIGEST (R325): DIGEST measures a range in place and extends a measurement slot. -/
  | digest (r : Ring) (d : Line) (evs : MemEvs)
  /-- SEAL_ARM (R128): SEAL_OUT with ARM validates and holds a seal until it is fired. -/
  | sealArm (r : Ring) (d : Line)
  /-- SEAL_FIRE (R129): SEAL_OUT with FIRE on the slot-class ring schedules an armed seal of a target skein. -/
  | sealFire (r : Ring) (d : Line)
  /-- SEAL_FIRE_TIME (R130): The fire time is reached; the seal region advances and the scratchpad is sealed out and zeroed. -/
  | sealFireTime (skein : BitVec 10) (base : BitVec 40) (scratch : List Line) (serr : Option (BitVec 32)) (evs : MemEvs)
  /-- SEAL_OUT_END (R130): The last seal line has been written; the seal record is written, the seal fence is signalled and both descriptors complete. -/
  | sealOutEnd (skein : BitVec 10) (base : BitVec 40) (evs : MemEvs)
  /-- SEAL_IN (R136): SEAL_IN verifies a seal record and restores its lines to the scratchpad, then signals the resume fence. -/
  | sealIn (r : Ring) (d : Line) (serr : Option (BitVec 32)) (evs : MemEvs)
  /-- KEY_INSTALL (R316): KEY_INSTALL unwraps a TPK blob and installs a memory key, transfer key, secret or member list. -/
  | keyInstall (r : Ring) (d : Line) (blob : Bytes)
  /-- KEY_ROTATE (R317): KEY_ROTATE installs a new key generation, by a Reel pass for class S or at the next advance for class E. -/
  | keyRotate (r : Ring) (d : Line) (blob : Bytes)
  /-- DESCRIPTOR_ADVANCE (R526): KEY_ROTATE with EPOCH advances a class E region whose ADVANCE is 0. -/
  | descriptorAdvance (r : Ring) (d : Line)
  /-- EPOCH_ADVANCE (R112): A region's epoch advances, at most once per µs, and queued class E rotations take effect. -/
  | epochAdvance (region : BitVec 10)
  /-- KEY_RETIRE (R318): KEY_RETIRE retires a key ID, erases its generations and revokes its hanks. -/
  | keyRetire (r : Ring) (d : Line)
  /-- TRANSFER_KEY_RETIRE (R318): KEY_RETIRE with TRANSFER retires a transfer key index. -/
  | transferKeyRetire (r : Ring) (d : Line)
  /-- EVIDENCE (R329): EVIDENCE builds, signs and writes the skein evidence record to host memory. -/
  | evidence (r : Ring) (d : Line)
  /-- PLY_CHECK (R413): PLY_CHECK digests one or two replica ranges and reports the first differing window, optionally leaving a standing check. -/
  | plyCheck (r : Ring) (d : Line) (evs : MemEvs)
  /-- STANDING_CHECK_END (R414): PLY_CHECK with LENGTH 0 ends the standing check with the same BASE_A. -/
  | standingCheckEnd (r : Ring) (d : Line)
  /-- STANDING_CHECK_REPEAT (R414): A standing check's PERIOD passes; the carder repeats the comparison and reports a mismatch. -/
  | standingCheckRepeat (skein : BitVec 10) (base : BitVec 64) (evs : MemEvs)
  /-- TRACE_MARK (R465): TRACE_MARK places a mark in the spool, and with TRIGGER it may trigger a window. -/
  | traceMark (r : Ring) (d : Line)
  /-- SKEIN_CREATE (R269): SKEIN_CREATE defines a resident skein with its parameters and rings. -/
  | skeinCreate (r : Ring) (d : Line)
  /-- SKEIN_QUIESCE (R272): SKEIN_QUIESCE with MODE 0 stops ring fetch and starts the skein's drain. -/
  | skeinQuiesce (r : Ring) (d : Line) (evs : MemEvs)
  /-- SKEIN_RESUME (R274): SKEIN_QUIESCE with MODE 1 returns a quiescing or quiesced skein to RESIDENT. -/
  | skeinResume (r : Ring) (d : Line) (evs : MemEvs)
  /-- SKEIN_RESET (R277): SKEIN_QUIESCE with MODE 2 resets a quiesced skein's working state. -/
  | skeinReset (r : Ring) (d : Line) (evs : MemEvs)
  /-- SKEIN_RESET_DONE (R278): The security firmware finishes a skein reset, and the skein returns to QUIESCED. -/
  | skeinResetDone (skein : BitVec 10)
  /-- QUIESCE_LIMIT_EXPIRY (R274): A quiesce's LIMIT wins against the drain; the descriptor completes with TIMEOUT and the skein stays QUIESCING. -/
  | quiesceLimitExpiry (skein : BitVec 10)
  /-- DRAIN_COMPLETE (R273): A skein's drain completes; it becomes QUIESCED, or its swap-out or destroy proceeds, with an OK_LATE record where due. -/
  | drainComplete (skein : BitVec 10) (evs : MemEvs)
  /-- SKEIN_DESTROY (R289): SKEIN_DESTROY stops the skein, refuses stragglers, drains, erases its keys and revokes its hanks. -/
  | skeinDestroy (r : Ring) (d : Line) (evs : MemEvs)
  /-- DRAIN_LIMIT_EXPIRY (R289): A destroy's DRAIN_LIMIT passes; the remaining work is abandoned and the keys are erased. -/
  | drainLimitExpiry (skein : BitVec 10) (evs : MemEvs)
  /-- SKEIN_SWAP_OUT (R279): SKEIN_SWAP_OUT quiesces a skein, writes its wrapped state to class B extents and frees its slot. -/
  | skeinSwapOut (r : Ring) (d : Line) (evs : MemEvs)
  /-- SKEIN_SWAP_IN (R282): SKEIN_SWAP_IN takes a slot, verifies and unwraps the swapped state, and applies the held doorbells. -/
  | skeinSwapIn (r : Ring) (d : Line) (evs : MemEvs)
  /-- SHARE_SET (R271): SHARE_SET changes a skein's weight, zones, quotas or open-line limit. -/
  | shareSet (r : Ring) (d : Line)
  /-- RETWIST (R156): RETWIST queues a retwist pass of a zone under a new twist key. -/
  | retwist (r : Ring) (d : Line)
  /-- FIELD_TEST (R418): FIELD_TEST runs known vectors through engines taken out of service and applies the outcome. -/
  | fieldTest (r : Ring) (d : Line)
  /-- KEY_LADDER_GRANT (R310): The key ladder engine is granted to a waiting owner for one step. -/
  | keyLadderGrant (evs : MemEvs)
  /-- REEL_PASS_START (R157): A Reel pass starts and merges every queued rotation and retwist. -/
  | reelPassStart
  /-- REEL_WINDOW_TAKE (R161): The Reel takes a window, holds new requests, and waits for earlier ones to complete. -/
  | reelWindowTake (evs : MemEvs)
  /-- REEL_WINDOW_RELEASE (R161): The window's writes are accepted; the reel mark advances and held requests are released. -/
  | reelWindowRelease (evs : MemEvs)
  /-- REEL_PASS_END (R158): A Reel pass ends; the old generation or twist key is erased and its descriptors complete. -/
  | reelPassEnd
  /-- HANK_ZEROING (R525): The Reel initialises a ZEROING hank's pages, and the hank becomes FREE. -/
  | hankZeroing (evs : MemEvs)
  /-- QUARANTINE_REINIT (R104): The Reel re-initialises a released quarantined range under advanced steps. -/
  | quarantineReinit (evs : MemEvs)
  /-- ALL_BLOCKED_RULE (R286): The leader finds every resident skein blocked and swaps a victim out and a fence owner in. -/
  | allBlockedRule (evs : MemEvs)
  /-- SKEW_INTERVAL (R167): Every 1,000 ticks, lane occupancy is measured, skew counts are updated, and a retwist proposal may be posted. -/
  | skewInterval (occ : List (BitVec 8))
  /-- CARDER_PASS_START (R410): The carder starts a pass over every allocated hank, or skips it when a pass is still running. -/
  | carderPassStart (evs : MemEvs)
  /-- BITMAP_SWEEP (R115): The sweeper clears and re-tags empty epoch bitmap words. -/
  | bitmapSweep
  /-- ECC_SWEEP (R395): The background sweep reads every stored word and writes back any word it corrects. -/
  | eccSweep (errs : List EccErr)
  /-- SNAPSHOT (R460): Every PERIOD_MS, Frexis writes a telemetry snapshot to host memory. -/
  | snapshot
  /-- STEAL_REQUEST (R42): A spindle with an idle whorl and an empty queue steals units over the ring. -/
  | stealRequest (spindle : BitVec 6)
  /-- RESPIN_COMPARE (R62): The comparison of a sampled block with its checker completes, with a third computation on mismatch. -/
  | respinCompare (producer checker third : BitVec 12) (rp rc rt : Block128)
  /-- SUSPECT_SWEEP_END (R402): The suspect sweep ends; the fault record is written and ATTENTION records are posted. -/
  | suspectSweepEnd (evs : MemEvs)
  /-- WHORL_HANG (R403): A whorl holds a block for 20 ticks; its units are replayed and it is reset. -/
  | whorlHang (whorl : BitVec 12)
  /-- WHORL_RESET_DONE (R403): A whorl reset completes; the whorl runs known answers and returns or is retired. -/
  | whorlResetDone (whorl : BitVec 12) (pass : Bool)
  /-- WHORL_RESET_TIMEOUT (R403): A whorl reset has not completed in 50 ticks, and the whorl is fenced and retired. -/
  | whorlResetTimeout (whorl : BitVec 12)
  /-- SPINDLE_HANG (R405): A spindle starts no unit, or answers no steal grant, for 20 ticks and is reset. -/
  | spindleHang (spindle : BitVec 6)
  /-- SPINDLE_RESET_TIMEOUT (R405): A spindle reset has not completed in 50 ticks, and the spindle is fenced. -/
  | spindleResetTimeout (spindle : BitVec 6)
  /-- FIRMWARE_WATCHDOG_EXPIRY (R407): The firmware watchdog is not kicked within 10 ms, and the controller restarts or the block resets. -/
  | firmwareWatchdogExpiry
  /-- TRNG_HEALTH_FAIL (R303): A health test fails; the conditioning block is discarded, and after three discards output stops. -/
  | trngHealthFail (consecutive : Bool)
  /-- TRNG_RESTART (R303): 1,000 ticks after the source stopped, it restarts and resumes after start-up samples pass. -/
  | trngRestart (pass : Bool)
  /-- DRBG_RESEED (R302): The DRBG reseeds after 65,536 generate calls or 100 ms. -/
  | drbgReseed
  /-- READ (R221): A received READ frame is verified and served as a request at the destination. -/
  | weftRead (port : BitVec 8) (frame : Bytes) (evs : MemEvs)
  /-- WRITE (R221): A received WRITE frame is verified and written, and WRITE_RESP follows acceptance. -/
  | weftWrite (port : BitVec 8) (frame : Bytes) (evs : MemEvs)
  /-- PLY (R201): A received PLY frame is verified and applied exactly once under the high-water entry. -/
  | weftPly (port : BitVec 8) (frame : Bytes) (evs : MemEvs)
  /-- MCAST (R232): A received multicast store is written and answered with WRITE_RESP. -/
  | weftMcast (port : BitVec 8) (frame : Bytes) (evs : MemEvs)
  /-- COMBINED (R229): A COMBINED frame from a member switch is applied as one operation. -/
  | weftCombined (port : BitVec 8) (frame : Bytes) (evs : MemEvs)
  /-- MESSAGE (R222): A MESSAGE is delivered into the destination skein's mailbox, or answered with QUOTA. -/
  | weftMessage (port : BitVec 8) (frame : Bytes) (evs : MemEvs)
  /-- RESOLVE (R204): A resolve frame for a sequenced operation is answered with its outcome or a cancellation. -/
  | weftResolve (port : BitVec 8) (frame : Bytes) (evs : MemEvs)
  /-- COHERENCE (R236): A federation COHERENCE frame is verified and delivered; on weft it is dropped. With `toDie` it is a message of the
  surroundings for that die and slot, whose payload is protected and sent. -/
  | weftCoherence (port : BitVec 8) (frame : Bytes) (toDie : Option (BitVec 2 × BitVec 6))
  /-- READ_RESP (R214): A read reply is verified against its outstanding request and delivered, or consumed late. -/
  | weftReadResp (port : BitVec 8) (frame : Bytes)
  /-- WRITE_RESP (R214): A write reply answers a WRITE, MCAST, MESSAGE or GROUP_OPEN. -/
  | weftWriteResp (port : BitVec 8) (frame : Bytes)
  /-- PLY_RESP (R230): A ply reply, direct or fanned out by a switch, acknowledges a sequenced operation or returns a fetch. -/
  | weftPlyResp (port : BitVec 8) (origin : BitVec 15) (frame : Bytes)
  /-- OPEN (R217): A received OPEN makes the receiver allocate a half-open session and send ACCEPT, or send none. -/
  | weftOpen (port : BitVec 8) (fields : OpenF)
  /-- ACCEPT (R217): A received ACCEPT makes the opener derive and verify keys and send its first frame. -/
  | weftAccept (port : BitVec 8) (session : BitVec 12) (fields : OpenF) (tag : BitVec 128)
  /-- CLOSE (R220): A verified CLOSE closes the session and fails what is outstanding with KEY_RETIRED. -/
  | weftClose (port : BitVec 8) (frame : Bytes)
  /-- GROUP_OPEN (R231): A GROUP_OPEN makes the receiver derive a group key and hold a group entry, or answer QUOTA. -/
  | weftGroupOpen (port : BitVec 8) (frame : Bytes)
  /-- REQUEST_TIMEOUT (R224): A weft or federation request's timeout wins; Frexis reports TIMEOUT and keeps the request pending. -/
  | requestTimeout (req : BitVec 64)
  /-- PLY_RESEND (R203): 100 ticks pass without a reply, or the link resumes, and an unacknowledged sequenced operation is sent again. -/
  | plyResend (req : BitVec 64)
  /-- RESOLVE_RESEND (R204): Every 100 ticks, a resolve frame is sent for a timed-out sequenced operation. -/
  | resolveResend (req : BitVec 64)
  /-- OPEN_TIMEOUT (R217): No ACCEPT arrives within the weft request timeout, and the waiting requests fail with TIMEOUT. -/
  | openTimeout (session : BitVec 12)
  /-- SESSION_LOSS (R223): No verified frame for LOSS_MULT × REQ_TICKS with requests outstanding; the session is lost and resolution records carry KEY_RETIRED. -/
  | sessionLoss (session : BitVec 12)
  /-- SESSION_IDLE (R220): No frame for 65,536 ticks, and the session is closed with CLOSE. -/
  | sessionIdle (session : BitVec 12)
  /-- SECRET_CLOSE (R220): An old session under a replaced secret is closed when it falls idle or 1,000 ticks after installation. -/
  | secretClose (session : BitVec 12)
  /-- LINK_DOWN (R226): The link layer reports a weft or federation port down; Frexis stops sending on it. -/
  | linkDown (port : BitVec 8)
  /-- LINK_UP (R226): A port is reported up again, and sessions on it resume for R203 within 2 µs. -/
  | linkUp (port : BitVec 8)
  /-- FEDERATION_PORT_LOSS (R237): A federation port direction receives no verified frame for the loss interval and is treated as down. -/
  | federationPortLoss (port : BitVec 8)
  /-- FEDERATION_BRINGUP (R235): At start, the leader and a follower exchange identities and keys, and the follower installs F and opens its ports. -/
  | federationBringup (die : BitVec 2) (device : BitVec 128) (sigOk : Bool) (key : Key) (rands : BitVec 512) (skeinList : List (Nat × Option Nat)) (binds : List (Nat × Nat))
  /-- FOLLOWER_ACK (R30): A follower acknowledges a package-wide operation, and the leader completes it once all have. -/
  | followerAck (index : BitVec 16) (die : BitVec 2)
  /-- PACKAGE_OP_TIMEOUT (R30): A follower does not acknowledge in time; the leader undoes the operation and completes with TIMEOUT. -/
  | packageOpTimeout (index : BitVec 16) (evs : MemEvs)
  /-- IDE_TLP_RECEIVE (R242): A received IDE TLP is verified and released, or dropped with the stream moved to Insecure. -/
  | ideTlpReceive (port : BitVec 2) (stream : BitVec 7) (sub : BitVec 2) (kbit : Bool) (hdr data mac : Bytes) (orderOk pcrcOk : Bool)
  /-- CFG_ACCESS (R239): A forwarded configuration access to the IDE Extended Capability is answered. -/
  | cfgAccess (port : BitVec 2) (func : BitVec 11) (off : BitVec 12) (read : Bool) (data : BitVec 32) (be : BitVec 4)
  /-- FUNCTION_LEVEL_RESET (R249): An EVT Function Level Reset moves a locked TDI to ERROR. -/
  | functionLevelReset (port : BitVec 2) (func : BitVec 11)
  /-- BAR_REPROGRAMMED (R249): An EVT BAR reprogramming moves a locked TDI to ERROR. -/
  | barReprogrammed (port : BitVec 2) (func : BitVec 11)
  /-- HOST_LINK_DOWN (R483): EVT reports the host link down. -/
  | hostLinkDown (port : BitVec 2)
  /-- HOST_LINK_UP (R483): EVT reports the host link up. -/
  | hostLinkUp (port : BitVec 2) (flit : Bool)
  /-- KEY_PROG (R241): The IDE_KM KEY_PROG request programs a key set of a sub-stream. -/
  | keyProg (path : BitVec 2) (sess : BitVec 32) (stream : BitVec 8) (sub : BitVec 4) (tx kset : Bool) (key : Key) (ifv : BitVec 64)
  /-- QUERY (R239): The IDE_KM QUERY request reports the port's IDE configuration. -/
  | query (path : BitVec 2) (sess : BitVec 32)
  /-- K_SET_GO (R241): The IDE_KM K_SET_GO request switches transmission to a key set. -/
  | kSetGo (path : BitVec 2) (sess : BitVec 32) (stream : BitVec 8) (sub : BitVec 4) (tx kset : Bool)
  /-- K_SET_STOP (R241): The IDE_KM K_SET_STOP request erases a key set. -/
  | kSetStop (path : BitVec 2) (sess : BitVec 32) (stream : BitVec 8) (sub : BitVec 4) (tx kset : Bool)
  /-- GET_TDISP_VERSION (R245): The TDISP request GET_TDISP_VERSION is answered; a message whose code is outside R245's table is answered
UNSUPPORTED_REQUEST. -/
  | getTdispVersion (path : BitVec 2) (sess : BitVec 32) (msg : TdispMsg)
  /-- GET_TDISP_CAPABILITIES (R245): The TDISP request GET_TDISP_CAPABILITIES is answered. -/
  | getTdispCapabilities (path : BitVec 2) (sess : BitVec 32) (func : BitVec 16)
  /-- LOCK_INTERFACE_REQUEST (R246): LOCK_INTERFACE_REQUEST locks a TDI to a Secure selective stream. -/
  | lockInterfaceRequest (path : BitVec 2) (sess : BitVec 32) (func : BitVec 16) (stream : BitVec 8) (mmio : BitVec 64) (flags : BitVec 16)
  /-- GET_DEVICE_INTERFACE_REPORT (R247): GET_DEVICE_INTERFACE_REPORT returns the TDI's interface report. -/
  | getDeviceInterfaceReport (path : BitVec 2) (sess : BitVec 32) (func : BitVec 16) (off len : BitVec 16)
  /-- GET_DEVICE_INTERFACE_STATE (R245): GET_DEVICE_INTERFACE_STATE returns the TDI's state. -/
  | getDeviceInterfaceState (path : BitVec 2) (sess : BitVec 32) (func : BitVec 16)
  /-- START_INTERFACE_REQUEST (R245): START_INTERFACE_REQUEST moves a TDI from CONFIG_LOCKED to RUN. -/
  | startInterfaceRequest (path : BitVec 2) (sess : BitVec 32) (func : BitVec 16) (nonce : BitVec 256)
  /-- STOP_INTERFACE_REQUEST (R249): STOP_INTERFACE_REQUEST moves a TDI from any state to CONFIG_UNLOCKED. -/
  | stopInterfaceRequest (path : BitVec 2) (sess : BitVec 32) (func : BitVec 16)
  /-- SET_ENDPOINT_ID (R251): The MCTP control command Set Endpoint ID assigns the path's endpoint ID. -/
  | setEndpointId (path : BitVec 2) (op : BitVec 2) (eid : BitVec 8)
  /-- GET_ENDPOINT_ID (R250): The MCTP control command Get Endpoint ID is answered. -/
  | getEndpointId (path : BitVec 2)
  /-- GET_MCTP_VERSION_SUPPORT (R250): The MCTP control command Get MCTP Version Support is answered. -/
  | getMctpVersionSupport (path : BitVec 2) (type : BitVec 8)
  /-- GET_MESSAGE_TYPE_SUPPORT (R250): The MCTP control command Get Message Type Support is answered. A message of another
command is answered ERROR_UNSUPPORTED_CMD, one of another type or length dropped. -/
  | getMessageTypeSupport (msg : MctpMsg)
  /-- ENTDAA (R252): The I3C CCC ENTDAA assigns a dynamic address. -/
  | entdaa (da : BitVec 7)
  /-- SETDASA (R252): The I3C CCC SETDASA assigns a dynamic address from the static address. -/
  | setdasa (sa : BitVec 7) (da : BitVec 7)
  /-- RSTDAA (R252): The I3C CCC RSTDAA resets the dynamic address. -/
  | rstdaa
  /-- ENEC (R252): The I3C CCC ENEC enables target events. -/
  | enec (dest : Option (BitVec 7)) (ev : BitVec 8)
  /-- DISEC (R252): The I3C CCC DISEC disables target events. -/
  | disec (dest : Option (BitVec 7)) (ev : BitVec 8)
  /-- GETPID (R252): The I3C CCC GETPID returns the provisioned ID. -/
  | getpid (dest : BitVec 7)
  /-- GETBCR (R252): The I3C CCC GETBCR returns the BCR. -/
  | getbcr (dest : BitVec 7)
  /-- GETDCR (R252): The I3C CCC GETDCR returns the DCR. -/
  | getdcr (dest : BitVec 7)
  /-- GETSTATUS (R252): The I3C CCC GETSTATUS returns target status. -/
  | getstatus (dest : BitVec 7)
  /-- SETMWL (R252): The I3C CCC SETMWL sets the maximum write length. -/
  | setmwl (dest : Option (BitVec 7)) (len : BitVec 16)
  /-- GETMWL (R252): The I3C CCC GETMWL returns the maximum write length. -/
  | getmwl (dest : BitVec 7)
  /-- SETMRL (R252): The I3C CCC SETMRL sets the maximum read length. -/
  | setmrl (dest : Option (BitVec 7)) (len : BitVec 16) (ibi : Option (BitVec 8))
  /-- GETMRL (R252): The I3C CCC GETMRL returns the maximum read length. -/
  | getmrl (dest : BitVec 7)
  /-- GET_VERSION (R254): The SPDM GET_VERSION request is answered with version 1.3. -/
  | getVersion (path : BitVec 2) (sess : BitVec 32) (msg : Bytes)
  /-- GET_CAPABILITIES (R254): The SPDM GET_CAPABILITIES request is answered. -/
  | getCapabilities (path : BitVec 2) (sess : BitVec 32) (msg : Bytes)
  /-- NEGOTIATE_ALGORITHMS (R254): The SPDM NEGOTIATE_ALGORITHMS request is answered. -/
  | negotiateAlgorithms (path : BitVec 2) (sess : BitVec 32) (msg : Bytes)
  /-- GET_DIGESTS (R301): The SPDM GET_DIGESTS request returns the slot 0 digest. -/
  | getDigests (path : BitVec 2) (sess : BitVec 32) (msg : Bytes)
  /-- GET_CERTIFICATE (R301): The SPDM GET_CERTIFICATE request returns the DeviceID and alias chain. -/
  | getCertificate (path : BitVec 2) (sess : BitVec 32) (msg : Bytes)
  /-- CHALLENGE (R255): The SPDM CHALLENGE request is answered with a signed CHALLENGE_AUTH. -/
  | challenge (path : BitVec 2) (sess : BitVec 32) (msg : Bytes)
  /-- GET_MEASUREMENTS (R326): The SPDM GET_MEASUREMENTS request returns the device measurement blocks. -/
  | getMeasurements (path : BitVec 2) (sess : BitVec 32) (msg : Bytes)
  /-- KEY_EXCHANGE (R256): The SPDM KEY_EXCHANGE request opens a secured session within the path's limit. -/
  | keyExchange (path : BitVec 2) (sess : BitVec 32) (msg : Bytes)
  /-- FINISH (R255): The SPDM FINISH request completes a secured session. -/
  | finish (path : BitVec 2) (sess : BitVec 32) (msg : Bytes)
  /-- END_SESSION (R255): The SPDM END_SESSION request ends a secured session. -/
  | endSession (path : BitVec 2) (sess : BitVec 32) (msg : Bytes)
  /-- GET_ENCAPSULATED_REQUEST (R257): The SPDM GET_ENCAPSULATED_REQUEST request carries mutual authentication of the requester. -/
  | getEncapsulatedRequest (path : BitVec 2) (sess : BitVec 32) (msg : Bytes)
  /-- DELIVER_ENCAPSULATED_RESPONSE (R257): The SPDM DELIVER_ENCAPSULATED_RESPONSE request delivers the requester's encapsulated response. -/
  | deliverEncapsulatedResponse (path : BitVec 2) (sess : BitVec 32) (msg : Bytes)
  /-- PQ_START (R311): The group 0x10 operation PQ_START runs the hybrid exchange and holds a pending TPK. -/
  | pqStart (path : BitVec 2) (sess : BitVec 32) (msg : Bytes)
  /-- PQ_FINISH (R312): The group 0x10 operation PQ_FINISH confirms and establishes the pending TPK. -/
  | pqFinish (path : BitVec 2) (sess : BitVec 32) (msg : Bytes)
  /-- TPK_PENDING_EXPIRY (R313): A pending TPK not confirmed within 1,000,000 ticks is discarded. -/
  | tpkPendingExpiry (skein : BitVec 10)
  /-- PQ_SIGN (R335): The group 0x20 operation PQ_SIGN signs the last measurement transcript with ML-DSA-87. -/
  | pqSign (path : BitVec 2) (sess : BitVec 32) (msg : Bytes)
  /-- PQ_CHAIN (R334): The group 0x20 operation PQ_CHAIN returns one part of the ML-DSA-87 chain. -/
  | pqChain (path : BitVec 2) (sess : BitVec 32) (msg : Bytes)
  /-- SKEIN_EVIDENCE (R329): The group 0x20 operation SKEIN_EVIDENCE builds a signed skein evidence record. -/
  | skeinEvidence (path : BitVec 2) (sess : BitVec 32) (msg : Bytes)
  /-- SKEIN_EVIDENCE_PART (R336): The group 0x20 operation SKEIN_EVIDENCE_PART returns a further part of the held record. -/
  | skeinEvidencePart (path : BitVec 2) (sess : BitVec 32) (msg : Bytes)
  /-- FW_BEGIN (R342): The group 0x30 operation FW_BEGIN empties the bank not running and sets it WRITING. -/
  | fwBegin (path : BitVec 2) (sess : BitVec 32) (msg : Bytes)
  /-- FW_WRITE (R341): The group 0x30 operation FW_WRITE writes image bytes into the WRITING bank. -/
  | fwWrite (path : BitVec 2) (sess : BitVec 32) (msg : Bytes)
  /-- FW_STAGE (R339): The group 0x30 operation FW_STAGE checks the written image, leaving the bank STAGED or EMPTY. -/
  | fwStage (path : BitVec 2) (sess : BitVec 32) (msg : Bytes)
  /-- FW_ACTIVATE (R343): The group 0x30 operation FW_ACTIVATE answers OK, ends sessions and begins the busy period. -/
  | fwActivate (path : BitVec 2) (sess : BitVec 32) (msg : Bytes)
  /-- FW_ACTIVATION_RUN (R343): Once resets and key-ladder steps end, the ROM checks the staged bank, derives new keys and runs it as TRIAL or falls back. -/
  | fwActivationRun (selfTest : Bool)
  /-- FW_CONFIRM (R346): The group 0x30 operation FW_CONFIRM burns anti-rollback bits and makes the TRIAL bank RUNNING. -/
  | fwConfirm (path : BitVec 2) (sess : BitVec 32) (msg : Bytes) (fail : Option (BitVec 9))
  /-- FW_STATUS (R341): The group 0x30 operation FW_STATUS returns measurement indices 4 and 7. -/
  | fwStatus (path : BitVec 2) (sess : BitVec 32) (msg : Bytes)
  /-- LC_TRANSITION (R356): The group 0x30 operation LC_TRANSITION is checked, burns the intent word and erases. -/
  | lcTransition (path : BitVec 2) (sess : BitVec 32) (msg : Bytes) (took : BitVec 64) (evs : MemEvs)
  /-- LC_STATE_BURN (R356): Once VAO_BACKUP reports good, the state word is burnt and the transition is answered, with a block reset 10 ms later. -/
  | lcStateBurn (slotsZero : Bool) (took : BitVec 64)
  /-- LC_STATUS (R351): The group 0x30 operation LC_STATUS returns LOCK_STATE, identity, the log and the counter banks. -/
  | lcStatus (path : BitVec 2) (sess : BitVec 32) (msg : Bytes)
  /-- OPERATOR_BIND (R353): The group 0x30 operation OPERATOR_BIND burns an operator root record and revokes the earlier one. -/
  | operatorBind (path : BitVec 2) (sess : BitVec 32) (msg : Bytes) (took : BitVec 768)
  /-- SLOT_KEY_INSTALL (R319): The group 0x40 operation SLOT_KEY_INSTALL installs a class E key for the slot-class skein. -/
  | slotKeyInstall (path : BitVec 2) (sess : BitVec 32) (msg : Bytes)
  /-- SLOT_KEY_ROTATE (R319): The group 0x40 operation SLOT_KEY_ROTATE rotates a slot-class key, or advances its region with EPOCH. -/
  | slotKeyRotate (path : BitVec 2) (sess : BitVec 32) (msg : Bytes)
  /-- SLOT_KEY_RETIRE (R319): The group 0x40 operation SLOT_KEY_RETIRE retires a slot-class key. -/
  | slotKeyRetire (path : BitVec 2) (sess : BitVec 32) (msg : Bytes)
  /-- SLOT_SECRET_SET (R319): The group 0x40 operation SLOT_SECRET_SET sets W or C of the slot-class skein. -/
  | slotSecretSet (path : BitVec 2) (sess : BitVec 32) (msg : Bytes)
  /-- SLOT_MEMBERS (R319): The group 0x40 operation SLOT_MEMBERS assembles the slot-class member list part by part. -/
  | slotMembers (path : BitVec 2) (sess : BitVec 32) (msg : Bytes)
  /-- STREAM_SET (R263): The group 0x50 operation STREAM_SET configures a fronthaul stream. -/
  | streamSet (path : BitVec 2) (sess : BitVec 32) (msg : Bytes)
  /-- SA_INSTALL (R263): The group 0x50 operation SA_INSTALL installs a MACsec secure association. -/
  | saInstall (path : BitVec 2) (sess : BitVec 32) (msg : Bytes)
  /-- SA_RETIRE (R263): The group 0x50 operation SA_RETIRE retires a secure association and erases its key. -/
  | saRetire (path : BitVec 2) (sess : BitVec 32) (msg : Bytes)
  /-- STREAM_STATUS (R265): The group 0x50 operation STREAM_STATUS reports the stream's SA, PN and drop counts. -/
  | streamStatus (path : BitVec 2) (sess : BitVec 32) (msg : Bytes)
  /-- FRONTHAUL_TRANSMIT (R264): A clear frame from the fronthaul interface is given an SA and PN at its first byte and protected, or dropped. -/
  | fronthaulTransmit (stream : BitVec 3) (frame : Bytes) (room err : Bool)
  /-- FRONTHAUL_RECEIVE (R262): A protected frame from the MAC is verified and delivered, or dropped and counted. -/
  | fronthaulReceive (stream : BitVec 3) (frame : Bytes) (room err : Bool)
  /-- PACK_WRITE (R425): The group 0x60 operation PACK_WRITE fills the pack staging area. -/
  | packWrite (path : BitVec 2) (sess : BitVec 32) (msg : Bytes)
  /-- PACK_COMMIT (R417): The group 0x60 operation PACK_COMMIT checks and stores the staged pack. -/
  | packCommit (path : BitVec 2) (sess : BitVec 32) (msg : Bytes)
  /-- PACK_DROP (R425): The group 0x60 operation PACK_DROP removes a stored pack. -/
  | packDrop (path : BitVec 2) (sess : BitVec 32) (msg : Bytes)
  /-- FT_RUN (R418): The group 0x60 operation FT_RUN starts a field test. -/
  | ftRun (path : BitVec 2) (sess : BitVec 32) (msg : Bytes)
  /-- FAULT_READ (R425): The group 0x60 operation FAULT_READ returns a held fault record. -/
  | faultRead (path : BitVec 2) (sess : BitVec 32) (msg : Bytes)
  /-- FAULT_LIST (R425): The group 0x60 operation FAULT_LIST returns part of a fault record's list. -/
  | faultList (path : BitVec 2) (sess : BitVec 32) (msg : Bytes) (evs : MemEvs)
  /-- LANE_SET (R420): The group 0x60 operation LANE_SET enables or disables a ply lane. -/
  | laneSet (path : BitVec 2) (sess : BitVec 32) (msg : Bytes)
  /-- BLOCK_RESET (R425): The group 0x60 operation BLOCK_RESET is answered OK, and a block reset follows 10 ms later. -/
  | blockReset (path : BitVec 2) (sess : BitVec 32) (msg : Bytes)
  /-- POLICY_SET (R452): The group 0x70 operation POLICY_SET sets the operator policy flags. -/
  | policySet (path : BitVec 2) (sess : BitVec 32) (msg : Bytes)
  /-- COUNTER_READ (R452): The group 0x70 operation COUNTER_READ returns part of a counter section. -/
  | counterRead (path : BitVec 2) (sess : BitVec 32) (msg : Bytes)
  /-- MONITOR_SET (R452): The group 0x70 operation MONITOR_SET assigns a probe to a monitor and clears its record. -/
  | monitorSet (path : BitVec 2) (sess : BitVec 32) (msg : Bytes)
  /-- MONITOR_READ (R463): The group 0x70 operation MONITOR_READ returns a monitor record, and clears it with CLEAR. -/
  | monitorRead (path : BitVec 2) (sess : BitVec 32) (msg : Bytes)
  /-- SPOOL_TRIGGER (R466): The group 0x70 operation SPOOL_TRIGGER triggers a spool window. -/
  | spoolTrigger (path : BitVec 2) (sess : BitVec 32) (msg : Bytes)
  /-- SPOOL_WINDOW_CLOSE (R466): The post-trigger part fills or POST_MS passes, and the spool window closes. -/
  | spoolWindowClose
  /-- SPOOL_IMAGE_WRITE (R469): A closed window is written as an image to the host area and the trace output, then unpinned. -/
  | spoolImageWrite
  /-- HANG_DUMP_WRITE (R472): After the start, the hang dump is written as an image with its skein parts sealed, and the dump slots are erased. -/
  | hangDumpWrite
  /-- DUMP_SLOT_ERASE (R472): One second after the start, the distaff dump slots are erased. -/
  | dumpSlotErase
  /-- IDCODE (R496): The JTAG instruction IDCODE returns the identification code. -/
  | idcode
  /-- BYPASS (R496): The JTAG instruction BYPASS, also selected by any instruction not available. -/
  | bypass
  /-- LC_MAILBOX (R496): The JTAG instruction LC_MAILBOX carries group 0x30 messages. -/
  | lcMailbox (msg : Bytes) (took : BitVec 768) (fail : Option (BitVec 9)) (evs : MemEvs)
  /-- DBG_FW (R496): The JTAG instruction DBG_FW halts, steps and reads the security firmware controller. -/
  | dbgFw (op : DbgOp)
  /-- DBG_READ (R496): The JTAG instruction DBG_READ reads counters, monitors, the spool and images. -/
  | dbgRead (what : DbgRead)
  /-- SCAN_ENTRY (R497): Entry to scan zeroes every key slot, the root, CDI0 and the DRBG state. -/
  | scanEntry (bist : Bool)
  /-- SCAN_EXIT (R497): Exit from scan, after which a start follows. -/
  | scanExit
  /-- VAO_BACKUP_LOST (R429): The VAO_BACKUP detector goes bad; when VAO_MAIN is also bad the distaff loses its retention state and the next start is a first start. -/
  | vaoBackupLost
  /-- TOD_BUS_SAMPLE_LOCK (R444): With PPS_EN 0, at the first time-of-day bus sample after 1,000 consecutive good tick intervals, Frexis compares the bus with T and locks, or steps T with a gap record. -/
  | todBusSampleLock (bus : BitVec 64)
  /-- AEAD_MESSAGE_END (R324): An IMPORT or EXPORT message finishes its blocks, tag and root, completes, frees its context and lets queued or suspended messages start or resume. -/
  | aeadMessageEnd (ring : Ring) (index : BitVec 16)
  /-- FIELD_TEST_END (R420): A field test finishes its vectors; engines are returned, retired or marked faulty, the fault record is written and the descriptor completes or the next queued test starts. -/
  | fieldTestEnd (failed : List Nat) (vectors : BitVec 32) (evs : MemEvs)
  /-- SPINDLE_RESET_DONE (R405): A spindle reset completes within 20 µs and the spindle returns to service with its ledgers kept. -/
  | spindleResetDone (spindle : BitVec 6)
  /-- CONTROLLER_RESTART_DONE (R407): The security firmware controller restart completes; Frexis raises ACLASS 5 again and descriptors waiting at fetch and SPDM requests proceed. -/
  | controllerRestartDone
  /-- CONTROLLER_RESTART_TIMEOUT (R407): A firmware controller restart has not completed within 5 ms, and Frexis performs a block reset. -/
  | controllerRestartTimeout
  /-- SKEIN_RESET_TIMEOUT (R406): A skein reset has not completed after 100 ms, and Frexis destroys the skein as a forced destroy under R289. -/
  | skeinResetTimeout (skein : BitVec 10) (evs : MemEvs)
  /-- SPINDLE_ISOLATION_TIMEOUT (R408): A spindle's isolation does not complete within 50 ticks, and Frexis performs a block reset with cause isolation hang. -/
  | spindleIsolationTimeout (spindle : BitVec 6)
deriving DecidableEq, Repr

end Sys2Proof
end

