-- ==== Sys2Proof/Decode.lean ====
section
/-! DEFINITION. Words of commands: spec/opcode_table.json gives no row any bits, so no word spells a command. Choices marked in
the log: DESIGN CHOICE 2. -/

namespace Sys2Proof

/-- The command that a word spells by the bits of the opcode table: none, because the table gives no row bits. -/
def decodeTableWord (_nbits _w : Nat) : Option Instr := none

end Sys2Proof
end

