-- ==== Sys2Proof/Machine/StControl.lean ====
section
/-! DEFINITION. State of control: attention views, fences, ring pairs, descriptors, skeins, hanks (05, 09, 12). Choices marked in
the log: DEDUCED 54. -/

namespace Sys2Proof.Machine

/-- An attention view (R377 to R379). -/
structure View where
  /-- W8. Number of the most recent attention event, modulo 256; reset 0 (R379). -/
  aseq : BitVec 8 := 0
  /-- W8. The ASEQ last written to ATTN_ACK; reset 0 (R379). -/
  acked : BitVec 8 := 0
  /-- W3. Class of the event numbered ASEQ; reset 0 (R377). -/
  aclass : Nat := 0
  /-- W1. That event concerns one skein; reset 0 (R377). -/
  skeinLocal : Bool := false
deriving DecidableEq, Repr

/-- A fence (R381); a fence not listed is at VALUE 0, no error, no grantee, no reference. -/
structure Fence where
  /-- W64. VALUE; reset 0 (R381). -/
  value : BitVec 64 := 0
  /-- W1. ERROR; reset 0 (R381). -/
  error : Bool := false
  /-- W8. CODE; reset 0 (R381). -/
  code : BitVec 8 := 0
  /-- Defined-skein index or none; reset none (R381). -/
  grantee : Option Nat := none
  /-- Count of references; reset 0 (R381, R389). -/
  refs : Nat := 0
deriving DecidableEq, Repr

/-- A completion record before its bytes are laid out (R373). -/
structure CRec where
  opcode : BitVec 8
  status : BitVec 8
  replyStatus : BitVec 16
  /-- RING_INDEX, or PEER for a RESOLUTION record. -/
  ringIndex : BitVec 16
  kind : BitVec 8
  phase : Bool
  forced : Bool
  sqHead : BitVec 16
  lost : BitVec 16
  /-- RESULT, byte 12 of the record in bits [7:0]. -/
  result : BitVec 160
deriving DecidableEq, Repr

/-- An unsolicited record waiting on chip for a held-back entry (R368). -/
structure QRec where
  opcode : BitVec 8
  status : BitVec 8
  ringIndex : BitVec 16
  kind : BitVec 8
  result : BitVec 160
deriving DecidableEq, Repr

/-- The nearest FENCE_WAIT before the next descriptor of a ring (R386): still outstanding, or completed with a status. -/
inductive LastWait where
  | none
  | outstanding (desc : Nat)
  | done (status : BitVec 8)
deriving DecidableEq, Repr

/-- A ring pair (R361 to R368). -/
structure RingPair where
  /-- W64. Submission ring field (R361); the manager's is CMD_MGR_SQ, reset 0 (R362). -/
  sq : BitVec 64 := 0
  /-- W64. Completion ring field (R361); the manager's is CMD_MGR_CQ, reset 0 (R362). -/
  cq : BitVec 64 := 0
  /-- W32. Last honoured SQ_TAIL; reset 0 (R365). -/
  sqTail : BitVec 32 := 0
  /-- W32. Fetch count SQ_HEAD; reset 0 (R365). -/
  sqHead : BitVec 32 := 0
  /-- W32. Last honoured CQ_HEAD; reset 0 (R365). -/
  cqHead : BitVec 32 := 0
  /-- W32. Production count; reset 0 (R365). -/
  cqProd : BitVec 32 := 0
  /-- Completion entries reserved at fetch and not yet written; reset 0 (R367). -/
  reserved : Nat := 0
  /-- Up to 64 unsolicited records held on chip, oldest first; reset empty (R368). -/
  queued : List QRec := []
  /-- W16. LOST, saturating; reset 0 (R368, R373). -/
  lost : Nat := 0
  /-- Doorbell writes discarded; reset 0 (R365). -/
  badBells : Nat := 0
  /-- The nearest FENCE_WAIT since the indices were last 0; reset none (R386). -/
  lastWait : LastWait := .none
deriving DecidableEq, Repr

/-- Where an accepted, incomplete descriptor stands. -/
inductive Phase where
  /-- Held by CHAIN behind an outstanding FENCE_WAIT (R386). -/
  | chained (desc : Nat)
  /-- Its FENCE_WAIT completed with this status; it starts or completes next (R386). -/
  | chainDone (status : BitVec 8)
  /-- Held by an earlier control operation on the same skein (R34, R272). -/
  | control
  /-- May run at the next idle step. -/
  | ready
  /-- A FENCE_WAIT in progress on a fence of a set (none: the manager's). -/
  | waiting (owner : Option Nat) (fence : Nat) (target : BitVec 64) (since : Nat) (deadline : Option Nat)
  /-- Started, and completed by a later event of its family. -/
  | running
  /-- As `running`, its effect for R34 already whole (R113, R158). -/
  | effected
  /-- Its followers apply it first; this die does so when the last of them has (R30). -/
  | agreeing
  /-- Done with this status and result; its record waits while the TDI is in ERROR (R249). -/
  | parked (status : BitVec 8) (result : BitVec 160)
  /-- Applied here, awaiting the acknowledgement of followers (R30). -/
  | followers (status : BitVec 8) (result : BitVec 160) (forced : Bool)
deriving DecidableEq, Repr

/-- A fetched descriptor that has not completed (R366, R372). -/
structure Desc where
  /-- The model's own number for the descriptor. -/
  id : Nat
  ring : Ring
  /-- RING_INDEX: its entry in the submission ring (R373). -/
  index : BitVec 16
  /-- The 64-B descriptor (R369, R371). -/
  raw : Line
  /-- The command, kept so that a held descriptor can start later. -/
  cmd : Instr
  phase : Phase
  /-- Hanks whose USES it holds (R390). -/
  uses : List Nat
  /-- Accepted at this tick (R8). -/
  since : Nat
deriving DecidableEq, Repr

/-- A FENCE_WAIT that reported TIMEOUT and awaits its LATE record (R387). -/
structure LateWait where
  ring : Ring
  index : BitVec 16
  owner : Option Nat
  fence : Nat
  target : BitVec 64
deriving DecidableEq, Repr

/-- States of a defined skein (R267). -/
inductive SkSt where
  | resident | quiescing | quiesced | resetting | swapped | destroying
deriving DecidableEq, Repr

/-- What a skein's drain leads to (R272 to R274, R279, R289). -/
inductive DrainKind where
  | quiesce | swapOut | destroy
deriving DecidableEq, Repr

/-- A drain in progress. -/
structure Drain where
  kind : DrainKind
  /-- Its operation's place in the order of acceptance (R34). -/
  stamp : Nat := 0
  /-- Its descriptor, while it has not completed. -/
  desc : Option Nat
  /-- RING_INDEX for a LATE record. -/
  index : BitVec 16
  opcode : BitVec 8
  /-- Tick at which LIMIT or DRAIN_LIMIT passes (R274, R289). -/
  deadline : Nat
  /-- The limit has won (R274). -/
  late : Bool
  /-- The skein was QUIESCING at acceptance, under a quiesce that its limit had ended (R274). -/
  wasQuiescing : Bool := false
  /-- The skein was QUIESCED at acceptance (R282, R291). -/
  wasQuiesced : Bool
  /-- Waiting at the key step for KEY_LADDER_LOCK (R281). -/
  atLadder : Bool := false
deriving DecidableEq, Repr

/-- The all-blocked rule at work (R286): the waiting skein, the one to swap in, the victim, the stamp of the victim's drain, the status of its
swap-out once that has ended, and whether the swap-in has begun. -/
structure RuleRun where
  waiter : Nat
  chosen : Nat
  victim : Nat
  stamp : Nat
  out : Option (BitVec 8) := none
  begun : Bool := false
deriving DecidableEq, Repr

/-- Counts that a destroy reports (R291). -/
structure DestroyCounts where
  completed : Nat := 0
  abandoned : Nat := 0
  dropped : Nat := 0
  refused : Nat := 0
deriving DecidableEq, Repr

/-- The mailbox a skein has named (R222, R393). -/
structure Mailbox where
  hank : Nat
  /-- PRODUCED, the count of messages delivered (R222). -/
  produced : Nat := 0
  /-- CONSUMED, as read back from the mailbox (R222). -/
  consumed : Nat := 0
deriving DecidableEq, Repr

/-- A skein's TDI (R244 to R249): 0 CONFIG_UNLOCKED, 1 CONFIG_LOCKED, 2 RUN, 3 ERROR. -/
inductive Tdi where
  | unlocked | locked | run | error
deriving DecidableEq, Repr

/-- A TDI's binding (R244 to R249). -/
structure TdiRec where
  st : Tdi := .unlocked
  /-- Host port and stream it is locked to (R246). -/
  port : Nat := 0
  stream : Nat := 0
  /-- W256. The START nonce while locked (R246). -/
  nonce : BitVec 256 := 0
  /-- MMIO reporting offset of the lock request (R247). -/
  mmioOff : BitVec 64 := 0
  /-- LOCK flags of the lock request (R246). -/
  flags : BitVec 16 := 0
  /-- W32. Session that locked it, and the digest of its requester's chain (R240, R246). -/
  sess : BitVec 32 := 0
  chain : BitVec 384 := 0
deriving DecidableEq, Repr

/-- A measurement slot (R323, R325). -/
structure Meas where
  /-- W384. Its value; reset 0. -/
  value : Digest := 0
  /-- Extensions made; reset 0. -/
  count : Nat := 0
  /-- The kind it was last extended by (R323). -/
  kind : Nat := 0
deriving DecidableEq, Repr

/-- A transfer key T with R_inst and its export counter (R307, R321). -/
structure TransferKey where
  key : Key
  /-- W128. R_inst, drawn at the install (R316). -/
  rInst : BitVec 128
  /-- W64. Next export counter N; 1 at the install (R316, R321). -/
  exportN : BitVec 64
deriving DecidableEq, Repr

/-- A skein secret with its 8-bit generation (R307). -/
structure Secret where
  key : Key
  gen : Nat
deriving DecidableEq, Repr

/-- A member of a skein's member list (R315). -/
structure Member where
  device : BitVec 128
  pod : Nat
  endpoint : Nat
deriving DecidableEq, Repr

/-- A defined skein (R266). -/
structure Skein where
  /-- State (R267). -/
  st : SkSt := .resident
  /-- The slot it holds; none while SWAPPED (R266). -/
  slot : Option Nat := none
  slotClass : Bool := false
  preemptible : Bool := false
  /-- W8 (R269). -/
  weight : Nat := 0
  /-- W16. Stack subset (R269). -/
  zones : Nat := 0
  /-- W20 (R152). -/
  hankQuota : Nat := 0
  /-- W9 (R269). -/
  keyQuota : Nat := 0
  /-- W13. Open-line limit, 8,191 already replaced by 256 (R195). -/
  openLines : Nat := 0
  ring : RingPair := {}
  view : View := {}
  /-- 4,096 fences, those not at their start value listed (R381). -/
  fences : List (Nat × Fence) := []
  /-- Doorbell values held while SWAPPED (R268). -/
  heldTail : Option (BitVec 32) := none
  heldCq : Option (BitVec 32) := none
  heldAck : Option (BitVec 8) := none
  /-- The 64 request-window cells of its slot, those not zero listed (R154). -/
  cells : List (Nat × Line) := []
  /-- PENDING cells with their places in the order of acceptance (R34, R153). -/
  cellOrder : List (Nat × Nat) := []
  mailbox : Option Mailbox := none
  tdi : TdiRec := {}
  /-- Drains under way, oldest first: more than one where a quiesce follows one that its limit ended (R274). -/
  drains : List Drain := []
  /-- The skein was QUIESCED when its swap-out was accepted (R282). -/
  backQuiesced : Bool := false
  counts : DestroyCounts := {}
  /-- A reset in progress: tick of acceptance (R278, R406). -/
  resetSince : Nat := 0
  /-- Tick of last progress (R286). -/
  lastProgress : Nat := 0
  /-- Tick of the last swap-in by the all-blocked rule (R286). -/
  ruleIn : Option Nat := none
  /-- TPK and the provisioner digest (R307). -/
  tpk : Option Key := none
  provisioner : Digest := 0
  /-- H_FW when TPK was established, and activations since (R330). -/
  hFwTpk : Digest := 0
  fwChanges : Nat := 0
  /-- Record bytes 224 to 3,479 as of the acceptance of a reset, while it runs (R333). -/
  frozen : Option Bytes := none
  /-- Number of the swap wrapping key over its swapped state (R345). -/
  wrapGen : Nat := 0
  /-- Transfer keys by index (R307). -/
  tkeys : List (Nat × TransferKey) := []
  /-- Indices whose transfer key has been retired (R318). -/
  tkeysGone : List Nat := []
  /-- Retired transfer keys that messages already accepted complete under (R318). -/
  tkeysKept : List (Nat × TransferKey) := []
  /-- Weft secret W (R307). -/
  weft : Option Secret := none
  /-- Combine secret C (R307). -/
  combine : Option Secret := none
  /-- Member list by member index (R215, R216, R315). -/
  members : List (Nat × Member) := []
  /-- W32. Highest SERIAL accepted; none before the first (R316). -/
  serial : Option Nat := none
  /-- 64 measurement slots, those not at their start value listed (R323). -/
  meas : List (Nat × Meas) := []
  /-- Bucket selectors and bucket counts of the counter window (R459). -/
  selectors : List (Nat × BitVec 32) := []
  /-- Event counters of the skein by counter number (R457). -/
  ctrs : List (Nat × Nat) := []
  /-- Bucket counts by bucket and counter (R459). -/
  buckets : List (Nat × Nat) := []
deriving DecidableEq, Repr

/-- States of a hank (R149). -/
inductive HankSt where
  | free | allocated | revoked | zeroing | quarHeld | retired
deriving DecidableEq, Repr

/-- The memory classes (R24). -/
inductive MemClass where
  | S | E | B
deriving DecidableEq, Repr

/-- A hank record (R149); a hank not listed is FREE with step 0. -/
structure Hank where
  st : HankSt := .free
  /-- Owning skein. -/
  skein : Nat := 0
  /-- Key ID it is bound to, with its class. -/
  keyId : Nat := 0
  cls : MemClass := .S
  /-- W4. Step (R96); reset 0. -/
  step : Nat := 0
  /-- Epoch MAC block, for a class E hank with MAC_EN = 1 (R151). -/
  eblock : Option Nat := none
  /-- W16. HOLDS (R390). -/
  holds : Nat := 0
  /-- USES (R390). -/
  uses : Nat := 0
  /-- The revoked mark (R149). -/
  revokedMark : Bool := false
  /-- Order of entry into ZEROING, or of becoming re-initialisable (R525). -/
  order : Nat := 0
  /-- A range of it found the quarantine table full: it is re-initialised once released (R102). -/
  reinit : Bool := false
  /-- Its record was lost to a double-bit error, so that accesses to it fail with INTERNAL_ECC (R397). -/
  lost : Bool := false
deriving DecidableEq, Repr

end Sys2Proof.Machine
end

