-- ==== Sys2Proof/Machine/StFabric.lean ====
section
/-! DEFINITION. State of the weft and federation engines (07_weft_links). Choices marked in the log: DEDUCED 99. -/

namespace Sys2Proof.Machine

/-- One direction's key of a session or federation port, with its frame numbers (R218, R219). -/
structure DirKey where
  key : Key := 0
  prev : Option Key := none
  /-- Ratchet generation. -/
  gen : Nat := 0
  /-- W44. Sender: the next frame number. Receiver: the highest accepted. -/
  num : Nat := 0
  /-- Receiver: numbers accepted within the window of 1,024 below `num`. -/
  marks : List Nat := []
deriving DecidableEq, Repr

/-- Where a session stands (R217). -/
inductive SessSt where
  | opening | half | live
deriving DecidableEq, Repr

/-- A frame waiting for its session to open: kind, flits, param, extra, payload. -/
structure QFrame where
  kind : Nat
  param : Nat
  extra : Nat
  payload : Bytes
deriving DecidableEq, Repr

/-- An entry of the session table (R215 to R220). -/
structure Session where
  st : SessSt
  /-- 0 pair, 1 combine, 2 group (R215). -/
  kind : Nat
  skein : Nat
  /-- This end sent the OPEN; a group's sender. -/
  opener : Bool
  /-- The peer's fields, from its OPEN or ACCEPT; of an opening session the member alone. -/
  peer : OpenF
  /-- This end's own fields. -/
  self : OpenF
  tx : DirKey := {}
  rx : DirKey := {}
  since : Nat
  /-- Ticks that an OPEN waits for its ACCEPT, as armed at `since` (R217, R523). -/
  limit : Nat
  /-- Tick of the last frame in either direction, and of the last verified one. -/
  lastFrame : Nat
  lastRx : Nat
  /-- The session-loss interval, as armed at the last verified frame (R223, R523). -/
  loss : Nat
  /-- An old secret's session closes by this tick (R220). -/
  closeBy : Option Nat := none
  /-- Tick of its last security event (R214). -/
  event : Option Nat := none
  /-- Replies that wait for it to open. -/
  queue : List QFrame := []
  /-- A group's sender: members that have accepted, refused, and not answered. -/
  accepted : List Nat := []
  refused : List Nat := []
  asked : List Nat := []
  /-- A receiver found the group's index taken (R231). -/
  taken : Bool := false
deriving DecidableEq, Repr

/-- An outbound request (R199 to R204, R216, R221 to R225). -/
structure OutReq where
  id : Nat
  skein : Nat
  slot : Nat
  /-- Federation: destination die; none: weft. -/
  die : Option Nat
  /-- Member index, 0x8000 + die index, or the group index of a multicast store. -/
  peer : Nat
  /-- Session it went out on. -/
  session : Option Nat := none
  /-- Frame kind (R211). -/
  kind : Nat
  addr : BitVec 64
  lines : Nat
  param : Nat
  extra : Nat
  payload : Bytes
  /-- A sequenced ply operation, and one with FETCH (R199). -/
  seqd : Bool
  fetch : Bool
  /-- Its frame number or SEQ once sent. -/
  nonce : Option Nat := none
  /-- The issuer's warp port and tag; none for a request Frexis makes itself. -/
  src : Option (Nat × BitVec 16)
  fence : Option Nat
  respond : Bool
  since : Nat
  /-- Its timeout and the loss interval of its session, as armed at `since` (R223, R523). -/
  limit : Nat
  loss : Nat
  lastSent : Nat := 0
  timedOut : Bool := false
  /-- Frames of it sent while a lower SEQ was open, whose answers may say that it came too early (R201, R204). -/
  stray : Nat := 0
  /-- A multicast store: receivers that have not answered, and the first error among the answers (R207, R232). -/
  waits : List Nat := []
  status : BitVec 8 := 0
  /-- The multicast store that this request resends, or the group whose GROUP_OPEN it is. -/
  parent : Option Nat := none
  /-- Its link has resumed since it was last sent (R203, R226). -/
  resume : Bool := false
  layer : Nat := 0
  operator : Nat := 0
deriving DecidableEq, Repr

/-- An inbound request being served (R221). -/
structure Inbound where
  id : Nat
  /-- Session, or none for a federation port. -/
  session : Option Nat
  port : Nat
  /-- Federation: source die and slot. -/
  src : Nat
  slot : Nat
  skein : Nat
  kind : Nat
  nonce : Nat
  lines : Nat
  /-- Sequenced: requester ID, SEQ and FETCH (R199). -/
  seqd : Option (Nat × BitVec 64)
  /-- Bytes of an atomic's element and its byte position in the line. -/
  fetch : Bool
  elem : Nat
  off : Nat
  /-- Contributions that a COMBINED frame counts (R229). -/
  count : Nat
deriving DecidableEq, Repr

/-- A frame forwarded between the federation ports (R233): port and nonce out, port, nonce and source in. -/
structure Forwarded where
  outPort : Nat
  outNonce : Nat
  inPort : Nat
  inNonce : Nat
  src : Nat
deriving DecidableEq, Repr

/-- A federation port (R233, R234). -/
structure FedPort where
  isOpen : Bool := false
  die : Nat := 0
  tx : DirKey := {}
  rx : DirKey := {}
  /-- Tick of the last verified frame, and the loss interval armed then (R237, R523). -/
  lastRx : Nat := 0
  loss : Nat := 0
deriving DecidableEq, Repr

/-- A package-wide operation, from its start until its followers have acknowledged it and this die has done its part (R30). -/
structure PkgOp where
  desc : Nat
  /-- RING_INDEX of its descriptor. -/
  index : BitVec 16
  /-- The skein whose drain it is, where it waits for one (R273). -/
  drain : Option Nat
  /-- The memory events that came with its last command. -/
  evs : MemEvs := []
  waits : List Nat
  /-- Tick at which this die's own part was done; none while it is not. -/
  since : Option Nat
  /-- Ticks that it waits, as armed at `since` (R30, R523). -/
  limit : Nat
deriving DecidableEq, Repr

/-- The weft and federation engines. -/
structure Fabric where
  /-- Ports that the link layer reports up; reset none. -/
  up : List Nat := []
  sessions : List (Nat × Session) := []
  out : List OutReq := []
  inbound : List Inbound := []
  nextId : Nat := 0
  /-- Next SEQ by channel and destination (R199). -/
  seqs : List (Nat × Nat) := []
  /-- BIND by slot (R202). -/
  binds : List (Nat × Nat) := []
  /-- The package's binding counts by slot, which the leader advances (R234). -/
  pkgBinds : List (Nat × Nat) := []
  /-- W256. Class B federation key F (R28, R234). -/
  fedKey : Option Key := none
  fed : List (Nat × FedPort) := []
  forwarded : List Forwarded := []
  /-- Device IDs by die, from the bring-up (R235). -/
  dies : List (Nat × BitVec 128) := []
  /-- Package binding: device IDs in OTP (R235). -/
  binding : List (BitVec 128) := []
  pkgOps : List PkgOp := []
  /-- Frames dropped for their kind or form, a failed tag, a stale session, a replay, and an unmatched REF (R211, R214). -/
  dropped : Nat := 0
  badTags : Nat := 0
  stales : Nat := 0
  replays : Nat := 0
  unmatched : Nat := 0
deriving DecidableEq, Repr

end Sys2Proof.Machine
end

