-- ==== Sys2Proof/Machine/Crypto.lean ====
section
/-! DEFINITION. The published algorithms the spec names: AES-256 (R35), the MAC field of R75, SHA-384, HMAC and the KDF of R298,
AES-256-GCM. AES-256 and SHA-384 are FIPS 197 and FIPS 180-4 (log entry 8). Choices marked in the log: PRESUMED 8. -/

namespace Sys2Proof

/-- The AES S-box, 64 entries a word, entry 0 in the low byte (FIPS 197). -/
def aesSboxWords : List (BitVec 512) :=
  [0x75b227ebe28012079a059618c323c7041531d871f1e5a534ccf73f362693fdb7c072a49cafa2d4adf04759fa7dc982ca76abd7fe2b670130c56f6bf27b777c63,
   0xd2f3ff1021dab6bcf5389d928f40a351a89f3c507f02f94585334d43fbaaefd0cf584c4a39becb6a5bb1fc20ed00d153842fe329b3d63b52a05a6e1b1a2c8309,
   0x08ae7a65eaf4566ca94ed58d6d37c8e779e4959162acd3c25c2406490a3a32e0db0b5ede14b8ee4688902a22dc4f816073195d643d7ea7c41744975fec130ccd,
   0x16bb54b00f2d99416842e6bf0d89a18cdf2855cee9871e9b948ed9691198f8e19e1dc186b95735610ef6034866b53e708a8bbd4b1f74dde8c6b4a61c2e2578ba]

/-- The AES S-box. -/
def aesSbox (b : Byte) : Byte := byteAt (aesSboxWords.getD (b.toNat / 64) 0) (b.toNat % 64)

/-- Doubling in GF(2^8) with the AES polynomial. -/
def aesXtime (b : Byte) : Byte := (b <<< 1) ^^^ (if b.getLsbD 7 then 0x1b else 0)

/-- One word of the AES-256 key schedule after `prev` (the 8 words before it, newest first), `i` its index. -/
def aesNextWord (i : Nat) (prev : List Bytes) (rcon : Byte) : Bytes :=
  let t := prev.headD []
  let t' :=
    if i % 8 = 0 then
      let r := (t.drop 1 ++ t.take 1).map aesSbox
      (r.headD 0 ^^^ rcon) :: r.drop 1
    else if i % 8 = 4 then t.map aesSbox else t
  List.zipWith (· ^^^ ·) (prev.getD 7 []) t'

/-- The AES-256 key schedule: 60 words, newest first. -/
def aesExpand : Nat → Nat → Byte → List Bytes → List Bytes
  | 0, _, _, acc => acc
  | n + 1, i, rcon, acc =>
    let w := aesNextWord i acc rcon
    aesExpand n (i + 1) (if i % 8 = 0 then aesXtime rcon else rcon) (w :: acc)

/-- The 15 round keys of 16 bytes. -/
def aesRoundKeys (k : Key) : List Bytes :=
  let kb := toBytes 32 k
  let w0 := (List.range 8).map fun i => (kb.drop (4 * i)).take 4
  let ws := (aesExpand 52 8 1 w0.reverse).reverse
  (List.range 15).map fun r => (((ws.drop (4 * r)).take 4).flatten)

/-- ShiftRows on the 16 state bytes (column order). -/
def aesShiftRows (s : Bytes) : Bytes :=
  (List.range 16).map fun i => s.getD ((i + 4 * (i % 4)) % 16) 0

/-- MixColumns on one column. -/
def aesMixColumn (c : Bytes) : Bytes :=
  let a := c.getD 0 0; let b := c.getD 1 0; let d := c.getD 2 0; let e := c.getD 3 0
  let x := aesXtime
  [x a ^^^ (x b ^^^ b) ^^^ d ^^^ e, a ^^^ x b ^^^ (x d ^^^ d) ^^^ e,
   a ^^^ b ^^^ x d ^^^ (x e ^^^ e), (x a ^^^ a) ^^^ b ^^^ d ^^^ x e]

/-- MixColumns on the state. -/
def aesMixColumns (s : Bytes) : Bytes :=
  ((List.range 4).map fun c => aesMixColumn ((s.drop (4 * c)).take 4)).flatten

/-- XOR of two byte runs. -/
def xorBytes (a b : Bytes) : Bytes := List.zipWith (· ^^^ ·) a b

/-- The inner rounds: each round key but the last. -/
def aesRounds : List Bytes → Bytes → Bytes
  | [], s => s
  | [k], s => xorBytes (aesShiftRows (s.map aesSbox)) k
  | k :: ks, s => aesRounds ks (xorBytes (aesMixColumns (aesShiftRows (s.map aesSbox))) k)

/-- AES-256 forward cipher on 16 bytes (R35). -/
def aesBytes (k : Key) (x : Bytes) : Bytes :=
  match aesRoundKeys k with
  | [] => x
  | k0 :: ks => aesRounds ks (xorBytes x k0)

/-- The block a whorl returns for an input block under a key, both in the little-endian byte order of R72. -/
def aes256 (k : Key) (x : Block128) : Block128 := ofBytes 128 (aesBytes k (toBytes 16 x))

/-- Multiplication of R75: bit j is the coefficient of x^j, polynomial x^128 + x^7 + x^2 + x + 1. -/
def gmulAux : Nat → Block128 → Block128 → Block128 → Block128
  | 0, _, _, r => r
  | n + 1, a, b, r =>
    gmulAux n ((a <<< 1) ^^^ (if a.getLsbD 127 then 0x87 else 0)) (b >>> 1) (if b.getLsbD 0 then r ^^^ a else r)

/-- gmul of R75. -/
def gmul (a b : Block128) : Block128 := gmulAux 128 a b 0

/-- The round constants of FIPS 180-4 for 64-bit words, eight to a row, the first in the low bits. -/
def shaConstRows : List (BitVec 512) :=
  [0xab1c5ed5da6d8118923f82a4af194f9b59f111f1b605d0193956c25bf348b538e9b5dba58189dbbcb5c0fbcfec4d3b2f7137449123ef65cd428a2f98d728ae22,
   0xc19bf174cf6926949bdc06a725c7123580deb1fe3b1696b172be5d74f27b896f550c7dc3d5ffb4e2243185be4ee4b28c12835b0145706fbed807aa98a3030242,
   0x76f988da831153b55cb0a9dcbd41fbd44a7484aa6ea6e4832de92c6f592b0275240ca1cc77ac9c650fc19dc68b8cd5b5efbe4786384f25e3e49b69c19ef14ad2,
   0x142929670a0e6e7006ca6351e003826fd5a79147930aa725c6e00bf33da88fc2bf597fc7beef0ee4b00327c898fb213fa831c66d2db43210983e5152ee66dfab,
   0x92722c851482353b81c2c92e47edaee6766a0abb3c77b2a8650a73548baf63de53380d139d95b3df4d2c6dfc5ac42aed2e1b21385c26c92627b70a8546d22ffc,
   0x106aa07032bbd1b8f40e35855771202ad69906245565a910d192e819d6ef5218c76c51a30654be30c24b8b70d0f89791a81a664bbc423001a2bfe8a14cf10364,
   0x682e6ff3d6b2b8a35b9cca4f7763e3734ed8aa4ae3418acb391c0cb3c5c95a6334b0bcb5e19b48a82748774cdf8eeb991e376c085141ab5319a4c116b8d2d0c8,
   0xc67178f2e372532bbef9a3f7b2c67915a4506cebde82bde990befffa23631e288cc702081a6439ec84c87814a1f0ab7278a5636f43172f60748f82ee5defb2fc,
   0x1b710b35131c471b113f9804bef90dae0a637dc5a2c898a606f067aa72176fbaf57d4f7fee6ed178eada7dd6cde0eb1ed186b8c721c0c207ca273eceea26619c,
   0x6c44198c4a4758175fcb6fab3ad6faec597f299cfc657e2a4cc5d4becb3e42b6431d67c49c100d4c3c9ebe0a15c9bebc32caab7b40c7249328db77f523047d84]
/-- The chaining value that SHA-384 starts from (FIPS 180-4), its first word in the low bits. -/
def shaStart : BitVec 512 :=
  0x47b5481dbefa4fa4db0c2e0d64f98fa78eb44a876858151167332667ffc00b31152fecd8f70e59399159015a3070dd17629a292a367cd507cbbb9d5dc1059ed8

/-- The eight words of a row. -/
def shaWords (x : BitVec 512) : List (BitVec 64) := (List.range 8).map fun i => x.extractLsb' (64 * i) 64
/-- The 80 round constants. -/
def shaConsts : List (BitVec 64) := shaConstRows.flatMap shaWords

/-- Big-endian bytes of a 64-bit word. -/
def be64 (x : BitVec 64) : Bytes := (toBytes 8 x).reverse
/-- Big-endian 4 bytes (R298). -/
def be32 (n : Nat) : Bytes := (leBytes 4 n).reverse

/-- A word mixed with itself: the XOR of some rotations and of one shift, a shift by 64 adding nothing. -/
def shaMix (rots : List Nat) (shift : Nat) (x : BitVec 64) : BitVec 64 := rots.foldl (fun a r => a ^^^ x.rotateRight r) (x >>> shift)

/-- Words after the block's own 16, each from four of the last 16, which are held oldest first. -/
def shaMore : Nat → List (BitVec 64) → List (BitVec 64)
  | 0, _ => []
  | n + 1, win =>
    let at' (i : Nat) := win.getD i 0
    let w := at' 0 + at' 9 + shaMix [1, 8] 7 (at' 1) + shaMix [19, 61] 6 (at' 14)
    w :: shaMore n (win.drop 1 ++ [w])

/-- One round on the eight working words; `kw` is the sum of the round's constant and its message word. -/
def shaRound (v : List (BitVec 64)) (kw : BitVec 64) : List (BitVec 64) :=
  let at' (i : Nat) := v.getD i 0
  let pick := at' 6 ^^^ (at' 4 &&& (at' 5 ^^^ at' 6))
  let most := (at' 0 &&& (at' 1 ||| at' 2)) ||| (at' 1 &&& at' 2)
  let add := kw + pick + at' 7 + shaMix [14, 18, 41] 64 (at' 4)
  (add + most + shaMix [28, 34, 39] 64 (at' 0)) :: v.take 3 ++ (at' 3 + add) :: (v.drop 4).take 3

/-- One compression of a 128-byte block. -/
def shaBlock (h : List (BitVec 64)) (blk : Bytes) : List (BitVec 64) :=
  let own := (List.range 16).map fun i => ofBytes 64 (blk.drop (8 * i) |>.take 8).reverse
  let sums := List.zipWith (· + ·) shaConsts (own ++ shaMore 64 own)
  List.zipWith (· + ·) (sums.foldl shaRound h) h

/-- Compression of `n` blocks. -/
def shaBlocks : Nat → Bytes → List (BitVec 64) → List (BitVec 64)
  | 0, _, h => h
  | n + 1, m, h => shaBlocks n (m.drop 128) (shaBlock h (m.take 128))

/-- SHA-384 of a byte string, as 48 bytes. -/
def sha384Bytes (m : Bytes) : Bytes :=
  let pad := (239 - m.length % 128) % 128
  let p := m ++ [0x80] ++ zeroBytes pad ++ (leBytes 16 (8 * m.length)).reverse
  ((shaBlocks (p.length / 128) p (shaWords shaStart)).take 6).flatMap be64

/-- SHA-384 as a digest, byte 0 in bits [7:0]. -/
def sha384 (m : Bytes) : Digest := ofBytes 384 (sha384Bytes m)

/-- HMAC-SHA-384 (FIPS 198-1). -/
def hmac384 (k m : Bytes) : Bytes :=
  let k0 := if 128 < k.length then sha384Bytes k else k
  let kp := k0 ++ zeroBytes (128 - k0.length)
  sha384Bytes (kp.map (· ^^^ 0x5c) ++ sha384Bytes (kp.map (· ^^^ 0x36) ++ m))

/-- ASCII bytes of a label (R298: no terminator). -/
def ascii (s : String) : Bytes := s.toList.map fun c => BitVec.ofNat 8 c.toNat

/-- KDF of R298: 32 bytes. -/
def kdf (k : Bytes) (label : String) (ctx : Bytes) : Key :=
  ofBytes 256 ((hmac384 k (be32 1 ++ ascii label ++ [0] ++ ctx ++ be32 256)).take 32)

/-- KDF512 of R298: 64 bytes. -/
def kdf512 (k : Bytes) (label : String) (ctx : Bytes) : Bytes :=
  let t := ascii label ++ [0] ++ ctx ++ be32 512
  (hmac384 k (be32 1 ++ t) ++ hmac384 k (be32 2 ++ t)).take 64

/-- The 32 bytes of a key, as KDF input. -/
def keyBytes (k : Key) : Bytes := toBytes 32 k

/-- GHASH multiplication (NIST SP 800-38D) on big-endian 128-bit values. -/
def ghashMulAux : Nat → Block128 → Block128 → Block128 → Block128
  | 0, _, _, z => z
  | n + 1, x, v, z =>
    ghashMulAux n (x <<< 1) ((v >>> 1) ^^^ (if v.getLsbD 0 then 0xE1000000000000000000000000000000 else 0))
      (if x.getLsbD 127 then z ^^^ v else z)

/-- A 16-byte block as a big-endian 128-bit value. -/
def beBlock (b : Bytes) : Block128 := ofBytes 128 ((b ++ zeroBytes (16 - b.length)).reverse)

/-- GHASH over whole (zero-padded) blocks. -/
def ghashRun : Nat → Block128 → Bytes → Block128 → Block128
  | 0, _, _, y => y
  | n + 1, h, m, y => ghashRun n h (m.drop 16) (ghashMulAux 128 (y ^^^ beBlock (m.take 16)) h 0)

/-- Zero padding to a whole number of 16-byte blocks. -/
def pad16 (b : Bytes) : Bytes := b ++ zeroBytes ((16 - b.length % 16) % 16)

/-- AES-CTR keystream of AES-GCM from counter block number `c` on, `n` blocks. -/
def gcmStream (k : Key) (iv : Bytes) : Nat → Nat → Bytes
  | 0, _ => []
  | n + 1, c => aesBytes k (iv ++ be32 c) ++ gcmStream k iv n (c + 1)

/-- CTR enciphering of a message under a 96-bit IV: blocks count from 2 (SP 800-38D). -/
def gcmCrypt (k : Key) (iv data : Bytes) : Bytes :=
  xorBytes data (gcmStream k iv ((data.length + 15) / 16) 2)

/-- AES-256-GCM block by block: the keystream of a message's block `i`, the accumulator after the AAD and after each ciphertext block, and
the tag of the lengths in bytes. -/
def gcmKeystream (k : Key) (iv : Bytes) (i : Nat) : Bytes := aesBytes k (iv ++ be32 (i + 2))
def gcmHash (k : Key) (y : Block128) (bs : Bytes) : Block128 := ghashRun ((bs.length + 15) / 16) (beBlock (aesBytes k (zeroBytes 16))) bs y
def gcmFinish (k : Key) (iv : Bytes) (y : Block128) (aad ct : Nat) : Bytes :=
  let y := gcmHash k y ((leBytes 8 (8 * aad)).reverse ++ (leBytes 8 (8 * ct)).reverse)
  xorBytes (toBytes 16 y).reverse (aesBytes k (iv ++ be32 1))

/-- The 128-bit AES-256-GCM tag over AAD and ciphertext. -/
def gcmTag (k : Key) (iv aad ct : Bytes) : Bytes :=
  let h := beBlock (aesBytes k (zeroBytes 16))
  let m := pad16 aad ++ pad16 ct ++ (leBytes 8 (8 * aad.length)).reverse ++ (leBytes 8 (8 * ct.length)).reverse
  xorBytes (toBytes 16 (ghashRun (m.length / 16) h m 0)).reverse (aesBytes k (iv ++ be32 1))

end Sys2Proof
end

