-- ==== Sys2Proof/Machine/Util.lean ====
section
/-! DEFINITION. Keyed lists in one canonical form (keys strictly rising) and small arithmetic helpers. -/

namespace Sys2Proof.Machine

/-- The value listed at a key. -/
def amGet {α : Type} (k : Nat) : List (Nat × α) → Option α
  | [] => none
  | (j, v) :: m => if k = j then some v else amGet k m

/-- List a value at a key, keys kept strictly rising. -/
def amSet {α : Type} (k : Nat) (v : α) : List (Nat × α) → List (Nat × α)
  | [] => [(k, v)]
  | (j, w) :: m => if k < j then (k, v) :: (j, w) :: m else if k = j then (k, v) :: m else (j, w) :: amSet k v m

/-- Unlist a key. -/
def amDel {α : Type} (k : Nat) : List (Nat × α) → List (Nat × α)
  | [] => []
  | (j, w) :: m => if k = j then amDel k m else (j, w) :: amDel k m

/-- The value at a key, with what an unlisted key reads as. -/
def amGetD {α : Type} (d : α) (k : Nat) (m : List (Nat × α)) : α := (amGet k m).getD d

/-- Write a value where `d` is what an unlisted key reads as: writing `d` unlists the key. -/
def amPut {α : Type} [DecidableEq α] (d : α) (k : Nat) (v : α) (m : List (Nat × α)) : List (Nat × α) :=
  if v = d then amDel k m else amSet k v m

/-- Apply a change at a key where it is listed. -/
def amMod {α : Type} (k : Nat) (f : α → α) (m : List (Nat × α)) : List (Nat × α) :=
  m.map fun e => if e.1 = k then (e.1, f e.2) else e

/-- Keys strictly rising. -/
def amSorted {α : Type} : List (Nat × α) → Bool
  | [] => true
  | [_] => true
  | (j, _) :: (k, w) :: m => decide (j < k) && amSorted ((k, w) :: m)

/-- The first number below `n` that a test accepts. -/
def findBelow (n : Nat) (p : Nat → Bool) : Option Nat := (List.range n).find? p

/-- Add with saturation at `2^w - 1` (the saturating counters of R450). -/
def satAdd (w a b : Nat) : Nat := min (a + b) (2 ^ w - 1)

/-- Whether a number is a power of two. -/
def isPow2 (n : Nat) : Bool := n != 0 && 2 ^ n.log2 == n

/-- The set bit positions of a mask below `n`, ascending. -/
def bitsOf (n m : Nat) : List Nat := (List.range n).filter fun i => m.testBit i

/-- Sum of a list of numbers. -/
def sumNat (l : List Nat) : Nat := l.foldl (· + ·) 0

/-- The element with the greatest key, the first among equals. -/
def argMax {α : Type} (key : α → Nat) : List α → Option α
  | [] => none
  | a :: l => match argMax key l with
    | none => some a
    | some b => if key a < key b then some b else some a

/-- The element with the least key, the first among equals. -/
def argMin {α : Type} (key : α → Nat) : List α → Option α
  | [] => none
  | a :: l => match argMin key l with
    | none => some a
    | some b => if key b < key a then some b else some a

/-- The first `n` bytes from offset `off`, zero beyond the end. -/
def sliceBytes (bs : Bytes) (off n : Nat) : Bytes := (List.range n).map fun i => bs.getD (off + i) 0

/-- A little-endian field of a byte string (R9). -/
def leField (bs : Bytes) (off n : Nat) : Nat := (ofBytes (8 * n) (sliceBytes bs off n)).toNat

/-- Field of `n` bytes at byte offset `off` of a little-endian format held in a bit vector (R9). -/
def fieldAt {w : Nat} (x : BitVec w) (off n : Nat) : Nat := (x.toNat >>> (8 * off)) % 2 ^ (8 * n)

/-- A value placed at byte offset `off`, `n` bytes wide. -/
def putAt (w off n v : Nat) : BitVec w := BitVec.ofNat w ((v % 2 ^ (8 * n)) <<< (8 * off))

/-- Replace bits [hi:lo] of a word. -/
def setBits {w : Nat} (x : BitVec w) (hi lo v : Nat) : BitVec w :=
  BitVec.ofNat w (x.toNat - (bitField x hi lo <<< lo) + ((v % 2 ^ (hi + 1 - lo)) <<< lo))

/-- A bit of a Boolean. -/
def b2n (b : Bool) : Nat := if b then 1 else 0

end Sys2Proof.Machine
end

