-- ==== Sys2Proof/Machine/Cipher.lean ====
section
/-! DEFINITION. Input blocks, keystream and MACs of the memory classes (R71 to R75, R81, R109, R110, R125, R187). -/

namespace Sys2Proof.Machine

/-- The class S input block of R71; tree nodes take CLASS 0 (R81). -/
def blkS (maj : BitVec 64) (addr mnr step cls blk : Nat) : Block128 :=
  BitVec.ofNat 128 (maj.toNat <<< 64 + (addr / 64 % 2 ^ 46) <<< 18 + (mnr % 128) <<< 11 + (step % 16) <<< 7 + cls <<< 5 + blk)

/-- The class E input block of R109. -/
def blkE (epoch : BitVec 64) (addr region blk : Nat) : Block128 :=
  BitVec.ofNat 128 (epoch.toNat <<< 64 + (addr / 64 % 2 ^ 46) <<< 18 + (region % 1024) <<< 8 + 2 <<< 5 + blk)

/-- The class B input block of R125. -/
def blkB (count : BitVec 64) (addr blk : Nat) : Block128 :=
  BitVec.ofNat 128 (count.toNat <<< 64 + (addr / 64 % 2 ^ 46) <<< 18 + 3 <<< 5 + blk)

/-- What fixes the keystream of a line: its class's input block, BLK left out. -/
inductive Ctr where
  | s (maj : BitVec 64) (mnr step : Nat)
  | node (maj : BitVec 64) (mnr step : Nat)
  | e (epoch : BitVec 64) (region : Nat)
  | b (count : BitVec 64)
deriving DecidableEq, Repr

/-- The input block of a counter for a line and BLK. -/
def Ctr.block (c : Ctr) (addr blk : Nat) : Block128 := match c with
  | .s maj m st => blkS maj addr m st 1 blk
  | .node maj m st => blkS maj addr m st 0 blk
  | .e ep r => blkE ep addr r blk
  | .b n => blkB n addr blk

/-- The four keystream blocks of a line, byte 0 in bits [7:0] (R72). -/
def keystream (k : Key) (c : Ctr) (addr : Nat) : Line :=
  let b (i : Nat) := (aes256 k (c.block addr i)).setWidth 512
  b 0 ||| (b 1 <<< 128) ||| (b 2 <<< 256) ||| (b 3 <<< 384)

/-- Encipher or decipher a line (R72). -/
def cryptLine (k : Key) (c : Ctr) (addr : Nat) (x : Line) : Line := x ^^^ keystream k c addr

/-- H = AES256(Kg, 0b111) of R75. -/
def hashKey (k : Key) : Block128 := aes256 k 7

/-- The untruncated hash of R75 before the pad. -/
def macHash (h : Block128) (ctx : Block128) (line : Line) : Block128 :=
  let p (i : Nat) : Block128 := (line >>> (128 * i)).setWidth 128
  let t := gmul (p 0) h
  let t := gmul (t ^^^ p 1) h
  let t := gmul (t ^^^ p 2) h
  let t := gmul (t ^^^ p 3) h
  gmul (t ^^^ ctx) h

/-- The 64-bit MAC of a line (R75), `line` the plaintext. -/
def lineMac (k : Key) (c : Ctr) (addr : Nat) (line : Line) : BitVec 64 :=
  (macHash (hashKey k) (c.block addr 5) line ^^^ aes256 k (c.block addr 4)).setWidth 64

/-- MAC slot `j` of a MAC line (R75). -/
def macSlot (m : Line) (j : Nat) : BitVec 64 := (m >>> (64 * j)).setWidth 64

/-- Put a MAC into slot `j`. -/
def putMacSlot (m : Line) (j : Nat) (v : BitVec 64) : Line :=
  (m &&& ~~~((0xFFFFFFFFFFFFFFFF : Line) <<< (64 * j))) ||| (v.setWidth 512 <<< (64 * j))

/-- Expand a byte mask to a bit mask. -/
def maskBits (mask : BitVec 64) : Line :=
  (List.range 64).foldl (fun acc i => if mask.getLsbD i then acc ||| ((0xFF : Line) <<< (8 * i)) else acc) 0

/-- Bytes of `new` where the mask is set, of `old` elsewhere (R69, R482). -/
def mergeLine (old new : Line) (mask : BitVec 64) : Line :=
  let m := maskBits mask
  (old &&& ~~~m) ||| (new &&& m)

def fullMask : BitVec 64 := 0xFFFFFFFFFFFFFFFF
/-- The 8-byte mask of MAC slot `j`. -/
def slotMask (j : Nat) : BitVec 64 := (0xFF : BitVec 64) <<< (8 * j)

/-- MAJOR of a counter block or node (R78). -/
def nodeMajor (n : Line) : BitVec 64 := n.setWidth 64
/-- Minor `i` (R78). -/
def nodeMinor (n : Line) (i : Nat) : Nat := ((n >>> (64 + 7 * i)).setWidth 7 : BitVec 7).toNat
/-- Set MAJOR. -/
def setMajor (n : Line) (m : BitVec 64) : Line := (n &&& ~~~(0xFFFFFFFFFFFFFFFF : Line)) ||| m.setWidth 512
/-- Set minor `i`. -/
def setMinor (n : Line) (i v : Nat) : Line :=
  (n &&& ~~~((0x7F : Line) <<< (64 + 7 * i))) ||| ((BitVec.ofNat 512 (v % 128)) <<< (64 + 7 * i))

/-- The rounding input block of R187. -/
def blkRound (srTag : BitVec 64) (addr srStep blk : Nat) : Block128 :=
  BitVec.ofNat 128 (srTag.toNat <<< 64 + (addr / 64 % 2 ^ 15) <<< 49 + (srStep % 65536) <<< 33 + blk)

/-- The 16 rounding bits of element `e` (R187). -/
def roundBits (kr : Key) (srTag : BitVec 64) (addr srStep e : Nat) : Nat :=
  let x := aes256 kr (blkRound srTag addr srStep (e / 8))
  (x.toNat >>> (16 * (e % 8))) % 65536

/-- AES in counter mode over an address-free stream is `gcmCrypt` (Crypto.lean); the carder's digest key block (R412). -/
def carderHash (kc : Key) : Block128 := aes256 kc 0

end Sys2Proof.Machine
end

