-- ==== Sys2Proof/Machine/PlyMath.lean ====
section
/-! DEFINITION. The arithmetic of the ply unit: formats, rounding, exact accumulation (06_ply_unit, R175 to R191). Choices marked
in the log: DEDUCED 33, 34. -/

namespace Sys2Proof.Machine

/-- The ply operation word (R175). -/
structure PlyWord where
  op : Nat
  fetch : Bool
  exact : Bool
  rnd : Nat
  fmt : Nat
  rsvd : Nat
  srStep : Nat
deriving DecidableEq, Repr

/-- Fields of the 32-bit word (R175). -/
def plyWord (w : BitVec 32) : PlyWord :=
  { op := bitField w 3 0, fetch := w.getLsbD 4, exact := w.getLsbD 5, rnd := bitField w 7 6, fmt := bitField w 11 8,
    rsvd := bitField w 15 12, srStep := bitField w 31 16 }

/-- How an element format treats infinity and NaN (R178, R180). -/
inductive FKind where
  | ieee | e4m3 | plain | fixed
deriving DecidableEq, Repr

/-- An element format: width, exponent and mantissa bits, bias (R178). -/
structure FFmt where
  w : Nat
  eb : Nat
  mb : Nat
  bias : Nat
  kind : FKind
  /-- MX: elements per block; 0 for formats without scales. -/
  blk : Nat
  /-- Blocks in a line. -/
  blocks : Nat
  /-- emax of R191. -/
  emax : Nat
deriving DecidableEq, Repr

/-- The floating-point formats by FMT code (R178, R190). -/
def ffmt (f : Nat) : Option FFmt :=
  if f = 2 then some ⟨32, 8, 23, 127, .ieee, 0, 0, 127⟩
  else if f = 3 then some ⟨16, 5, 10, 15, .ieee, 0, 0, 15⟩
  else if f = 4 then some ⟨16, 8, 7, 127, .ieee, 0, 0, 127⟩
  else if f = 5 then some ⟨8, 4, 3, 7, .e4m3, 0, 0, 8⟩
  else if f = 6 then some ⟨8, 5, 2, 15, .ieee, 0, 0, 15⟩
  else if f = 7 then some ⟨8, 4, 3, 7, .e4m3, 32, 1, 8⟩
  else if f = 8 then some ⟨8, 5, 2, 15, .ieee, 32, 1, 15⟩
  else if f = 9 then some ⟨6, 3, 2, 3, .plain, 32, 2, 4⟩
  else if f = 10 then some ⟨6, 2, 3, 1, .plain, 32, 2, 2⟩
  else if f = 11 then some ⟨4, 2, 1, 1, .plain, 32, 3, 2⟩
  else if f = 12 then some ⟨8, 0, 6, 0, .fixed, 32, 1, 0⟩
  else none

/-- Integer formats: element bits (R178). -/
def intBits (f : Nat) : Option Nat :=
  if f = 0 then some 32 else if f = 1 then some 8 else if f = 13 then some 64 else none

def isMx (f : Nat) : Bool := decide (7 ≤ f) && decide (f ≤ 12)

/-- Element bytes of an atomic or masked element. -/
def elemBytes (f : Nat) : Nat := match intBits f with
  | some w => w / 8
  | none => match ffmt f with
    | some g => g.w / 8
    | none => 1

/-- Elements of a line (R178). -/
def elemCount (f : Nat) : Nat := match intBits f with
  | some w => 512 / w
  | none => match ffmt f with
    | some g => if g.blk = 0 then 512 / g.w else g.blk * g.blocks
    | none => 0

/-- Exponent of the least significant bit of an element's smallest subnormal (R182), without scale. -/
def FFmt.lsb (g : FFmt) : Int := if g.kind = .fixed then -6 else 1 - (g.bias : Int) - g.mb

/-- The value of an element: NaN, an infinity, or sign and magnitude in units of 2^lsb. -/
inductive FV where
  | nan
  | inf (neg : Bool)
  | fin (neg : Bool) (mag : Nat)
deriving DecidableEq, Repr

/-- Decode an element (R178, R180). -/
def FFmt.decode (g : FFmt) (x : Nat) : FV :=
  if g.kind = .fixed then
    (if x < 128 then .fin false x else .fin true (256 - x))
  else
    let m := x % 2 ^ g.mb
    let e := x / 2 ^ g.mb % 2 ^ g.eb
    let neg := decide (x / 2 ^ (g.eb + g.mb) % 2 = 1)
    let top := 2 ^ g.eb - 1
    if g.kind = .ieee && e == top then (if m = 0 then .inf neg else .nan)
    else if g.kind = .e4m3 && e == top && m == 2 ^ g.mb - 1 then .nan
    else if e = 0 then .fin neg m
    else .fin neg ((2 ^ g.mb + m) <<< (e - 1))

/-- The largest finite magnitude, in units of 2^lsb. -/
def FFmt.maxMag (g : FFmt) : Nat :=
  let top := 2 ^ g.eb - 1
  match g.kind with
  | .ieee => (2 ^ (g.mb + 1) - 1) <<< (top - 2)
  | .e4m3 => (2 ^ (g.mb + 1) - 2) <<< (top - 1)
  | .plain => (2 ^ (g.mb + 1) - 1) <<< (top - 1)
  | .fixed => 127

/-- Encode a representable magnitude. -/
def FFmt.encode (g : FFmt) (neg : Bool) (mag : Nat) : Nat :=
  if g.kind = .fixed then (if neg && mag != 0 then 256 - mag else mag)
  else
    let s := b2n neg <<< (g.eb + g.mb)
    if mag < 2 ^ g.mb then s + mag
    else
      let e := mag.log2 - g.mb + 1
      s + e <<< g.mb + ((mag >>> (e - 1)) - 2 ^ g.mb)

/-- The canonical NaN (R180, R191). -/
def FFmt.nan (g : FFmt) : Nat := match g.kind with
  | .ieee => ((2 ^ g.eb - 1) <<< g.mb) + 2 ^ (g.mb - 1)
  | .e4m3 => 2 ^ (g.eb + g.mb) - 1
  | _ => 0

def FFmt.infCode (g : FFmt) (neg : Bool) : Nat := b2n neg <<< (g.eb + g.mb) + ((2 ^ g.eb - 1) <<< g.mb)

/-- R186: round `n` / 2^`d` to an integer; `r` the 16 rounding bits. -/
def roundShift (rnd r n d : Nat) : Nat :=
  let q := n >>> d
  let rem := n % 2 ^ d
  if d = 0 then n
  else if rnd = 0 then
    (if 2 * rem > 2 ^ d || (2 * rem == 2 ^ d && q % 2 == 1) then q + 1 else q)
  else if rnd = 1 then
    (if (rem * 65536) >>> d + r ≥ 65536 then q + 1 else q)
  else q

/-- Round a magnitude `n` × 2^`ue` to the format: units of 2^lsb, not yet limited to the largest finite value. -/
def FFmt.roundMag (g : FFmt) (rnd r n : Nat) (ue : Int) : Nat :=
  if n = 0 then 0
  else
    let lead : Int := (n.log2 : Int) + ue
    let emin : Int := g.lsb + g.mb
    let u : Int := if g.kind = .fixed then g.lsb else max lead emin - g.mb
    let q := if u ≤ ue then n <<< (ue - u).toNat else roundShift rnd r n (u - ue).toNat
    q <<< (u - g.lsb).toNat

/-- Write a value as an element of a format without scale: (element, saturated) (R180). -/
def FFmt.write (g : FFmt) (rnd r : Nat) (ue : Int) : FV → Nat × Bool
  | .nan => (g.nan, false)
  | .inf neg => if g.kind = .ieee then (g.infCode neg, false) else (g.encode neg g.maxMag, true)
  | .fin neg n =>
    let m := g.roundMag rnd r n ue
    if m ≤ g.maxMag then (g.encode neg m, false)
    else if g.kind = .ieee && g.blk == 0 then
      (if rnd = 2 then (g.encode neg g.maxMag, false) else (g.infCode neg, false))
    else (g.encode neg g.maxMag, true)

/-- Exact addition of two values in the same units (R181). -/
def FV.add : FV → FV → FV
  | .nan, _ => .nan
  | _, .nan => .nan
  | .inf a, .inf b => if a = b then .inf a else .nan
  | .inf a, _ => .inf a
  | _, .inf b => .inf b
  | .fin a m, .fin b n =>
    if a = b then .fin a (m + n)
    else if m = n then .fin false 0
    else if n < m then .fin a (m - n) else .fin b (n - m)

/-- Whether x is below y in the order of R180 (−0 below +0); neither is NaN. -/
def FV.lt : FV → FV → Bool
  | .inf true, .inf true => false
  | .inf true, _ => true
  | _, .inf true => false
  | .inf false, _ => false
  | _, .inf false => true
  | .fin a m, .fin b n =>
    if a && !b then true else if !a && b then false else if a then decide (n < m) else decide (m < n)
  | _, _ => false

/-- Element `i` of a format without scales, as stored. -/
def elemRaw (w : Nat) (x : Line) (i : Nat) : Nat := (x.toNat >>> (w * i)) % 2 ^ w

/-- Put element `i`. -/
def putElem (w : Nat) (x : Line) (i v : Nat) : Line :=
  (x &&& ~~~(BitVec.ofNat 512 ((2 ^ w - 1) <<< (w * i)))) ||| BitVec.ofNat 512 ((v % 2 ^ w) <<< (w * i))

/-- Stored bits of element `i` of an MX line: block bytes, then the element within the block (R190). -/
def mxRaw (g : FFmt) (x : Line) (i : Nat) : Nat :=
  let j := i / g.blk
  (x.toNat >>> (8 * (g.w * g.blk / 8 * j) + g.w * (i % g.blk))) % 2 ^ g.w

/-- Scale byte of block `j` (R190). -/
def mxScale (x : Line) (j : Nat) : Nat := (x.toNat >>> (8 * (48 + j))) % 256

/-- Exponent of the unit in which a format's values are held exactly: with the smallest scale for MX (R182). -/
def FFmt.unit (g : FFmt) : Int := if g.blk = 0 then g.lsb else g.lsb - 127

/-- Values of a line's elements, in units of `unit` (R190). -/
def FFmt.values (g : FFmt) (x : Line) : List FV :=
  if g.blk = 0 then (List.range (512 / g.w)).map fun i => g.decode (elemRaw g.w x i)
  else (List.range (g.blk * g.blocks)).map fun i =>
    let sc := mxScale x (i / g.blk)
    if sc = 255 then .nan
    else match g.decode (mxRaw g x i) with
      | .fin neg m => .fin neg (m <<< sc)
      | v => v

def FV.isFin : FV → Bool
  | .fin _ _ => true
  | _ => false

def FV.mag : FV → Nat
  | .fin _ m => m
  | _ => 0

/-- One MX block of results: (scale, elements, saturations) (R191). `rb i` the rounding bits of element `i`. -/
def mxBlock (g : FFmt) (rnd : Nat) (rb : Nat → Nat) (first : Nat) (vs : List FV) : Nat × List Nat × Nat :=
  let hasNan := decide (g.kind = FKind.ieee) || decide (g.kind = FKind.e4m3)
  if vs.any (fun v => !v.isFin) && !hasNan then (255, vs.map (fun _ => 0), 0)
  else
    let x := vs.foldl (fun a v => max a v.mag) 0
    let s : Int := if x = 0 then -127 else min 127 (max (-127) ((x.log2 : Int) + g.unit - g.emax))
    let es := (List.range vs.length).map fun i =>
      match vs.getD i .nan with
      | .nan => (g.nan, false)
      | .inf neg => if g.kind = FKind.ieee then (g.infCode neg, false) else (g.nan, false)
      | .fin neg n => if x = 0 then (0, false) else g.write rnd (rb (first + i)) (g.unit - s) (.fin neg n)
    ((s + 127).toNat, es.map (·.1), (es.filter (·.2)).length)

/-- Lay results out as a line: (line, saturations) (R180, R190, R191). -/
def FFmt.layLine (g : FFmt) (rnd : Nat) (rb : Nat → Nat) (old : Line) (sel : Nat → Bool) (vs : List FV) : Line × Nat :=
  if g.blk = 0 then
    ((List.range vs.length).foldl
      (fun acc i => if sel i then putElem g.w acc i (g.write rnd (rb i) g.lsb (vs.getD i .nan)).1 else acc) old, 0)
  else
    let bs := (List.range g.blocks).map fun j => mxBlock g rnd rb (j * g.blk) ((vs.drop (j * g.blk)).take g.blk)
    let body := (List.range (g.blk * g.blocks)).foldl
      (fun (acc : Nat) i =>
        let v := ((bs.getD (i / g.blk) (0, [], 0)).2.1).getD (i % g.blk) 0
        acc + v <<< (8 * (g.w * g.blk / 8 * (i / g.blk)) + g.w * (i % g.blk))) 0
    let scales := (List.range g.blocks).foldl (fun acc j => acc + (bs.getD j (0, [], 0)).1 <<< (8 * (48 + j))) 0
    (BitVec.ofNat 512 (body + scales), sumNat (bs.map (·.2.2)))

/-- An exact accumulator with its state (R182, R183). -/
inductive AccSt where
  | fin | pinf | ninf | nan
deriving DecidableEq, Repr

structure Acc where
  st : AccSt := .fin
  /-- W288, two's complement, in units of the format's smallest weight (R182). -/
  v : Int := 0
deriving DecidableEq, Repr

/-- Add one value to an accumulator: (accumulator, overflowed) (R183). -/
def Acc.add (a : Acc) (x : FV) : Acc × Bool :=
  match a.st, x with
  | .nan, _ => (a, false)
  | _, .nan => ({ a with st := .nan }, false)
  | .pinf, .inf true => ({ a with st := .nan }, false)
  | .ninf, .inf false => ({ a with st := .nan }, false)
  | _, .inf neg => ({ a with st := if neg then .ninf else .pinf }, false)
  | .fin, .fin neg m =>
    let v := if neg then a.v - m else a.v + m
    if v ≥ 2 ^ 287 || v < -(2 ^ 287) then ({ st := .nan, v := a.v }, true) else ({ a with v := v }, false)
  | _, .fin _ _ => (a, false)

/-- The value an accumulator holds, exactly (R185: an exact sum of zero is +0). -/
def Acc.value (a : Acc) : FV := match a.st with
  | .nan => .nan
  | .pinf => .inf false
  | .ninf => .inf true
  | .fin => .fin (decide (a.v < 0)) a.v.natAbs

/-- Signed value of a `w`-bit integer element (R179). -/
def sInt (w x : Nat) : Int := if x < 2 ^ (w - 1) then x else (x : Int) - 2 ^ w

/-- One integer element operation (R179); `none` where the operation is not an integer one. -/
def intOp (w op a b : Nat) : Nat :=
  if op = 1 then (a + b) % 2 ^ w
  else if op = 2 then (if sInt w b < sInt w a then b else a)
  else if op = 3 then (if sInt w a < sInt w b then b else a)
  else if op = 4 then a &&& b
  else if op = 5 then a ||| b
  else if op = 6 then a ^^^ b
  else b

/-- MIN or MAX of two stored elements of a float format (R180). -/
def floatMinMax (g : FFmt) (isMax : Bool) (a b : Nat) : Nat :=
  match g.decode a, g.decode b with
  | .nan, _ => g.nan
  | _, .nan => g.nan
  | x, y => if isMax then (if x.lt y then b else a) else (if y.lt x then b else a)

/-- Whether the byte mask selects element `i` whole, and whether it selects whole elements only (R176). -/
def maskSel (mask : BitVec 64) (eb i : Nat) : Bool := (List.range eb).all fun j => mask.getLsbD (eb * i + j)
def maskWhole (mask : BitVec 64) (eb n : Nat) : Bool :=
  (List.range n).all fun i =>
    maskSel mask eb i || (List.range eb).all fun j => !mask.getLsbD (eb * i + j)

/-- The combinations R175 to R178 allow; `addr` the target address, `srTag` the SR_TAG. -/
def plyValid (p : PlyWord) (addr : Nat) (mask : BitVec 64) (srTag : BitVec 64) : Bool :=
  let isInt := (intBits p.fmt).isSome
  let isF := (ffmt p.fmt).isSome
  let opOk :=
    if p.fetch then
      ((isInt && p.fmt != 1) || p.fmt == 2 || p.fmt == 3 || p.fmt == 4) &&
        (p.op == 1 || p.op == 2 || p.op == 3 || p.op == 7 || p.op == 8 ||
          (isInt && (p.op == 4 || p.op == 5 || p.op == 6)))
    else if isInt then decide (1 ≤ p.op) && decide (p.op ≤ 6)
    else if isMx p.fmt then p.op == 1
    else p.op == 1 || p.op == 2 || p.op == 3
  let exactOk := !p.exact || (p.op == 1 && (p.fmt == 3 || p.fmt == 4 || p.fmt == 5 || p.fmt == 6 || p.fmt == 7 ||
    p.fmt == 9 || p.fmt == 10 || p.fmt == 11 || p.fmt == 12))
  let rounds := isF && p.op == 1
  let rndOk := p.rnd != 3 && (p.rnd == 0 || rounds) && (p.rnd == 1 || p.srStep == 0) && (p.rnd == 1 || srTag == 0)
  let addrOk := if p.fetch then addr % elemBytes p.fmt == 0 else addr % 64 == 0
  let maskOk := p.fetch || (if isMx p.fmt then mask == fullMask else maskWhole mask (elemBytes p.fmt) (elemCount p.fmt))
  (isInt || isF) && opOk && exactOk && rndOk && addrOk && maskOk && p.rsvd == 0

/-- A direct-mode line reduction: (line, saturations) (R176, R179 to R181, R191). -/
def plyReduce (p : PlyWord) (rb : Nat → Nat) (mask : BitVec 64) (old opnd : Line) : Line × Nat :=
  match intBits p.fmt with
  | some w =>
    ((List.range (512 / w)).foldl (fun acc i =>
      if maskSel mask (w / 8) i then putElem w acc i (intOp w p.op (elemRaw w old i) (elemRaw w opnd i)) else acc) old, 0)
  | none => match ffmt p.fmt with
    | none => (old, 0)
    | some g =>
      if p.op = 1 then
        g.layLine p.rnd rb old (fun i => maskSel mask (g.w / 8) i)
          (List.zipWith FV.add (g.values old) (g.values opnd))
      else
        ((List.range (512 / g.w)).foldl (fun acc i =>
          if maskSel mask (g.w / 8) i then putElem g.w acc i (floatMinMax g (p.op == 3) (elemRaw g.w old i) (elemRaw g.w opnd i))
          else acc) old, 0)

/-- An atomic on the element at byte `off` of the line: (line, old element) (R176); the operand starts at DATA byte 0,
CAS's new value follows its compare value. -/
def plyAtomic (p : PlyWord) (rb : Nat → Nat) (off : Nat) (old opnd : Line) : Line × Nat :=
  let eb := elemBytes p.fmt
  let w := 8 * eb
  let i := off / eb
  let a := elemRaw w old i
  let b := elemRaw w opnd 0
  let v :=
    if p.op = 7 then b
    else if p.op = 8 then (if a = b then elemRaw w opnd 1 else a)
    else match intBits p.fmt with
      | some w => intOp w p.op a b
      | none => match ffmt p.fmt with
        | none => a
        | some g =>
          if p.op = 1 then (g.write p.rnd (rb i) g.lsb (FV.add (g.decode a) (g.decode b))).1
          else floatMinMax g (p.op == 3) a b
  (putElem w old i v, a)

/-- Open an exact accumulation from a line's value (R184). -/
def accOpen (fmt : Nat) (x : Line) : List Acc := match ffmt fmt with
  | none => []
  | some g => (g.values x).map fun v => (({} : Acc).add v).1

/-- Add an exact-mode operand to the selected elements: (accumulators, overflows) (R183, R184). -/
def accAdd (sel : Nat → Bool) (as : List Acc) (vs : List FV) : List Acc × Nat :=
  let rs := (List.range as.length).map fun i =>
    if sel i then (as.getD i {}).add (vs.getD i (.fin false 0)) else (as.getD i {}, false)
  (rs.map (·.1), (rs.filter (·.2)).length)

/-- The line an open accumulation reads and writes back as: (line, saturations) (R185, R191). -/
def accLine (fmt rnd : Nat) (rb : Nat → Nat) (as : List Acc) : Line × Nat := match ffmt fmt with
  | none => (0, 0)
  | some g => g.layLine rnd rb 0 (fun _ => true) (as.map Acc.value)

/-- Absorber entries an open line takes (R192). -/
def openEntries (fmt : Nat) : Nat := (elemCount fmt + 31) / 32

end Sys2Proof.Machine
end

