-- ==== Sys2Proof/Machine/Twist.lean ====
section
/-! DEFINITION. Placement zones, the device physical address map and the twist (05_twist_hanks_reel, R139 to R148). Choices marked
in the log: DESIGN CHOICE 133. -/

namespace Sys2Proof.Machine

/-- A placement zone as TWS_ZONEn names it (R139). -/
structure ZoneCfg where
  stackMask : Nat
  lanes : Nat
  eblocks : Nat
  dedicated : Bool
  enable : Bool
deriving DecidableEq, Repr

/-- The fields of a TWS_ZONEn value (R139). -/
def zoneOf (x : BitVec 64) : ZoneCfg :=
  { stackMask := bitField x 15 0, lanes := bitField x 31 16, eblocks := bitField x 39 32,
    dedicated := x.getLsbD 40, enable := x.getLsbD 41 }

/-- The lanes of a zone in ascending stack order, then ascending lane order (R145); a lane is 16 × stack + lane. -/
def ZoneCfg.laneList (z : ZoneCfg) : List Nat :=
  (bitsOf 16 z.stackMask).flatMap fun s => (bitsOf 16 z.lanes).map fun j => 16 * s + j

/-- A zone's place in the address map (R142, R143). -/
structure ZoneMap where
  zone : Nat
  dedicated : Bool
  lanes : List Nat
  /-- First hank of the slice. -/
  baseHank : Nat
  /-- Hanks in the slice. -/
  hanks : Nat
  eblocks : Nat
deriving DecidableEq, Repr

/-- The address map fixed at the ring enable. -/
structure Layout where
  /-- Installed capacity T in bytes. -/
  total : Nat := 0
  /-- Lines of one lane. -/
  laneLines : Nat := 0
  /-- Bytes of one ply of L2 to L4. -/
  up : Nat := 0
  zones : List ZoneMap := []
  /-- Ply lanes of the first and of the second ply (R148). -/
  plyLanes0 : List Nat := []
  plyLanes1 : List Nat := []
  /-- Boot carve-out: first hank and hank count (R127, R143). -/
  bootBase : Nat := 0
  bootHanks : Nat := 0
deriving DecidableEq, Repr

def GiB : Nat := 2 ^ 30
/-- 2 MiB (R149). -/
def hankBytes : Nat := 2 ^ 21

def Layout.macBase (l : Layout) : Nat := l.total - l.total / 8
def Layout.cbBase (l : Layout) : Nat := l.macBase - l.total / 64
def Layout.l1Base (l : Layout) : Nat := l.cbBase - l.total / 4096
def Layout.upBase (l : Layout) : Nat := l.l1Base - 2 * l.up
/-- Nodes of one ply. -/
def Layout.plyNodes (l : Layout) : Nat := l.up / 64

/-- Hanks of each enabled zone (R143): `kT` tenant lanes in all, `laneBytes` the capacity of a lane. -/
def sliceHanks (total up laneBytes kT : Nat) (z : ZoneCfg) : Nat :=
  if z.dedicated then 1024 + z.eblocks
  else (kT * laneBytes - (total / 8 + total / 64 + total / 4096 + 2 * up)) * z.laneList.length / kT / hankBytes

/-- Slices laid in zone-number order from address 0 (R142). -/
def sliceMaps (total up laneBytes kT : Nat) : Nat → List (Nat × ZoneCfg) → List ZoneMap
  | _, [] => []
  | base, (n, z) :: zs =>
    let h := sliceHanks total up laneBytes kT z
    { zone := n, dedicated := z.dedicated, lanes := z.laneList, baseHank := base, hanks := h, eblocks := z.eblocks }
      :: sliceMaps total up laneBytes kT (base + h) zs

/-- The map of a row with `gib` GiB per stack, its enabled zones and TWS_BOOT.STEPS (R142, R143, R127, R148). DESIGN CHOICE: the ply lanes
of a ply are numbered in ascending stack order, then ascending lane order, whatever their zones; the spec gives them no order. -/
def mkLayout (row : Config.Row) (gib steps : Nat) (zones : List (Nat × ZoneCfg)) : Layout :=
  let total := row.stackCount * gib * GiB
  let laneBytes := gib * GiB / 16
  let up := row.upKiB * 1024
  let tenant := zones.filter fun z => !z.2.dedicated
  let kT := sumNat (tenant.map fun z => z.2.laneList.length)
  let maps := sliceMaps total up laneBytes kT 0 zones
  let half := row.stackCount / 2
  let tl := tenant.flatMap fun z => z.2.laneList
  let sorted (p : Nat → Bool) := (List.range 256).filter fun x => p (x / 16) && tl.contains x
  let bh := (steps + 1) * 128
  let low := maps.find? fun m => !m.dedicated
  { total := total, laneLines := laneBytes / 64, up := up, zones := maps,
    plyLanes0 := sorted (fun s => s < half), plyLanes1 := sorted (fun s => half ≤ s),
    bootHanks := bh,
    bootBase := match low with
      | some m => m.baseHank + m.hanks - m.eblocks - bh
      | none => 0 }

/-- The parts of the carve-out that zones hold, in address order: the lines that serve one hank, and all the part's lines (R81, R106, R142).
L1 nodes, counter blocks, then the MAC lines of data, of L1 nodes, of counter blocks, and of MAC lines, which serve no hank. The plies and
their MAC lines lie elsewhere (R148). -/
def Layout.carveParts (l : Layout) : List (Nat × Nat) :=
  [(8, l.total / 4096 / 64), (512, l.total / 64 / 64), (4096, l.upBase / 512), (1, l.total / 4096 / 512), (64, l.total / 64 / 512),
    (0, l.total / 8 / 512)]

/-- A part's lines on a tenant zone: those that serve its slice, then its share of those that serve no tenant slice. DESIGN CHOICE: the
shares are in proportion to lanes and rounded down, and follow the zone's own lines of the part; the spec rounds and orders them nowhere
(R144). -/
def carveLines (l : Layout) (m : ZoneMap) (part : Nat × Nat) : Nat :=
  let ten := l.zones.filter fun z => !z.dedicated
  let free := part.2 - part.1 * sumNat (ten.map fun z => z.hanks)
  m.hanks * part.1 + free * m.lanes.length / sumNat (ten.map fun z => z.lanes.length)

/-- Number of a zone's first carve-out line of part `i`, counted in address order (R147); of part 6, all its carve-out lines. -/
def carveStart (l : Layout) (m : ZoneMap) (i : Nat) : Nat := sumNat ((l.carveParts.take i).map (carveLines l m))

/-- Plies of `n` nodes and their MAC lines that fall on ply lane `j` of `p` (R148). -/
def plyLinesOn (n p j : Nat) : Nat := (n - j + p - 1) / p + ((n + 7) / 8 - j + p - 1) / p

/-- The last check of R140: each lane holds its data lines, carve-out lines, plies and their MAC lines. The last window of carve-out lines
takes its whole footprint of 1,024 / k indices of each lane, wherever the permutation puts its lines (R146). -/
def zoneFits (l : Layout) (m : ZoneMap) : Bool :=
  let k := m.lanes.length
  if m.dedicated then decide (m.hanks * 32768 / k ≤ l.laneLines)
  else
    let base := m.hanks * 32768 / k + (carveStart l m 6 + 1023) / 1024 * (1024 / k)
    m.lanes.all fun ln =>
      let ply := match l.plyLanes0.idxOf? ln, l.plyLanes1.idxOf? ln with
        | some j, _ => plyLinesOn l.plyNodes l.plyLanes0.length j
        | none, some j => plyLinesOn l.plyNodes l.plyLanes1.length j
        | none, none => 0
      decide (base + ply ≤ l.laneLines)

/-- The zone checks of R140 and R520 in the order of their codes: (ERR_CODE, ERR_ZONE) of the first that fails. -/
def zoneCheck (row : Config.Row) (gib steps : Nat) (zones : List (Nat × ZoneCfg)) : Option (Nat × Nat) :=
  let pc (m : Nat) := (bitsOf 16 m).length
  let bad (p : Nat × ZoneCfg → Bool) (c : Nat) := (zones.find? p).map fun z => (c, z.1)
  let lay := mkLayout row gib steps zones
  let ten := zones.filter fun z => !z.2.dedicated
  let half := row.stackCount / 2
  let c1 := bad (fun z => !isPow2 (pc z.2.stackMask) || !isPow2 (pc z.2.lanes)) 1
  let c2 := bad (fun z => decide (z.2.laneList.length < 8) || decide (256 < z.2.laneList.length)) 2
  let c3 := bad (fun z => zones.any fun y => decide (y.1 < z.1) && y.2.laneList.any fun x => z.2.laneList.contains x) 3
  let c4 := bad (fun z => z.2.dedicated && zones.any fun y => decide (y.1 < z.1) && y.2.dedicated) 4
  let c5 := if sumNat (zones.map fun z => z.2.eblocks) = 128 then none else some (5, 0)
  let tl := ten.flatMap fun z => z.2.laneList
  let c6 := if tl.any (fun x => decide (x / 16 < half)) && tl.any (fun x => decide (half ≤ x / 16)) then none else some (6, 0)
  let c7 := match lay.zones.find? fun m => !m.dedicated with
    | some m => if m.hanks < m.eblocks + lay.bootHanks then some (7, m.zone) else none
    | none => none
  let c8 := (lay.zones.find? fun m => !zoneFits lay m).map fun m => (8, m.zone)
  c1.orElse fun _ => c2.orElse fun _ => c3.orElse fun _ => c4.orElse fun _ => c5.orElse fun _ =>
    c6.orElse fun _ => c7.orElse fun _ => c8

/-- mix of R145. -/
def mix (v : BitVec 64) : BitVec 64 :=
  let v := v ^^^ (v >>> 32)
  let v := v * 0xD6E8FEB86659FD93
  let v := v ^^^ (v >>> 32)
  let v := v * 0xD6E8FEB86659FD93
  v ^^^ (v >>> 32)

/-- The four rounds of the keyed permutation of a window's 1,024 lines (R145). -/
def twistRounds (tk : BitVec 64) (w : Nat) : Nat → Nat → Nat → Nat → Nat × Nat
  | 0, _, l, r => (l, r)
  | n + 1, i, l, r =>
    let f := (mix (tk ^^^ BitVec.ofNat 64 (w <<< 8) ^^^ BitVec.ofNat 64 (i <<< 5) ^^^ BitVec.ofNat 64 r)).toNat % 32
    twistRounds tk w n (i + 1) r (l ^^^ f)

/-- Lane number within the zone and line index within the lane of zone line number `n` on `k` lanes (R145). -/
def twistLine (tk : BitVec 64) (k n : Nat) : Nat × Nat :=
  let w := n / 1024
  let x := n % 1024
  let (l, r) := twistRounds tk w 4 0 (x / 32) (x % 32)
  let y := l * 32 + r
  (y % k, w * (1024 / k) + y / k)

/-- bank of a lane line index under KB (R145). -/
def bankOf (kb : BitVec 64) (ll : Nat) : Nat :=
  (ll % 32) ^^^ ((mix (kb ^^^ BitVec.ofNat 64 (ll / 32 % 2 ^ 21))).toNat % 32)

/-- row_col of a lane line index (R145). -/
def rowCol (ll : Nat) : Nat := ll / 32 % 2 ^ 21

/-- Physical place of a line: lane × 2^26 + line index within the lane. -/
def physKey (lane ll : Nat) : Nat := lane * 2 ^ 26 + ll

/-- The lane (16 × stack + lane) of a physical place. -/
def physLane (k : Nat) : Nat := k / 2 ^ 26

/-- The line index of a physical place. -/
def physLL (k : Nat) : Nat := k % 2 ^ 26

/-- The zone whose slice holds a hank. -/
def Layout.zoneOfHank (l : Layout) (h : Nat) : Option ZoneMap :=
  l.zones.find? fun m => decide (m.baseHank ≤ h) && decide (h < m.baseHank + m.hanks)

/-- Place of a data line of a slice under a twist key (R145). -/
def placeData (m : ZoneMap) (tk : BitVec 64) (addr : Nat) : Nat :=
  let n := (addr - m.baseHank * hankBytes) / 64
  let (j, ll) := twistLine tk m.lanes.length n
  physKey (m.lanes.getD j 0) ll

/-- Place of carve-out line number `n` of a zone under its metadata key (R147). -/
def placeCarve (m : ZoneMap) (mk : BitVec 64) (n : Nat) : Nat :=
  let k := m.lanes.length
  let (j, ll) := twistLine mk k n
  physKey (m.lanes.getD j 0) (m.hanks * 32768 / k + ll)

/-- Place of upper node `v` on ply `p` (R148). -/
def placePly (l : Layout) (p v : Nat) : Nat :=
  let ls := if p = 0 then l.plyLanes0 else l.plyLanes1
  physKey (ls.getD (v % ls.length) 0) (l.laneLines - 1 - v / ls.length)

/-- Place of MAC line `m` of ply `p` (R148). -/
def placePlyMac (l : Layout) (p m : Nat) : Nat :=
  let ls := if p = 0 then l.plyLanes0 else l.plyLanes1
  let j := m % ls.length
  physKey (ls.getD j 0) (l.laneLines - 1 - (l.plyNodes - j + ls.length - 1) / ls.length - m / ls.length)

/-- Tree levels: 0 counter blocks, 1 to 4 the nodes. Index of the ancestor at a level of the line at `addr`. -/
def nodeIdx (addr level : Nat) : Nat := addr / (4096 * 64 ^ level)

/-- Upper node number v of R148: L2 in index order, then L3, then L4. -/
def upperNo (l : Layout) (level idx : Nat) : Nat :=
  let n4 := l.plyNodes / 4161
  if level = 2 then idx else if level = 3 then 4096 * n4 + idx else 4096 * n4 + 64 * n4 + idx

/-- Canonical address of a counter block or node (R81, R142). -/
def nodeAddr (l : Layout) (level idx : Nat) : Nat :=
  if level = 0 then l.cbBase + 64 * idx
  else if level = 1 then l.l1Base + 64 * idx
  else l.upBase + 64 * upperNo l level idx

end Sys2Proof.Machine
end

