-- ==== Sys2Proof/Machine/StMemory.lean ====
section
/-! DEFINITION. State of memory: keys, regions, the tree and its cache, requests in flight, absorber, Reel (03 to 06). Choices
marked in the log: DEDUCED 90; DESIGN CHOICE 21, 31, 139. -/

namespace Sys2Proof.Machine

/-- States of a key-table entry (R305); an unlisted entry is FREE. -/
inductive KeySt where
  | valid | swapped | retiring
deriving DecidableEq, Repr

/-- A live key generation (R158, R306). -/
structure KeyGen where
  /-- W4. Number modulo 16 (R158). -/
  num : Nat
  /-- W256. Key material M_g (R299, R306). -/
  mat : Key
  /-- W256. Memory key derived from M_g (R306). -/
  key : Key
deriving DecidableEq, Repr

/-- A key-table entry (R305). -/
structure KeyEntry where
  st : KeySt
  skein : Nat
  cls : MemClass
  cur : Option KeyGen := none
  prev : Option KeyGen := none
  /-- W256. Rounding key Kr (R187, R306). -/
  kr : Key := 0
  /-- Region index of a class E key (R107). -/
  region : Nat := 0
  /-- Its entry or key slot was lost to a double-bit error, so that what names it fails with INTERNAL_ECC (R397). -/
  lost : Bool := false
deriving DecidableEq, Repr

/-- An epoch region (R107, R108, R112). -/
structure Region where
  keyId : Nat
  skein : Nat
  /-- ADVANCE, STROBE_DIV and MAC_EN (R108). -/
  adv : Nat
  strobeDiv : Nat
  macEn : Bool
  /-- W64. Epoch; 1 at installation (R112). -/
  epoch : BitVec 64 := 1
  /-- Strobe edges counted toward STROBE_DIV (R108). -/
  strobes : Nat := 0
  /-- Tick of the last advance (R112). -/
  lastAdv : Option Nat := none
  /-- EPOCH_REUSE raised in this epoch (R116). -/
  reuse : Bool := false
  /-- Its seal record has not been consumed (R135). -/
  seald : Bool := false
  /-- Queued rotations: descriptor, or none for the operator's, with the material a blob brought (R113). -/
  rots : List (Option Nat × Option Key) := []
  /-- Descriptor advances that wait for their microsecond; none for the operator's (R112). -/
  advs : List (Option Nat) := []
deriving DecidableEq, Repr

/-- The two bitmap words of a 16 KiB group with their tags (R114). -/
structure WordPair where
  tag0 : BitVec 16 := 0
  bits0 : BitVec 256 := 0
  tag1 : BitVec 16 := 0
  bits1 : BitVec 256 := 0
  /-- Words lost to a double-bit error, until the sweeper empties them (R397). -/
  bad0 : Bool := false
  bad1 : Bool := false
deriving DecidableEq, Repr

/-- Whose state an extent holds (R124, R280). -/
inductive ExtOwner where
  | members (skein : Nat)
  | swap (skein item : Nat)
  | fault (id : Nat)
  | spill (addr : Nat)
  | block (n : Nat)
deriving DecidableEq, Repr

/-- A spill of an absorber entry; entry `i` of a line has the line's address plus `i` (R194). -/
def ExtOwner.isSpill : ExtOwner → Bool
  | .spill _ => true
  | _ => false
/-- A spill of a line. -/
def ExtOwner.spillFor (line : Nat) : ExtOwner → Bool
  | .spill a => a / 64 * 64 == line
  | _ => false

/-- A class B extent (R123). -/
structure Extent where
  owner : ExtOwner
  /-- Device physical address of its first line. -/
  base : Nat
  lines : Nat
  /-- W64. Extent count (R123). -/
  count : BitVec 64
  /-- Its extent-table entry is lost to a double-bit error (R397). -/
  lost : Bool := false
deriving DecidableEq, Repr

/-- An entry of the bobbin cache (R87, R88). -/
structure Bob where
  data : Line
  dirty : Bool
  /-- Partition: a slot, or none for the upper region. -/
  part : Option Nat
  /-- Order of last use. -/
  use : Nat
deriving DecidableEq, Repr

/-- A quarantined range (R99, R102). -/
structure Quar where
  base : Nat
  size : Nat
  /-- Level of the failed node: 0 page, 1 L1, 2 to 4, 5 MAC line of data, 6 MAC line of metadata, 7 absorber entry. -/
  level : Nat
  /-- Fault record (R421). -/
  fault : Nat
deriving DecidableEq, Repr

/-- Where a memory request came from. -/
inductive Src where
  /-- A warp port: the RSP goes back to it with this tag (R479). -/
  | warp (port : Nat) (tag : BitVec 16)
  /-- Line `line` of an inbound weft or federation request (R221). -/
  | peer (inb : Nat) (line : Nat)
deriving DecidableEq, Repr

/-- What a memory request does. -/
inductive TxnKind where
  | read | write | ply
deriving DecidableEq, Repr

/-- Where a memory request stands. -/
inductive TxnPhase where
  /-- Behind an earlier request to its line, a held page or the Reel's window (R70, R93, R161). -/
  | blocked
  /-- Waiting for a metadata fetch (R89). -/
  | walk
  /-- Its data and MAC line are being read (R90). -/
  | data
  /-- Its writes await the memory controller (R480). -/
  | accept (left : Nat)
deriving DecidableEq, Repr

/-- A memory request in flight, with what R22 and R111 fixed for it at acceptance. -/
structure Txn where
  id : Nat
  src : Src
  kind : TxnKind
  skein : Nat
  slot : Nat
  keyId : Nat
  cls : MemClass
  /-- Line address. -/
  line : Nat
  /-- Byte address of the request. -/
  addr : Nat
  mask : BitVec 64
  data : Line
  word : PlyWord
  srTag : BitVec 64
  /-- Counter and step of the line when its read was issued. -/
  ctr : BitVec 64 × Nat := (0, 0)
  step : Nat := 0
  /-- Generation number, its key, and the twist key of the line (R22). -/
  gen : Nat
  key : Key
  tk : BitVec 64
  kr : Key
  /-- Class E: region, epoch and whether a bit was set (R111). -/
  region : Nat
  epoch : BitVec 64
  hasBit : Bool
  macEn : Bool
  /-- Fence of the skein's set to signal (R384). -/
  fence : Option Nat
  respond : Bool
  /-- Bucket identifiers (R459). -/
  layer : Nat := 0
  operator : Nat := 0
  phase : TxnPhase
deriving DecidableEq, Repr

/-- A line returned by a memory controller (R481). -/
structure Ret where
  data : Line
  ue : Bool
  ce : Bool
deriving DecidableEq, Repr

/-- What a pair of memory reads is for. -/
inductive FetchFor where
  | node (level idx ply : Nat)
  | txn (id : Nat)
deriving DecidableEq, Repr

/-- A read of a line with its MAC line (R90, R103). -/
structure Fetch where
  id : Nat
  purpose : FetchFor
  /-- Physical places of the line and of its MAC line. -/
  key : Nat
  macKey : Nat
  data : Option Ret := none
  /-- The MAC line returned, or the cached one that serves in its place. -/
  mac : Option Ret := none
  /-- The line or its MAC line was written meanwhile: a MAC line returned is not cached, and a node is fetched again. -/
  stale : Bool := false
  /-- The first ply failed with a MAC mismatch, not with an uncorrectable error alone (R103). -/
  mismatch : Bool := false
  /-- The first ply failed by an uncorrectable error of its MAC line (R99). -/
  macUe : Bool := false
deriving DecidableEq, Repr

/-- An outstanding MREQ read (R481). -/
structure MRead where
  /-- Physical place; its lane is the read's lane. -/
  key : Nat
  /-- MTAG; 256 while no tag of the lane is free. -/
  mtag : Nat
  fetch : Nat
  isMac : Bool
deriving DecidableEq, Repr

/-- What an unaccepted memory write belongs to. -/
inductive WFor where
  | txn (id : Nat)
  | page (p : Nat)
  /-- A request's own line in the re-encryption of its page. -/
  | own (id p : Nat)
  | none
deriving DecidableEq, Repr

/-- A write the memory controller has not acknowledged (R482), oldest first. -/
structure MWrite where
  /-- Physical place; its lane is the write's lane. -/
  key : Nat
  purpose : WFor
  /-- Class E line in plaintext, to answer reads from (R119). -/
  plain : Option (Nat × Line)
deriving DecidableEq, Repr

/-- An absorber entry (R192). -/
structure AbsEntry where
  line : Nat
  skein : Nat
  keyId : Nat
  data : Line
  dirty : Bool
  /-- Tick at which its window closes, while one is open (R193). -/
  closeAt : Option Nat
  /-- Changed since the window before (R193). -/
  idle : Bool
  /-- Open accumulation: FMT, RND, SR_TAG, SR_STEP and the accumulators (R184). -/
  acc : Option (Nat × Nat × BitVec 64 × Nat × List Acc)
  /-- Accumulators are in a spill extent with this count (R194). -/
  spilled : Bool
  use : Nat
deriving DecidableEq, Repr

/-- An outcome in a high-water history: a cancellation, or a fetch result (R200). -/
structure HwHist where
  seq : BitVec 64
  value : Option (BitVec 64)
deriving DecidableEq, Repr

/-- A high-water entry (R200). -/
structure HwEntry where
  bind : BitVec 16 := 0
  skein : Option Nat := none
  hwm : BitVec 64 := 0
  hist : List HwHist := []
  /-- Lost to a double-bit error (R206). -/
  lost : Bool := false
deriving DecidableEq, Repr

/-- A queued or running change of the Reel (R156, R157). -/
inductive RChange where
  | rotate (keyId : Nat) (desc : Option Nat)
  | retwist (zone rate : Nat) (desc : Option Nat)
deriving DecidableEq, Repr

/-- A queued place of the Reel; a deferred rotation carries the material a blob brought (R157, R159). -/
structure RQueue where
  change : RChange
  deferred : Bool
  mat : Option Key
deriving DecidableEq, Repr

/-- The Reel's buffered copy of a line (R161). -/
inductive Moved where
  /-- Class S plaintext, to be enciphered anew. -/
  | plain (x : Line)
  /-- Stored ciphertext, moved as stored (R156, R164). -/
  | stored (x : Line)
deriving DecidableEq, Repr

/-- The Reel (R156 to R166, R525). -/
structure Reel where
  /-- Changes of the running pass; empty: none runs. -/
  pass : List RChange := []
  /-- Reel mark: addresses below it are behind (R160). -/
  mark : Nat := 0
  /-- Window held, by base address (R161). -/
  taken : Option Nat := none
  /-- Up to 64 queued (R157). -/
  queue : List RQueue := []
  /-- Rate of the running pass in GB/s (R166). -/
  rate : Nat := 0
  /-- New twist keys of zones being retwisted (R147). -/
  newTk : List (Nat × BitVec 64) := []
  /-- Requests accepted from this number on came after the take (R161). -/
  takenId : Nat := 0
  /-- Windows that have been read, the one held among them, and the copies of their lines by address (R161). -/
  ahead : List Nat := []
  copies : List (Nat × Moved) := []
  /-- Hanks that take a step with a pass, and the hank mark: addresses below it have the new step (R160, R163). -/
  steps : List (Nat × Nat) := []
  /-- Keys retired since the window was taken; their changes leave at its boundary (R165). -/
  drops : List (Nat × BitVec 8) := []
  passes : Nat := 0
deriving DecidableEq, Repr

/-- Memory side of the block. -/
structure Mem where
  /-- What the memory stacks were last written, by physical place; unlisted lines are 64 zero bytes. -/
  cells : List (Nat × Line) := []
  lay : Layout := {}
  /-- Key table, IDs 0x001 to 0xFBF (R304, R305). -/
  keys : List (Nat × KeyEntry) := []
  /-- Hank records (R149). -/
  hanks : List (Nat × Hank) := []
  /-- Zone twist keys TK, metadata keys MK, bank key KB (R147). -/
  tk : List (Nat × BitVec 64) := []
  mkKeys : List (Nat × BitVec 64) := []
  /-- W64. -/
  kb : BitVec 64 := 0
  /-- W256. Ktree (R82). -/
  ktree : Key := 0
  /-- W256. Class B memory key (R122). -/
  kbKey : Key := 0
  /-- Root entries, unlisted zero (R82, R84). -/
  roots : List (Nat × BitVec 64) := []
  /-- Root words lost to a double-bit error, of four entries each (R84, R105). -/
  badRoots : List Nat := []
  /-- Bobbin cache by level and index; level 5 is a MAC line (R87). -/
  bob : List (Nat × Bob) := []
  useCount : Nat := 0
  quar : List Quar := []
  /-- Epoch regions by index (R107). -/
  regions : List (Nat × Region) := []
  /-- Bitmap words by 16 KiB group address / 16 KiB (R114). -/
  words : List (Nat × WordPair) := []
  /-- Epoch MAC blocks in use, by block number (R110). -/
  eblocks : List Nat := []
  /-- W64. Distaff line counter, next value; starts at 1 (R123). -/
  lineCtr : BitVec 64 := 1
  extents : List Extent := []
  txns : List Txn := []
  fetches : List Fetch := []
  reads : List MRead := []
  writes : List MWrite := []
  nextId : Nat := 0
  abs : List AbsEntry := []
  /-- High-water entries by requester ID (R200). -/
  hw : List (Nat × HwEntry) := []
  reel : Reel := {}
  /-- Skew counts by zone, and the tick at which the interval began (R167). -/
  skew : List (Nat × Nat) := []
  skewSince : Nat := 0
  /-- Order numbers for zeroing (R525). -/
  zorder : Nat := 0
  /-- Bitmap sweeper and ECC sweep positions (R115, R395). -/
  sweepAt : Nat := 0
  /-- Lines done for inbound peer requests: request, line, status and data (R221). -/
  peerDone : List (Nat × Nat × BitVec 8 × Line) := []
deriving DecidableEq, Repr

/-- A unit waiting for a spindle, in its queue, or on a whorl (R39). -/
structure WUnit where
  id : Nat
  /-- W64. Ledger entry it will leave (R64). -/
  entry : BitVec 64
  /-- Key ID that its home spindles are drawn from (R40). -/
  keyId : Nat
  /-- Skein slot, or 64 for a unit of no resident skein. -/
  slot : Nat
  /-- Precedence tier (R49). -/
  tier : Nat
  blocks : Nat
  slotUnit : Bool
  /-- Every block is re-spun (R60). -/
  forced : Bool := false
  /-- The spindle it was stolen from (R42, R46). -/
  home : Option Nat := none
deriving DecidableEq, Repr

/-- A unit on a whorl, and the tick at which it started. -/
structure Run where
  whorl : Nat
  unit : WUnit
  since : Nat
deriving DecidableEq, Repr

/-- A block whose check by another whorl is under way (R59, R61); a field test's blocks on one pair of whorls stand together. -/
structure Check where
  producer : Nat
  checker : Nat
  /-- W64. Ledger entry of the block's unit. -/
  entry : BitVec 64
  /-- Tick of its issue. -/
  since : Nat
  blocks : Nat := 1
deriving DecidableEq, Repr

/-- A whorl or spindle in its reset (R403, R405). -/
structure UReset where
  index : Nat
  since : Nat
  /-- Ledger entries of the units replayed (R423). -/
  replayed : List (BitVec 64) := []
deriving DecidableEq, Repr

/-- A suspect sweep under way (R400 to R402), with what its fault record will say. -/
structure Sweep where
  kind : Nat
  whorl : Nat
  /-- Producer, checker, third whorl and CAUGHT of KIND 0x01. -/
  producer : Nat := 0
  checker : Nat := 0
  third : Nat := 0
  caught : Nat := 0
  /-- The suspect set, and the units replayed. -/
  entries : List (BitVec 64)
  replayed : List (BitVec 64)
  /-- A ledger word was lost (R397). -/
  incomplete : Bool
  /-- Slots whose units were replayed or are suspect. -/
  slots : Nat
deriving DecidableEq, Repr

/-- The whorl array (02, 13). -/
structure Whorls where
  /-- Retired whorls and fenced spindles, in distaff retention (R66). -/
  retired : List Nat := []
  fenced : List Nat := []
  /-- Adopted whorls, most recent first (R47). -/
  adopted : List Nat := []
  /-- The 64-adoption and service-threshold attentions are armed again once the count recovers (R48, R68). -/
  adoptHigh : Bool := false
  svcLow : Bool := false
  /-- Spindle queues, oldest first (R41). -/
  queues : List (Nat × List WUnit) := []
  /-- Ledgers by whorl, newest first, at most 4,096 entries (R63). -/
  ledgers : List (Nat × List (BitVec 64)) := []
  /-- Units on the whorls (R403). -/
  running : List Run := []
  /-- Units whose consumers wait at their submission point, oldest first (R41). -/
  waiting : List WUnit := []
  /-- Discarded units that wait for their skein's turn to be replayed (R400). -/
  replays : List WUnit := []
  /-- Deficit of each skein slot at each spindle's arbiter, and the slot that it serves (R52). -/
  deficits : List (Nat × List (Nat × Nat)) := []
  turns : List (Nat × Nat) := []
  /-- Tiers that the last tick left with waiting units (R49, R53, R54). -/
  unmet : List Nat := []
  /-- W256. Seed of the re-spin DRBG, and its next output (R59). -/
  drbg : Key := 0
  drbgNext : Nat := 0
  /-- Checks under way, oldest first, and the check blocks that the array has computed (R59 to R61, R455). -/
  checks : List Check := []
  checked : Nat := 0
  /-- Whorls out of service for a field test (R419). -/
  testing : List Nat := []
  /-- The array's own choices so far (free values). -/
  picks : Nat := 0
  /-- Spindles that start no unit although they could, and since which tick (R405). -/
  stillSince : List (Nat × Nat) := []
  /-- W64. Key of the home-candidate hash (R40). -/
  hashKey : BitVec 64 := 0
  /-- Whorls whose ledger has lost a word (R397). -/
  badLedgers : List Nat := []
  /-- Tick of each whorl's last hang (R403). -/
  lastHang : List (Nat × Nat) := []
  resetWhorls : List UReset := []
  resetSpindles : List UReset := []
  /-- Isolating a spindle for a fence (R408). -/
  isolating : List UReset := []
  /-- Direction of the next steal request of a spindle (R42). -/
  stealUp : List Nat := []
  /-- Suspect sweeps under way, oldest first (R400 to R402). -/
  sweeps : List Sweep := []
deriving DecidableEq, Repr

end Sys2Proof.Machine
end

