-- ==== Sys2Proof/Machine/StRegs.lean ====
section
/-! DEFINITION. The set-up registers with storage of their own (17_setup_registers, R506). The others read other state. -/

namespace Sys2Proof.Machine

/-- Set-up registers held as written or loaded; their reset is a block reset but for SPL_DUMP (R504). -/
structure Regs where
  /-- W64 ×4. CFG_SIZES0 to 3, loaded at START; reset 0 (R508). -/
  sizes0 : BitVec 64 := 0
  sizes1 : BitVec 64 := 0
  sizes2 : BitVec 64 := 0
  sizes3 : BitVec 64 := 0
  /-- W2. DIE_INDEX as sampled; reset 0 (R509). -/
  dieIndex : Nat := 0
  /-- W3. PKG_DIES as used, 0 until sampled (R509). -/
  pkgDies : Nat := 0
  /-- W1. LEADER; reset 0 (R509). -/
  leader : Bool := false
  /-- W7. I3C_SA strap; reset 0 (R509). -/
  i3cSa : Nat := 0
  /-- W128. DST_DEVICE_ID; reset 0 (R510). -/
  deviceId : BitVec 128 := 0
  /-- W128. LCS_SERIAL; reset 0 (R510). -/
  serial : BitVec 128 := 0
  /-- W64. LCS_STATE; reset 0 (R515). -/
  lcsState : BitVec 64 := 0
  /-- W32. LCS_LOCK_STATE; reset 0 (R515). -/
  lockState : BitVec 32 := 0
  /-- W32. LCS_GATE; reset 0 (R516). -/
  lcsGate : BitVec 32 := 0
  /-- W32. DST_STATUS; reset 0 (R513). -/
  dstStatus : BitVec 32 := 0
  /-- W64. DST_FW_LOAD; reset 0 (R514). -/
  fwLoad : BitVec 64 := 0
  /-- W64 ×16. CFG_ZONE readback; reset 0 (R511). -/
  cfgZone : List (Nat × BitVec 64) := []
  /-- W64. CFG_BOOT readback; reset 0 (R511). -/
  cfgBoot : BitVec 64 := 0
  /-- W32. FED_STATUS; reset 0 (R512). -/
  fedStatus : BitVec 32 := 0
  /-- W1. CMD_RING_CTRL.ENABLE; reset 0 (R362). -/
  ringEnable : Bool := false
  /-- W1. CMD_RING_CTRL.LOCK; reset 0 (R362). -/
  ringLock : Bool := false
  /-- W64. FLT_LOG; reset 0 (R424). -/
  fltLog : BitVec 64 := 0
  /-- W64 ×16. TWS_ZONE0 to 15, unlisted 0; loaded at START (R139). -/
  twsZone : List (Nat × BitVec 64) := []
  /-- W1. TWS_LOCK.ZONES; reset 0 (R519). -/
  lockZones : Bool := false
  /-- W1. TWS_LOCK.BOOT; reset 0 (R519). -/
  lockBoot : Bool := false
  /-- W32. TWS_STATUS; reset 0 (R520). -/
  twsStatus : BitVec 32 := 0
  /-- W32. TWS_MEM; reset 64 (R517). -/
  twsMem : BitVec 32 := 64
  /-- W32. TWS_BOOT; reset 31 (R518). -/
  twsBoot : BitVec 32 := 31
  /-- W32. TWS_SKEW; reset HOT 230, RATIO 2, COUNT 8,192 (R167). -/
  twsSkew : BitVec 32 := 0x200002E6
  /-- TWS_SKEW as it stood when the current interval began (R167, R523). -/
  skewNow : BitVec 32 := 0x200002E6
  /-- W64. SKN_SCHED; reset ALL_BLOCKED 1, BLOCK_TICKS 1,000, HOLD_TICKS 10,000 (R287). -/
  sknSched : BitVec 64 := 0x0000271003E80001
  /-- W32. SKN_DRAIN; reset 5,000 (Skeins, teardown). -/
  sknDrain : BitVec 32 := 5000
  /-- W32. WFT_TIMEOUT; reset REQ_TICKS 1,000, LOSS_MULT 16 (R223). -/
  wftTimeout : BitVec 32 := 0x001003E8
  /-- W32. PLY_WINDOW; reset 1 (R521). -/
  plyWindow : BitVec 32 := 1
  /-- W32. REEL_ROT_RATE; loaded at START; reset 0 (R522). -/
  reelRotRate : BitVec 32 := 0
  /-- W32. FLT_CARDER; reset ENABLE 1, RATE 100, PERIOD 3,600 (R411). -/
  fltCarder : BitVec 32 := 0x0E106401
  /-- W64. PWR_REFUSE_COUNT; reset 0 (R439). -/
  refuseCount : BitVec 64 := 0
  /-- W32. PWR_LAST_REFUSER; reset 0 (R439). -/
  lastRefuser : BitVec 32 := 0
  /-- W32. TIM_CTRL; reset TOD_EN 1, PPS_EN 1, LOCK_TOL 10 (R448). -/
  timCtrl : BitVec 32 := 0x00000A03
  /-- W32. TIM_STROBE; reset MIN_US 20, EXPECT_US 0 (R448). -/
  timStrobe : BitVec 32 := 20
  /-- W64. TIM_ALARM; reset 0 (R448). -/
  timAlarm : BitVec 64 := 0
  /-- W64. TEL_SNAP; reset 0 (R460). -/
  telSnap : BitVec 64 := 0
  /-- W64. SPL_CTRL; reset STREAMS 0x7FFF, LOW 0x7000, PRE 2, POST 2, TRIG_ACLASS 0x18, POST_MS 100 (R468). -/
  splCtrl : BitVec 64 := 0x0190182270007FFF
  /-- W64. SPL_DUMP, in distaff retention; first-start reset 0 (R504). -/
  splDump : BitVec 64 := 0
  /-- W16. KEY_LADDER_LOCK.MGR_WAIT_MAX; reset 0 (R310). -/
  mgrWaitMax : Nat := 0
  /-- Latched high halves of TIM_NOW and PWR_REFUSE_COUNT; reset none (R503). -/
  latchNow : Option (BitVec 32) := none
  latchRefuse : Option (BitVec 32) := none
deriving DecidableEq, Repr

/-- A standing check left by PLY_CHECK (R414). -/
structure Standing where
  ring : Ring
  /-- The PLY_CHECK descriptor, with BASE_A, BASE_B, LENGTH and PERIOD. -/
  raw : Line
  index : BitVec 16
  hanks : List Nat
  /-- Tick of its next comparison. -/
  due : Nat
deriving DecidableEq, Repr

/-- Power states (R433); SLACK is ACTIVE with no unit holding work. -/
inductive PState where
  | active | rest | off
deriving DecidableEq, Repr

/-- Supplies and power (14, R426 to R439). -/
structure Power where
  st : PState := .active
  /-- The two supply detectors; PWR_STATUS.MAIN_GOOD and BACKUP_GOOD (R426). -/
  mainGood : Bool := true
  backupGood : Bool := true
  /-- Drawing from VAO_BACKUP; also the SWITCHOVER output (R427). -/
  onBackup : Bool := false
  /-- REQ of an entry under way (R435). -/
  entry : Option Nat := none
  /-- PWR_STATUS.LAST_START (R439). -/
  lastStart : Nat := 0
  /-- OFF_READY and WAKE_REQ outputs (R438). -/
  offReady : Bool := false
  wakeReq : Bool := false
  /-- Core supply present (R430). -/
  coreOn : Bool := true
  /-- Accesses held by the control port's synchroniser (R436). -/
  heldAcc : List Instr := []
  /-- Attentions of the distaff's own events, as (class, OBJECT), to raise once the datapath is served again (R430, R432). -/
  heldEv : List (Nat × Nat) := []
  /-- LAST_START of the start to come, where an edge has fixed it (R439). -/
  nextStart : Option Nat := none
  /-- The PWR_STATUS dash fields have been loaded at this start (R15). -/
  loaded : Bool := false
deriving DecidableEq, Repr

/-- Time (14, R441 to R447). -/
structure Tim where
  /-- W64. T in nanoseconds (R441). -/
  t : BitVec 64 := 0
  /-- W2. Quality (R442); reset 0b00. -/
  quality : Nat := 0
  /-- A locked value has been taken since the start (R442). -/
  everLocked : Bool := false
  /-- Substitute edges are being issued (R443); reset 0. -/
  substitute : Bool := false
  strobeMissing : Bool := false
  /-- W16. GAPS, saturating (R448); reset 0. -/
  gaps : Nat := 0
  /-- Tick of the last accepted strobe edge (R446). -/
  lastStrobe : Option Nat := none
  /-- Tick from which the missing-strobe interval counts (R446). -/
  strobeFrom : Nat := 0
  /-- PPS disagreements counted (R444). -/
  disagree : Nat := 0
  /-- Tick at which the time-of-day bus was last seen with a value (R442). -/
  busAt : Nat := 0
  /-- Tick of the last PPS edge that agreed, while it counts (R442). -/
  ppsAt : Option Nat := none
deriving DecidableEq, Repr

/-- The key ladder engine (R309, R310). -/
structure Ladder where
  /-- W2. OWNER; reset 0. -/
  owner : Nat := 0
  /-- Descriptors whose key step waits for the security firmware's turn, oldest first (FW_WAIT). -/
  fwWait : List Nat := []
  /-- Swap steps waiting, each with the tick from which it waits; oldest first. -/
  mgrWait : List (Nat × Nat) := []
  /-- The last grant went to the manager (R310). -/
  lastMgr : Bool := false
deriving DecidableEq, Repr

end Sys2Proof.Machine
end

