-- ==== Sys2Proof/Machine/StServices.lean ====
section
/-! DEFINITION. State of the key and AEAD services, the seal engine and the entropy source (04, 10). -/

namespace Sys2Proof.Machine

/-- The context of an open IMPORT or EXPORT message, from which it resumes where it was suspended (R55, R57). -/
structure AeadMsg where
  /-- Its descriptor: the lower was accepted earlier. -/
  desc : Nat
  skein : Nat
  /-- Urgency level (R56). -/
  level : Nat
  /-- An EXPORT. -/
  toHost : Bool
  /-- W256. Its AES-256-GCM key, kept past a retirement of the transfer key (R318), and its IV. -/
  key : Key
  iv : Bytes
  /-- Its 16-B blocks, and those done: the next counter block is number `pos + 2`. -/
  blocks : Nat
  pos : Nat := 0
  /-- W128. GHASH accumulator, and the bytes of AAD that it began with. -/
  acc : BitVec 128
  aad : Nat
  /-- Plaintext of the line under way. -/
  line : Line := 0
  /-- Device address of the range, and for an EXPORT the host address of its ciphertext. -/
  addr : Nat
  host : Nat := 0
  /-- Bytes moved whole, and the status that stopped it. -/
  moved : Nat := 0
  status : BitVec 8 := 0
deriving DecidableEq, Repr

/-- Where a seal stands (R128 to R130). -/
inductive SealSt where
  /-- Armed: waits for a FIRE. -/
  | armed
  /-- Fired: waits for its fire time; the FIRE's descriptor and the time. -/
  | fired (fire : Nat) (time : BitVec 64)
  /-- Its lines are written; the record is still to come. -/
  | moving (fire : Nat) (stamp : BitVec 64) (quality : Nat)
deriving DecidableEq, Repr

/-- A seal (R128). -/
structure Seal where
  desc : Nat
  skein : Nat
  keyId : Nat
  /-- Scratchpad byte address and lines of its range. -/
  base : Nat
  lines : Nat
  /-- Resume fence and the value at which SEAL_IN signals it. -/
  fence : Nat
  value : Nat
  st : SealSt := .armed
deriving DecidableEq, Repr

/-- What SEAL_IN signals for a region whose seal has not been consumed: resume fence and value (R128, R136). -/
structure Resume where
  region : Nat
  /-- Data lines of the seal. -/
  lines : Nat
  fence : Nat
  value : Nat
deriving DecidableEq, Repr

/-- The entropy source (R302, R303). -/
structure Trng where
  /-- Consecutive conditioning blocks discarded. -/
  discards : Nat := 0
  /-- Tick at which output stopped, while it is stopped. -/
  stopped : Option Nat := none
  /-- Generate calls and tick at the DRBG's last reseed. -/
  reseedDraws : Nat := 0
  reseedTick : Nat := 0
  /-- Reseeds since the start. -/
  reseeds : Nat := 0
deriving DecidableEq, Repr

/-- A pending exchange of PQ_START (R311 to R313). -/
structure PendTpk where
  tpk : Key
  provisioner : Digest
  th : Digest
  /-- Path × 2^32 + session ID of the requester. -/
  session : Nat
  rekey : Bool
  /-- Tick of PQ_START. -/
  since : Nat
deriving DecidableEq, Repr

/-- A spool record (R464). -/
structure SpoolRec where
  /-- KIND and STREAM. -/
  kind : Nat
  stream : Nat
  /-- OWNER: a defined skein, or 0x3FF for the block. -/
  owner : Nat
  quality : Nat
  stamp : BitVec 64
  /-- W128. DATA. -/
  data : BitVec 128
deriving DecidableEq, Repr

/-- What a stream has lost since its last gap record: the count and the first lost record's stamp (R468). -/
structure SpoolLoss where
  stream : Nat
  lost : Nat
  first : BitVec 64
deriving DecidableEq, Repr

/-- The pinned window (R466 to R468). -/
structure Window where
  trigger : SpoolRec
  /-- SOURCE: 1 mark, 2 attention, 3 operator, 4 block reset (R469). -/
  source : Nat
  /-- Pinned history and post-trigger records, newest first. -/
  pre : List SpoolRec
  post : List SpoolRec := []
  /-- P, records of the post part. -/
  size : Nat
  /-- Up to 64 gap records, newest first. -/
  gaps : List SpoolRec := []
  /-- Records that a stream's group still loses, the streams whose gap record waits for their group's end, and each stream's losses
  since its last gap record. -/
  skip : List (Nat × Nat) := []
  owed : List Nat := []
  losses : List SpoolLoss := []
  /-- Tick of the trigger, and ticks that the post part may take, as POST_MS then stood; 0: no limit (R466, R523). -/
  since : Nat
  limit : Nat
  closed : Bool := false
  /-- A block reset edge has made it the hang dump, to be written as an image of KIND 2 (R471, R472). -/
  dump : Bool := false
deriving DecidableEq, Repr

/-- The spool (R464 to R470). -/
structure Spool where
  /-- The circular history, newest first. -/
  hist : List SpoolRec := []
  window : Option Window := none
  /-- Records accepted in the current tick: tick and count (R465). -/
  rate : Nat × Nat := (0, 0)
  /-- W32. IMAGE_ID of the last image; reset 0 (R469). -/
  imageId : Nat := 0
  /-- The last image, as JTAG reads it (R496). -/
  image : Bytes := []
  /-- Memory requests and ply operations counted for their 1-in-1,024 samples. -/
  memCount : Nat := 0
  /-- Losses to the capture rate that no gap record has told yet, while no window is open (R468). -/
  lost : List SpoolLoss := []
  plyCount : Nat := 0
deriving DecidableEq, Repr

/-- A distaff dump slot: skein, export key, R_inst and next export counter (R471). -/
structure DumpSlot where
  skein : Nat
  key : Key
  rInst : BitVec 128
  exportN : BitVec 64
deriving DecidableEq, Repr

/-- A monitor (R461, R462). -/
structure Monitor where
  probe : Nat := 0
  index : Nat := 0
  count : Nat := 0
  sum : Nat := 0
  /-- MIN; 0xFFFF_FFFF while COUNT is 0. -/
  least : Nat := 0xFFFFFFFF
  /-- MAX. -/
  most : Nat := 0
  /-- Bins not zero, by number. -/
  bins : List (Nat × Nat) := []
deriving DecidableEq, Repr

/-- Telemetry (15). -/
structure Telemetry where
  spool : Spool := {}
  /-- The 48 monitors; the unlisted ones measure nothing. Monitors 0 to 3 are fixed (R462). -/
  monitors : List (Nat × Monitor) := [(0, { probe := 1 }), (1, { probe := 2 }), (2, { probe := 3 }), (3, { probe := 4 })]
  /-- The model's own count of probe samples (free values). -/
  samples : Nat := 0
  /-- W3. Policy flags: MGR_GLOBAL, MGR_MONITORS, RELEASE_SLOT_CLASS; in distaff retention; reset 0 (R452, R453). -/
  policy : Nat := 0
  dumpSlots : List DumpSlot := []
  /-- Tick at which the dump slots are erased in any case (R472). -/
  dumpErase : Option Nat := none
  /-- Tick of the last snapshot (R460). -/
  lastSnap : Nat := 0
deriving DecidableEq, Repr

/-- Services of the key and AEAD chapters. -/
structure Services where
  aead : List AeadMsg := []
  seals : List Seal := []
  resumes : List Resume := []
  trng : Trng := {}
  /-- Pending TPKs by skein (R312). -/
  tpks : List (Nat × PendTpk) := []
  /-- SLOT_MEMBERS under assembly: the entries received, as bytes, and TOTAL (R319). -/
  slotList : Option (Bytes × Nat) := none
deriving DecidableEq, Repr

end Sys2Proof.Machine
end

