-- ==== Sys2Proof/Machine/StHost.lean ====
section
/-! DEFINITION. State of the host ports, the management paths and the fronthaul streams (08_standard_ports). Choices marked in the
log: DESIGN CHOICE 73; PRESUMED 18. -/

namespace Sys2Proof.Machine

/-- A DMA transfer's path (R484): host port; stream 0 to 63 selective, 64 link, 127 none; the T bit. -/
structure DmaPath where
  port : Nat
  stream : Nat
  t : Bool
deriving DecidableEq, Repr

/-- A key set of an IDE sub-stream (R241). -/
structure IdeSet where
  key : Key
  /-- W64. Invocation counter of the next TLP (R242). -/
  ctr : BitVec 64
  /-- K_SET_GO has been given for it. -/
  started : Bool := false
deriving DecidableEq, Repr

/-- An IDE stream of a host port (R239): key sets by 6 × direction + 2 × sub-stream + set, direction 0 receive. -/
structure IdeStream where
  secure : Bool := false
  sets : List (Nat × IdeSet) := []
  /-- Set that each transmit sub-stream uses (R241). -/
  txSet : List (Nat × Nat) := []
  /-- Received TLPs dropped (R242). -/
  drops : Nat := 0
deriving DecidableEq, Repr

/-- A host port (R238). -/
structure HostPort where
  /-- LINK_UP and FLIT_MODE (R483); reset: down, Flit Mode. -/
  linkUp : Bool := false
  flit : Bool := true
  /-- Streams by index: 0 to 63 selective, 64 the link stream. -/
  streams : List (Nat × IdeStream) := []
  /-- The IDE Extended Capability's written registers, by function × 4,096 + offset (R239). -/
  cap : List (Nat × BitVec 32) := []
deriving DecidableEq, Repr

/-- A management path (R250, R251): 0 I3C, 1 + h host port h. -/
structure MgmtPath where
  /-- W8. Endpoint ID; reset 0. -/
  eid : Nat := 0
  /-- How far the SPDM connection has been negotiated: 1 version, 2 capabilities, 3 algorithms. -/
  stage : Nat := 0
  /-- W32. Flags of the requester's GET_CAPABILITIES. -/
  reqCaps : Nat := 0
  /-- Exchanges GET_VERSION to ALGORITHMS, those of certificates, and those of measurements outside any session. -/
  vca : Bytes := []
  certs : Bytes := []
  meas : Bytes := []
  /-- Transcript hash of the last signed response outside any session (R335). -/
  signed : Option Digest := none
deriving DecidableEq, Repr

/-- An SPDM secured session (R256). -/
structure SpdmSess where
  /-- W32. Session ID. -/
  id : BitVec 32
  path : Nat
  /-- FINISH has completed it. -/
  live : Bool := false
  /-- The requester has authenticated, and under the operator root on I3C (R257). -/
  authd : Bool := false
  operator : Bool := false
  /-- The requester must authenticate before FINISH. -/
  mustAuth : Bool := false
  /-- The requester's certificate chain as received so far, and what the encapsulated flow awaits: 0 none, 1 digests, 2 chain. -/
  chain : Bytes := []
  encap : Nat := 0
  /-- Request ID of the last encapsulated request, and the digest that the requester gave for its chain. -/
  encapId : Nat := 0
  reqDigest : Bytes := []
  /-- W384. Digest of that chain (R240). -/
  chainDigest : Digest := 0
  /-- Transcript of the key exchange, for FINISH. -/
  trans : Bytes := []
  /-- W384. Shared secret of the key exchange. -/
  secret : Bytes := []
  meas : Bytes := []
  signed : Option Digest := none
  /-- The record of the last SKEIN_EVIDENCE (R336). -/
  record : Option Bytes := none
deriving DecidableEq, Repr

/-- The I3C target (R252). -/
structure I3c where
  /-- W7. Dynamic address; kept in retention through REST; reset none. -/
  da : Option Nat := none
  /-- Target events enabled (ENEC, DISEC). -/
  events : Nat := 0xB
  /-- W16. Maximum write and read lengths, and W8 the IBI payload limit. -/
  mwl : Nat := 69
  mrl : Nat := 69
  ibi : Nat := 1
deriving DecidableEq, Repr

/-- A MACsec secure association (R261, R263). -/
structure MacSa where
  xpn : Bool
  /-- Transmit: the next PN. Receive: one more than the highest accepted; first the lowest acceptable PN. -/
  pn : Nat
  /-- Receive: the lowest acceptable PN as installed. -/
  low : Nat := 0
  /-- Transmit: the last PN has been issued. -/
  spent : Bool := false
  ssci : BitVec 32
  /-- W96. SALT, in IEEE order. -/
  salt : Bytes
  /-- W64. ACTIVATE of a transmit SA. -/
  activate : BitVec 64
  key : Key
deriving DecidableEq, Repr

/-- A fronthaul stream (R260 to R265). -/
structure FthStream where
  enable : Bool := false
  window : Nat := 0
  /-- 8 B. Transmit SCI, in SecTAG order. -/
  sci : Bytes := zeroBytes 8
  clear : List Nat := []
  /-- Receive SCIs by SC index. -/
  scis : List (Nat × Bytes) := []
  /-- SAs by SC index × 4 + AN. -/
  sas : List (Nat × MacSa) := []
  /-- ANs of the current and the next transmit SA. -/
  cur : Option Nat := none
  next : Option Nat := none
  /-- A retirement of the current SA waits for the switch (R263). -/
  retire : Bool := false
  /-- The warning of R265 has been raised for the current SA. -/
  warned : Bool := false
  /-- W64. PN issued last (R265). -/
  lastPn : Nat := 0
  /-- Drops by reason, in the order of R262's table: 0 no SA, 1 buffer, 2 length, 3 untagged, 4 malformed, 5 no SA for the SCI, 6 ICV,
  7 replay. -/
  drops : List (Nat × Nat) := []
  /-- Tick of the last ACLASS 4 (R262). -/
  alarm : Option Nat := none
deriving DecidableEq, Repr

/-- Host ports, management and fronthaul. -/
structure HostSide where
  ports : List (Nat × HostPort) := []
  paths : List (Nat × MgmtPath) := []
  sess : List SpdmSess := []
  i3c : I3c := {}
  /-- MCTP messages dropped (R250). -/
  mctpDrops : Nat := 0
  fth : List (Nat × FthStream) := []
  /-- TDIs of undefined skeins that are not in CONFIG_UNLOCKED (R249). -/
  tdis : List (Nat × TdiRec) := []
deriving DecidableEq, Repr

end Sys2Proof.Machine
end

