-- ==== Sys2Proof/Machine/StDistaff.lean ====
section
/-! DEFINITION. State of the distaff: OTP, firmware banks, life cycle, field tests and the carder (11, 13, 16). -/

namespace Sys2Proof.Machine

/-- A firmware bank (R337): 0 EMPTY, 1 WRITING, 2 STAGED, 3 TRIAL, 4 RUNNING, 5 PREVIOUS. -/
structure Bank where
  st : Nat := 0
  /-- Its bytes as written; those beyond are zero. -/
  img : Bytes := []
deriving DecidableEq, Repr

/-- A transition from its intent word to its block reset (R356). -/
structure LcPend where
  target : Nat
  slot : Nat
  /-- Path and session that the answer goes to; none: the ROM completes it (R357). -/
  reply : Option (Nat × BitVec 32)
  /-- Erasure is done (R358). -/
  erased : Bool := false
deriving DecidableEq, Repr

/-- A loaded pack (R417). -/
structure Pack where
  id : Nat
  manager : Bool
  bytes : Bytes
deriving DecidableEq, Repr

/-- A field test (R418): the first of the list runs. -/
structure FieldTest where
  /-- Its descriptor, or none for FT_RUN. -/
  desc : Option Nat
  scope : Nat
  index : Nat
  pack : Nat
  /-- FAULT_ID of its record. -/
  fault : Nat
  /-- It has begun, and the in-service whorls that are still to be taken out of service for it (R419). -/
  begun : Bool := false
  todo : List Nat := []
deriving DecidableEq, Repr

/-- The distaff and what the security firmware keeps. -/
structure Distaff where
  /-- The 16 Kib OTP macro: words of 64 bits, unlisted zero (R493, R494). -/
  otp : List (Nat × BitVec 64) := []
  /-- Bits that read differently at the two margins, as of the last start (R347, R355). -/
  weak : List (Nat × BitVec 64) := []
  bankA : Bank := {}
  bankB : Bank := {}
  /-- W256. CDI0 and CDI1 (R299). -/
  cdi0 : Option Key := none
  cdi1 : Option Key := none
  /-- W256. Swap wrapping key with its number, and the one before it (R299, R345). -/
  swapKey : Key := 0
  swapGen : Nat := 0
  prevSwap : Option Key := none
  /-- The session that carries an accepted FW_ACTIVATE has been answered; the activation waits (R343). -/
  activating : Bool := false
  lc : Option LcPend := none
  /-- A block reset 10 ms after a request: tick and cause of R421. -/
  resetDue : Option (Nat × Nat) := none
  /-- Unit code of R456 whose watchdog brought a block reset due; 0 none (R408, R471). -/
  stalled : Nat := 0
  /-- Pack staging area with its session (R417). -/
  staging : Option (BitVec 32 × Bytes) := none
  packs : List Pack := []
  tests : List FieldTest := []
  /-- Ply lanes marked faulty and disabled, hash lanes retired (R420). -/
  lanesFaulty : List Nat := []
  lanesOff : List Nat := []
  hashRetired : List Nat := []
  /-- A carder pass runs: the page it reads next, and what it meets in memory; the tick of the last pass start (R410). -/
  carder : Bool := false
  carderMark : Nat := 0
  carderEvs : MemEvs := []
  carderAt : Option Nat := none
  /-- In scan (R497). -/
  scan : Bool := false
  /-- A start has completed since the last edge (R408). -/
  started : Bool := false
deriving DecidableEq, Repr

end Sys2Proof.Machine
end

