-- ==== Sys2Proof/Machine/State.lean ====
section
/-! DEFINITION. The state of the block as plain data, its outcomes, and the state right after reset. Choices marked in the log:
DESIGN CHOICE 2, 6, 17, 73, 121. -/

namespace Sys2Proof.Machine

/-- Something the block presents at one of its ports. -/
inductive Output where
  /-- A completion record written to a completion ring, on its DMA path (R248, R373). -/
  | record (ring : Ring) (path : DmaPath) (entry : Nat) (rec : CRec)
  /-- RSP of a warp port (R479). -/
  | rsp (port : Nat) (tag : BitVec 16) (status : BitVec 8) (last : Bool) (data : Line)
  /-- MREQ of a warp port's memory side (R481). -/
  | mreq (lane mtag : Nat) (write : Bool) (bank rowcol : Nat) (mask : BitVec 64) (data : Line)
  /-- A host write and a host read on a DMA channel (R484): path, address, data or length. -/
  | host (path : DmaPath) (addr : Nat) (data : Bytes)
  | hostRead (path : DmaPath) (addr len : Nat)
  /-- TGTR of the control port (R484). -/
  | tgtr (data : BitVec 64) (ur : Bool) (rstat : BitVec 16)
  /-- WRSP of the request window port (R485). -/
  | wrsp (status : BitVec 8) (data : Line)
  /-- SWR of the seal port (R486). -/
  | swr (saddr : Nat) (data : Line)
  /-- A frame sent on a weft port (0 to 17) or federation port (28, 29) (R488). -/
  | frame (port : Nat) (bytes : Bytes)
  /-- A COHERENCE payload delivered to the on-chip network (R236). -/
  | coherence (bytes : Bytes)
  /-- A bring-up message toward a die (R235): the device ID, the signed exchange, and from the leader F wrapped, the skein list, the slot
  assignments and the binding counts. -/
  | bringup (die : Nat) (device : BitVec 128) (exchange wrapped : Bytes) (skeins : List Nat) (slots binds : List (Nat × Nat))
  /-- A TLP sent on a host port (R483). -/
  | tlp (port : Nat) (bytes : Bytes)
  /-- A TLP passed to the on-chip side of a host port (R242, R483). -/
  | tlpIn (port : Nat) (bytes : Bytes)
  /-- An answer on CFG (R483). -/
  | cfg (port : Nat) (data : BitVec 32)
  /-- A transmission unit, by sequence number, of a management response on path 0 (I3C) or 1 + host port (PCIe VDM) (R250). -/
  | mgmt (path seq : Nat) (last : Bool) (bytes : Bytes)
  /-- An answer on the I3C bus (R252). -/
  | i3c (bytes : Bytes)
  /-- The address header of a transfer to the I3C target's dynamic address is not acknowledged (R253). -/
  | i3cNack (addr : Nat)
  /-- A frame on a fronthaul stream, toward the MAC or toward the interface (R489). -/
  | eth (stream : Nat) (toMac : Bool) (bytes : Bytes)
  /-- Bytes on the trace output (R487). -/
  | trace (bytes : Bytes)
  /-- JTAG data out (R496). -/
  | jtag (bytes : Bytes)
deriving DecidableEq, Repr

/-- A management operation that waits for its turn on a skein, or for the entropy source (R34, R303). -/
structure Held where
  /-- Its place in the order of acceptance. -/
  stamp : Nat
  /-- The skein that it touches. -/
  skein : Option Nat
  cmd : Instr
deriving DecidableEq, Repr

/-- Everything but the queue. -/
structure Block where
  /-- Configuration row (R31). -/
  row : Config.Row := .full
  regs : Regs := {}
  /-- Ticks of the 1 MHz tick since reset (R8). -/
  tick : Nat := 0
  /-- Manager ring pair, view and fences (R361, R378, R381). -/
  mgr : RingPair := {}
  mgrView : View := {}
  mgrFences : List (Nat × Fence) := []
  /-- Defined skeins by index (R266). -/
  skeins : List (Nat × Skein) := []
  /-- Accepted, incomplete descriptors, oldest first (R366). -/
  descs : List Desc := []
  /-- The next place in the order of acceptance, of descriptors, management operations and window cells (R34). -/
  nextDesc : Nat := 0
  /-- Timed-out FENCE_WAITs (R387). -/
  lates : List LateWait := []
  /-- Standing checks (R414). -/
  standing : List Standing := []
  /-- Suspect entries whose users are still to complete with WHORL_SUSPECT, and slot units lost with their whorls (R400, R404). -/
  suspects : List (BitVec 64) := []
  lostUnits : List WUnit := []
  /-- Units without a reset domain of their own whose handshake stands still while they hold work, by unit code: since which tick (R408). -/
  unitStuck : List (Nat × Nat) := []
  /-- Plies repaired from the other (R99, R103). -/
  repaired : Nat := 0
  /-- Requests refused or dropped for which no skein's window exists (R20). -/
  refusedNoSkein : Nat := 0
  /-- Management operations held, oldest first; and the place of the one that is being tried (R34). -/
  held : List Held := []
  serving : Option Nat := none
  /-- Health section counters by byte offset (R454). -/
  health : List (Nat × Nat) := []
  /-- Global section counters by byte offset (R455). -/
  glob : List (Nat × Nat) := []
  /-- From acceptance of a life-cycle transition until its block reset (R359). -/
  lcBusy : Bool := false
  /-- The datapath is powered and no entry into a low-power state has stopped new work (R435). -/
  awake : Bool := true
  /-- Tick at which the all-blocked rule last acted (R287). -/
  lastRule : Option Nat := none
  /-- The rule's swaps under way (R286). -/
  rule : Option RuleRun := none
  pwr : Power := {}
  tim : Tim := {}
  ladder : Ladder := {}
  /-- The security firmware controller is halted by DBG_FW (R496, R516). -/
  fwHalted : Bool := false
  /-- Tick of its watchdog's last kick (R407). -/
  fwKick : Nat := 0
  /-- A restart of the controller under way, and the tick of the last watchdog expiry (R407). -/
  fwRestart : Option Nat := none
  fwExpiry : Option Nat := none
  host : HostSide := {}
  dst : Distaff := {}
  mem : Mem := {}
  wh : Whorls := {}
  fab : Fabric := {}
  srv : Services := {}
  tel : Telemetry := {}
  /-- W256. The root, while one is held (R296). -/
  root : Option Key := none
  /-- W256. Data root D and N_start (R299). -/
  dataRoot : Key := 0
  nStart : Key := 0
  /-- W32. FAULT_ID of the next fault record; 1 at first (R424). -/
  faultNext : Nat := 1
  /-- The last 64 fault records, newest first, by FAULT_ID (R422, R424). -/
  faults : List (Nat × BitVec 1024) := []
  /-- Next slot of the host fault log (R424). -/
  fltSlot : Nat := 0
  /-- The model's own counters of draws and of choices (free values). -/
  draws : Nat := 0
  choices : Nat := 0
  /-- Everything presented at the ports, newest first. -/
  out : List Output := []
deriving DecidableEq, Repr

structure State where
  /-- Commands waiting, first in first out. -/
  pending : List Instr
  blk : Block
deriving DecidableEq, Repr

/-- The block right after reset, before its start: every field at its reset value (R15, R504, R506), an empty queue. The
row is the full one (R31). -/
def State.reset : State := { pending := [], blk := {} }

/-- Faults: no meaning raises one, because every error of the block is a status, a record or an event (safe). -/
inductive Fault where
  /-- Never raised; it keeps the type inhabited (safe). -/
  | unreachable
deriving DecidableEq, Repr

/-- Refusals. -/
inductive Refusal where
  /-- A command without a meaning (raised by exec's refused arms alone; safe). -/
  | notModelled (mnemonic : String)
deriving DecidableEq, Repr

/-- The outcome of every command and step. -/
abbrev Out := Host.Outcome State Fault Refusal

end Sys2Proof.Machine
end

