-- ==== Sys2Proof/Machine/Telemetry.lean ====
section
/-! DEFINITION. Spool records, the pinned window, and monitor samples (15_counters_and_spool, R461 to R468). Choices marked in the
log: DEDUCED 50, 59; DESIGN CHOICE 15, 55, 56. -/

namespace Sys2Proof.Machine

def setTel (f : Telemetry → Telemetry) (b : Block) : Block := { b with tel := f b.tel }
def setSpool (f : Spool → Spool) (b : Block) : Block := setTel (fun t => { t with spool := f t.spool }) b
def setWindow (f : Window → Window) (b : Block) : Block := setSpool (fun s => { s with window := s.window.map f }) b

/-- OWNER of a block-owned record (R464). -/
def ownBlock : Nat := 0x3FF
/-- OWNER of a record: a skein, or the block. -/
def ownerOf (o : Option Nat) : Nat := o.getD ownBlock

/-- A record stamped now. -/
def mkRec (kind stream owner : Nat) (data : BitVec 128) (b : Block) : SpoolRec :=
  { kind := kind, stream := stream, owner := owner, quality := b.tim.quality, stamp := b.tim.t, data := data }

/-- The stream of a record to which R464 and R465 give none: a free value among the streams that are not reserved (R12). -/
def freeStream (kind : Nat) : Nat := Config.recordStream kind % 15

/-- A gap record: its stream is the one that lost records, where the loss is a stream's. -/
def gapRec (l : SpoolLoss) (data : BitVec 128) (b : Block) : SpoolRec :=
  mkRec 4 (if l.stream < 15 then l.stream else freeStream 4) ownBlock data b

/-- The 262,144 records of the spool (R464). -/
def spoolCap : Nat := 262144
/-- Records that the window takes from the circular part. -/
def Window.pinned (w : Window) : Nat := w.pre.length + w.size + 65

/-- A record enters the circular history, over the oldest. -/
def histPut (r : SpoolRec) (b : Block) : Block :=
  let cap := spoolCap - ((b.tel.spool.window.map Window.pinned).getD 0)
  setSpool (fun s => { s with hist := (r :: s.hist).take cap }) b

/-! ### The post-trigger part (R468) -/

/-- One record in how many is kept when the post part holds `n` of `p` records. -/
def keepOneIn (n p : Nat) : Nat :=
  if 16 * n < 8 * p then 1 else if 16 * n < 12 * p then 2 else if 16 * n < 14 * p then 4 else if 16 * n < 15 * p then 8 else 16

/-- Count a loss of a stream. -/
def noteLoss (stream : Nat) (stamp : BitVec 64) : List SpoolLoss → List SpoolLoss
  | [] => [{ stream := stream, lost := 1, first := stamp }]
  | l :: ls => if l.stream = stream then { l with lost := l.lost + 1 } :: ls else l :: noteLoss stream stamp ls

/-- DATA of a gap record (R464). -/
def gapData (l : SpoolLoss) : BitVec 128 := putAt 128 0 1 l.stream ||| putAt 128 4 4 (min l.lost 0xFFFFFFFF) ||| putAt 128 8 8 l.first.toNat

/-- Enter a gap record in the gap area; when it is full its last record takes up every further loss (R468). -/
def gapPut (l : SpoolLoss) (r : SpoolRec) (w : Window) : Window :=
  let full (g : SpoolRec) (n : Nat) : SpoolRec :=
    { g with data := gapData { stream := 0xFD, lost := n + l.lost, first := BitVec.ofNat 64 (fieldAt g.data 8 8) } }
  match w.gaps with
  | g :: gs => if 64 ≤ w.gaps.length then { w with gaps := full g (fieldAt g.data 4 4) :: gs } else { w with gaps := r :: w.gaps }
  | [] => { w with gaps := [r] }

/-- Gap records of the streams named that have lost records since their last one (R468). -/
def flushGaps (p : Nat → Bool) (b : Block) : Block := match b.tel.spool.window with
  | none => b
  | some w =>
    let w := (w.losses.filter fun l => p l.stream).foldl (fun w l => gapPut l (gapRec l (gapData l) b) w) w
    setSpool (fun s => { s with window := some { w with losses := w.losses.filter fun l => !p l.stream } }) b

/-- Enter a record in the post part. Where that crosses a threshold, the streams that lost records get their gap records, a stream in
the middle of a group when the group ends (R468). -/
def postAdd (r : SpoolRec) (w : Window) (b : Block) : Block :=
  let n := w.post.length
  let crossed := keepOneIn (n + 1) w.size != keepOneIn n w.size
  let open' (st : Nat) : Bool := amGetD 0 st w.skip != 0
  let owed := if crossed then w.skip.map (·.1) else w.owed
  let b := setSpool (fun s => { s with window := some { w with post := r :: w.post, owed := owed } }) b
  if crossed then flushGaps (fun st => !open' st) b else b

/-- A record that its stream's group loses; at the group's end a gap record that waited for it is written. -/
def postSkip (r : SpoolRec) (left : Nat) (w : Window) (b : Block) : Block :=
  let ends := left == 1 && w.owed.contains r.stream
  let w := { w with
    skip := amPut 0 r.stream (left - 1) w.skip, owed := if ends then w.owed.erase r.stream else w.owed,
    losses := noteLoss r.stream r.stamp w.losses }
  let b := setSpool (fun s => { s with window := some w }) b
  if ends then flushGaps (fun st => st == r.stream) b else b

/-- Write a record into the open window's post part, sampling low-priority streams down: the first record of each group is kept, and a
group ends before the next rate applies to its stream (R468). -/
def postPut (r : SpoolRec) (w : Window) (b : Block) : Block := match amGetD 0 r.stream w.skip with
  | 0 =>
    let k := if b.regs.splCtrl.getLsbD (16 + r.stream) then keepOneIn w.post.length w.size else 1
    postAdd r { w with skip := amPut 0 r.stream (k - 1) w.skip } b
  | left => postSkip r left w b

/-- A record enters the history where the capture rate allows, after the gap records of earlier losses; else it is a loss (R465, R468). -/
def histRate (ok : Bool) (r : SpoolRec) (b : Block) : Block :=
  if ok then
    let b := b.tel.spool.lost.foldl (fun b l => histPut (gapRec l (gapData l) b) b) b
    histPut r (setSpool (fun s => { s with lost := [] }) b)
  else setSpool (fun s => { s with lost := noteLoss r.stream r.stamp s.lost }) b

/-- Write a spool record of a stream whose bit in SPL_CTRL.STREAMS is set; at most 500 a microsecond (R465). -/
def spoolPut (kind stream owner : Nat) (data : BitVec 128) (b : Block) : Block :=
  if !b.regs.splCtrl.getLsbD stream || 15 ≤ stream then b
  else
    let n := if b.tel.spool.rate.1 = b.tick then b.tel.spool.rate.2 else 0
    let b := setSpool (fun s => { s with rate := (b.tick, n + 1) }) b
    let r := mkRec kind stream owner data b
    match b.tel.spool.window with
    | some w =>
      if w.closed || w.size ≤ w.post.length then histRate (decide (n < 500)) r b
      else if n < 500 then postPut r w b
      else setWindow (fun w => { w with losses := noteLoss stream r.stamp w.losses }) b
    | none => histRate (decide (n < 500)) r b

/-- The skein is gone: its records keep its index, and no later skein of that index can seal them (R470). -/
def disown (n : Nat) (b : Block) : Block :=
  let f (r : SpoolRec) : SpoolRec := if r.owner = n then { r with owner := 1024 + n } else r
  setWindow (fun w => { w with pre := w.pre.map f, post := w.post.map f }) (setSpool (fun s => { s with hist := s.hist.map f }) b)

/-- DATA of an event (R464). -/
def eventData (cause aclass object : Nat) : BitVec 128 := putAt 128 0 1 cause ||| putAt 128 1 1 aclass ||| putAt 128 8 8 object

/-- An event record whose DATA the spec places. -/
def spoolEvent (stream owner cause aclass object : Nat) (b : Block) : Block :=
  spoolPut 1 stream owner (eventData cause aclass object) b

/-- An event or sample whose DATA the spec does not place: a free value of what it records (R464). -/
def spoolFree (kind stream owner x y : Nat) (b : Block) : Block := spoolPut kind stream owner (Config.spoolData stream x y) b

/-! ### Triggers (R466, R467) -/

/-- Count a trigger that is not taken: health offset 128 (R454). -/
def missTrigger (b : Block) : Block := { b with health := amPut 0 128 ((amGetD 0 128 b.health + 1) % 2 ^ 64) b.health }

/-- A trigger record; DATA byte 0 is 1 where it is not taken. -/
def triggerRec (missed : Bool) (b : Block) : SpoolRec := mkRec 3 (freeStream 3) ownBlock (putAt 128 0 1 (b2n missed)) b

/-- A window that no destination can take stays pinned until the next trigger replaces it (R469). -/
def windowStuck (w : Window) (b : Block) : Bool :=
  w.closed && bitField b.regs.splDump 63 12 == 0 && !b.regs.splCtrl.getLsbD 49

/-- A window's records return to the circular history. -/
def unpin (b : Block) : Block := match b.tel.spool.window with
  | none => b
  | some w =>
    let all := (b.tel.spool.hist ++ w.gaps ++ w.post ++ (w.trigger :: w.pre)).mergeSort fun x y => decide (y.stamp.toNat ≤ x.stamp.toNat)
    setSpool (fun s => { s with hist := all.take spoolCap, window := none }) b

/-- A trigger: the first opens a window, a later one is recorded as missed (R466, R467). -/
def spoolTrigger (source : Nat) (b : Block) : Block :=
  let b := match b.tel.spool.window with
    | some w => if windowStuck w b then unpin b else b
    | none => b
  match b.tel.spool.window with
  | some w =>
    let b := missTrigger b
    if w.closed || w.size ≤ w.post.length then histPut (triggerRec true b) b
    else postAdd (triggerRec true b) w b
  | none =>
    let pre := bitField b.regs.splCtrl 35 32 * 32768
    let w : Window :=
      { trigger := triggerRec false b, source := source, pre := b.tel.spool.hist.take pre,
        size := if source = 4 then 0 else bitField b.regs.splCtrl 39 36 * 32768, since := b.tick,
        limit := 1000 * bitField b.regs.splCtrl 63 50, closed := source == 4 }
    setSpool (fun s => { s with window := some w, hist := s.hist.drop pre }) b

/-- Close the open window with its last gap records (R466, R468). -/
def closeWindowNow (b : Block) : Block := match b.tel.spool.window with
  | none => b
  | some w => if w.closed then b else setWindow (fun w => { w with closed := true }) (flushGaps (fun _ => true) b)

/-! ### Monitors (R461, R462) -/

/-- Bin of a sample (R461). -/
def monBin (v : Nat) : Nat := if v = 0 then 0 else if 2 ^ 30 ≤ v then 31 else v.log2 + 1

/-- A probe measures a level in entries, not a time. -/
def probeIsLevel (p : Nat) : Bool := p == 0x12 || p == 0x17

/-- Take a sample (R461). -/
def Monitor.take (m : Monitor) (v : Nat) : Monitor :=
  let v := min v 0xFFFFFFFF
  { m with count := (m.count + 1) % 2 ^ 64, sum := (m.sum + v) % 2 ^ 64, least := min m.least v, most := max m.most v,
           bins := amPut 0 (monBin v) (satAdd 32 (amGetD 0 (monBin v) m.bins) 1) m.bins }

/-- Sample an event of a probe on every monitor that measures it; monitor 2 measures all streams (R462). -/
def sampleLevel (probe index v : Nat) (b : Block) : Block :=
  setTel (fun t => { t with monitors := t.monitors.map fun m =>
    if m.2.probe = probe && (m.2.index = index || m.1 = 2) then (m.1, m.2.take v) else m }) b

/-- Sample a time: a free value, because the model gives no delays. -/
def sampleTime (probe index : Nat) (b : Block) : Block :=
  if b.tel.monitors.any fun m => m.2.probe = probe && (m.2.index = index || m.1 = 2) then
    let n := b.tel.samples
    sampleLevel probe index (Config.probeSample probe n) (setTel (fun t => { t with samples := n + 1 }) b)
  else b

end Sys2Proof.Machine
end

