-- ==== Sys2Proof/Machine/Base.lean ====
section
/-! DEFINITION. The plainest operations: status codes, a block's parts, draws and choices, skeins by index, counters. Choices
marked in the log: DESIGN CHOICE 7, 9, 121. -/

namespace Sys2Proof.Machine

/-- Completion status codes (R376). -/
def cOK : BitVec 8 := 0x00
def cOkLate : BitVec 8 := 0x01
def cAuthFail : BitVec 8 := 0x10
def cIntegrity : BitVec 8 := 0x11
def cTree : BitVec 8 := 0x12
def cHankRevoked : BitVec 8 := 0x13
def cKeyRetired : BitVec 8 := 0x14
def cFenceExh : BitVec 8 := 0x15
def cFenceReg : BitVec 8 := 0x16
def cTimeout : BitVec 8 := 0x17
def cEpochReuse : BitVec 8 := 0x18
def cQuota : BitVec 8 := 0x19
def cResultLost : BitVec 8 := 0x1A
def cInvalid : BitVec 8 := 0x20
def cNotPermitted : BitVec 8 := 0x21
def cWhorlSuspect : BitVec 8 := 0x30
def cEcc : BitVec 8 := 0x31
def cBusy : BitVec 8 := 0x40
def cResetting : BitVec 8 := 0x41
def cAborted : BitVec 8 := 0x7F

/-- Apply an effect to everything but the queue. -/
def onBlock (f : Block → Block) (s : State) : Out := .next { s with blk := f s.blk }

/-- Present something at a port. -/
def emit (o : Output) (b : Block) : Block := { b with out := o :: b.out }

/-- The next TRNG draw, of `w` bits (R302); a free value. -/
def draw (w : Nat) (b : Block) : BitVec w × Block :=
  ((Config.trng b.draws).setWidth w, { b with draws := b.draws + 1 })

/-- A choice among `n` that the spec leaves to Frexis; a free value. -/
def choose (n : Nat) (b : Block) : Nat × Block :=
  (Config.choice b.choices % n, { b with choices := b.choices + 1 })

/-- Change a skein's state (R267), with its spool record (R465). -/
def setSkSt (n : Nat) (st : SkSt) (b : Block) : Block :=
  spoolFree 1 6 n n 0 { b with skeins := amMod n (fun s => { s with st := st }) b.skeins }

def setMem (f : Mem → Mem) (b : Block) : Block := { b with mem := f b.mem }
def setRegs (f : Regs → Regs) (b : Block) : Block := { b with regs := f b.regs }
def setWh (f : Whorls → Whorls) (b : Block) : Block := { b with wh := f b.wh }
def setSrv (f : Services → Services) (b : Block) : Block := { b with srv := f b.srv }

/-- A defined skein. -/
def getSkein (n : Nat) (b : Block) : Option Skein := amGet n b.skeins
def modSkein (n : Nat) (f : Skein → Skein) (b : Block) : Block := { b with skeins := amMod n f b.skeins }
def putSkein (n : Nat) (s : Skein) (b : Block) : Block := { b with skeins := amSet n s b.skeins }
/-- The skein that holds a slot (R266). -/
def slotSkein (slot : Nat) (b : Block) : Option (Nat × Skein) := b.skeins.find? fun e => e.2.slot = some slot
/-- The slot-class skein (R25). -/
def slotClassSkein (b : Block) : Option (Nat × Skein) := b.skeins.find? fun e => e.2.slotClass

/-- Add to a counter that wraps modulo 2^64 (R451). -/
def bumpAt (off k : Nat) (m : List (Nat × Nat)) : List (Nat × Nat) := amPut 0 off ((amGetD 0 off m + k) % 2 ^ 64) m

/-- Count in a skein's counter window at a byte offset (R458). -/
def bumpSk (n off k : Nat) (b : Block) : Block :=
  modSkein n (fun s => { s with ctrs := bumpAt off k s.ctrs }) b
/-- Count in the health section (R454) and in the global section (R455). -/
def bumpHealth (off k : Nat) (b : Block) : Block :=
  { b with health := bumpAt off k b.health }
def bumpGlob (off k : Nat) (b : Block) : Block :=
  { b with glob := bumpAt off k b.glob }

/-- Count a refusal for which no skein's window exists. -/
def bumpRefused (b : Block) : Block := { b with refusedNoSkein := b.refusedNoSkein + 1 }

/-- The bucket a work item counts in (R459). -/
def bucketOf (s : Skein) (layer operator : Nat) : Option Nat :=
  findBelow 16 fun i =>
    let x := (amGetD 0 (2 * i) s.selectors).toNat
    let y := (amGetD 0 (2 * i + 1) s.selectors).toNat
    ((x % 65536) ^^^ layer) &&& (x / 65536) == 0 && ((y % 65536) ^^^ operator) &&& (y / 65536) == 0
/-- Count in the bucket of an item, at a byte offset of the bucket (R459). -/
def bumpBucket (n layer operator off k : Nat) (b : Block) : Block :=
  modSkein n (fun s => match bucketOf s layer operator with
    | none => s
    | some i => { s with buckets := bumpAt (64 * i + off) k s.buckets }) b

/-- Mark a skein's progress (Skeins, the slot scheduler). -/
def progress (n : Nat) (b : Block) : Block := modSkein n (fun s => { s with lastProgress := b.tick }) b

end Sys2Proof.Machine
end

