-- ==== Sys2Proof/Machine/Array.lean ====
section
/-! DEFINITION. The whorl array's spindles: whorls in service, entitlements, units, queues, arbiters, sampling and ledgers (R39 to
R47, R49 to R54, R59 to R64). Choices marked in the log: DEDUCED 143, 148; DESIGN CHOICE 11, 24, 44, 125, 126, 128, 134, 146. -/

namespace Sys2Proof.Machine

/-- Apply a change to the whorl array and keep everything else as it is. -/
def onArray (f : Block → Block) (b : Block) : Block := { b with wh := (f b).wh }

/-! ### Whorls in service -/

/-- Spindle of a whorl (64 whorls each). -/
def spindleOf (w : Nat) : Nat := w / 64
/-- The whorls of a spindle. -/
def whorlsOf (sp : Nat) : List Nat := (List.range 64).map (· + 64 * sp)
/-- The first reserved spindle: the reservation is the four highest. -/
def firstReserved (b : Block) : Nat := b.row.spindles - 4
def isReserved (w : Nat) (b : Block) : Bool := decide (firstReserved b ≤ spindleOf w)

/-- A whorl is in service: neither retired, nor of a fenced spindle, nor taken for a field test (R66, R419). -/
def whorlIn (w : Nat) (b : Block) : Bool :=
  decide (w < b.row.whorls) && !b.wh.retired.contains w && !b.wh.fenced.contains (spindleOf w) && !b.wh.testing.contains w
/-- Whorls retired, those of fenced spindles included (R454). -/
def retiredCount (b : Block) : Nat :=
  64 * b.wh.fenced.length + (b.wh.retired.filter fun w => !b.wh.fenced.contains (spindleOf w)).length
/-- Whorls in service, adopted ones included (R68). -/
def inServiceCount (b : Block) : Nat := b.row.whorls - retiredCount b - b.wh.testing.length
/-- A spindle is in service: neither fenced, nor in its reset, nor being isolated (R405, R408). -/
def spindleIn (sp : Nat) (b : Block) : Bool :=
  decide (sp < b.row.spindles) && !b.wh.fenced.contains sp && !(b.wh.resetSpindles.any fun r => r.index == sp) &&
    !(b.wh.isolating.any fun r => r.index == sp)
/-- A whorl takes work: in service and not in its own or its spindle's reset (R403, R405). -/
def whorlTakes (w : Nat) (b : Block) : Bool :=
  whorlIn w b && !(b.wh.resetWhorls.any fun r => r.index == w) && spindleIn (spindleOf w) b

/-! ### Entitlements (R50, R51) -/

/-- In-service whorls outside the reservation, adopted whorls excluded. -/
def sharedWhorls (b : Block) : Nat :=
  let lost := (b.wh.retired ++ b.wh.testing).filter fun w => !isReserved w b && !b.wh.fenced.contains (spindleOf w)
  64 * firstReserved b - 64 * (b.wh.fenced.filter (· < firstReserved b)).length - lost.eraseDups.length - b.wh.adopted.length

/-- The floor of a slot and the pool above the floors. -/
def floorPool (b : Block) : Nat × Nat :=
  let g := sharedWhorls b
  let n := b.row.slots
  if b.row.floor * n ≤ g then (b.row.floor, g - b.row.floor * n) else (g / n, g - g / n * n)

/-- Sum of the weights of the resident skeins. -/
def totalWeight (b : Block) : Nat := sumNat ((b.skeins.filter (·.2.slot.isSome)).map (·.2.weight))

/-- Entitlement of a slot in whorl-equivalents: the floor alone where its skein has weight 0 or it holds none. -/
def entitlement (slot : Nat) (b : Block) : Nat :=
  let fp := floorPool b
  let w := ((slotSkein slot b).map (·.2.weight)).getD 0
  fp.1 + if totalWeight b = 0 then 0 else fp.2 * w / totalWeight b

/-! ### Queues and ledgers -/

def queueOf (sp : Nat) (b : Block) : List WUnit := amGetD [] sp b.wh.queues
def setQueue (sp : Nat) (q : List WUnit) (b : Block) : Block :=
  setWh (fun w => { w with queues := amPut [] sp q w.queues }) b

/-- Units that a spindle queue holds at most (R41). -/
def queueCap : Nat := 512

/-- Enter a unit in a whorl's ledger, over the oldest of 4,096 entries (R63). -/
def enterLedger (w : Nat) (e : BitVec 64) (b : Block) : Block :=
  setWh (fun x => { x with ledgers := amPut [] w ((e :: amGetD [] w x.ledgers).take 4096) x.ledgers }) b

/-- The array's next choice among `n`; a free value. -/
def arrayPick (n : Nat) (b : Block) : Nat × Block :=
  (Config.arrayPick b.wh.picks % n, setWh (fun w => { w with picks := w.picks + 1 }) b)

/-- One of a list's elements, the array's choice. -/
def pickOne (l : List Nat) (b : Block) : Option (Nat × Block) := match l with
  | [] => none
  | a :: _ => let (c, b) := arrayPick l.length b; some (l.getD c a, b)

/-! ### Re-spin (R59, R60) -/

/-- The next output of the re-spin DRBG. -/
def drbgDraw (b : Block) : Nat × Block :=
  (Config.respinDrbg b.wh.drbg b.wh.drbgNext, setWh (fun w => { w with drbgNext := w.drbgNext + 1 }) b)

/-- A checker, drawn uniformly among the in-service whorls outside a spindle; none where there is none. -/
def drawChecker (sp : Nat) (b : Block) : Option Nat × Block :=
  let ws := (List.range b.row.whorls).filter fun c => whorlIn c b && spindleOf c != sp
  let (x, b) := drbgDraw b
  (ws[x % max ws.length 1]?, b)

/-- Issue a check of blocks that a whorl produces. -/
def issueCheck (w : Nat) (e : BitVec 64) (blocks : Nat) (b : Block) : Block := match drawChecker (spindleOf w) b with
  | (some c, b) => setWh (fun x => { x with
      checked := x.checked + blocks,
      checks := x.checks ++ [{ producer := w, checker := c, entry := e, since := b.tick, blocks := blocks }] }) b
  | (none, b) => b

/-- Sample a block: one in 64, or every one where re-spin is forced (R59, R60). -/
def sampleBlock (w : Nat) (u : WUnit) (b : Block) : Block :=
  let (x, b) := drbgDraw b
  if u.forced || x % 64 == 0 then issueCheck w u.entry 1 b else b

/-- A whorl produces blocks of a unit: they are sampled, and the unit stands in the whorl's ledger (R59, R63). -/
def produce (w : Nat) (u : WUnit) (blocks : Nat) (b : Block) : Block :=
  (List.range blocks).foldl (fun b _ => sampleBlock w u b) (enterLedger w u.entry b)

/-! ### Home spindles (R40, R44) -/

/-- The first of the spindles listed with the shortest queue; between equal queues it is the first, the model's choice. -/
def shortest (l : List Nat) (b : Block) : Option Nat := argMin (fun sp => (queueOf sp b).length) l

/-- The spindle a unit is sent to: the shorter queue of its two home candidates, drawn from the spindles in service outside the
reservation, or for a slot unit the reserved spindle in service with the shortest queue. DESIGN CHOICE: of two equally short queues it
is the first candidate's, and for a slot unit the lowest spindle's; the spec says nothing of equal queues. -/
def targetSpindle (slotUnit : Bool) (keyId slot : Nat) (b : Block) : Option Nat :=
  if slotUnit then shortest (((List.range 4).map (· + firstReserved b)).filter fun sp => spindleIn sp b) b
  else
    let sps := (List.range (firstReserved b)).filter fun sp => spindleIn sp b
    let (i, j) := Config.homePair b.wh.hashKey keyId slot
    shortest ((sps[i % max sps.length 1]?).toList ++ (sps[j % max sps.length 1]?).toList) b

/-- Put a unit at the end of its home queue; none where it must wait: no home is in service, or both are full (R41). -/
def enqueue (u : WUnit) (b : Block) : Option (Nat × Block) := match targetSpindle u.slotUnit u.keyId u.slot b with
  | none => none
  | some sp =>
    if queueCap ≤ (queueOf sp b).length then none else some (sp, setQueue sp (queueOf sp b ++ [{ u with home := none }]) b)

/-! ### The arbiter (R41, R49, R52) -/

/-- Tier 5 fell short in the last tick, or a tier above it. -/
def shortfall (b : Block) : Bool := b.wh.unmet.any (· ≤ 5)

/-- The tier that the arbiter serves a unit in; tier 4 beyond 64 whorl-equivalents goes with tier 5 (R49). -/
def tierOf (past : Bool) (u : WUnit) : Nat := if u.tier == 4 && past then 5 else u.tier

/-- Ledger entries of message segments. -/
def isSegment (u : WUnit) : Bool := u.entry.toNat / 2 ^ 62 == 2

/-- The next slot after one in a rising list, cyclically. -/
def slotAfter (t : Nat) (slots : List Nat) : Nat := ((slots.find? fun s => decide (t < s)).getD (slots.headD t))

/-- Deficit round robin: the slot at the turn is served while its deficit covers its head; else the turn passes on and the next slot
gains its quantum. The answer is the slot served and the deficits, whose cost has been taken. -/
def drr : Nat → (Nat → Nat) → (Nat → Nat) → List Nat → Nat → List (Nat × Nat) → Nat × List (Nat × Nat)
  | 0, _, _, _, t, d => (t, d)
  | k + 1, quantum, cost, slots, t, d =>
    if slots.contains t && decide (cost t ≤ amGetD 0 t d) then (t, amPut 0 t (amGetD 0 t d - cost t) d)
    else
      let n := slotAfter t slots
      drr k quantum cost slots n (amPut 0 n (amGetD 0 n d + quantum n) d)

/-- The unit of a slot that is next: its oldest, in a shortfall its oldest that is no message segment (R41, R49). -/
def headOf (q : List WUnit) (short : Bool) (slot : Nat) : Option WUnit :=
  let mine := q.filter fun u => u.slot == slot
  if short then ((mine.find? fun u => !isSegment u).orElse fun _ => mine.head?) else mine.head?

/-- The unit that a spindle's arbiter starts next among those of the tiers allowed: of the highest tier present, in tier 5 by deficit
round robin over the skein slots with quanta of their entitlements, else the oldest (R41, R49, R52). -/
def pickUnit (sp : Nat) (tiers : Nat → Bool) (past : Bool) (b : Block) : Option (WUnit × Block) :=
  let q := (queueOf sp b).filter fun u => tiers (tierOf past u)
  match argMin (tierOf past) q with
  | none => none
  | some u =>
    if tierOf past u != 5 then some (u, b)
    else
      let q := q.filter fun u => tierOf past u == 5
      let slots := ((q.map (·.slot)).eraseDups).mergeSort fun x y => decide (x ≤ y)
      let cost (s : Nat) : Nat := ((headOf q (shortfall b) s).map (·.blocks)).getD 0
      let old := (amGetD [] sp b.wh.deficits).filter fun e => slots.contains e.1
      let (s, d) := drr 8192 (fun s => max 1 (entitlement s b)) cost slots (amGetD 0 sp b.wh.turns) old
      (headOf q (shortfall b) s).map fun u => (u, setWh (fun w => { w with
        deficits := amPut [] sp d w.deficits, turns := amPut 0 sp s w.turns }) b)

/-! ### Starting units -/

/-- The whorls that serve a spindle's queue: its own, and for the reservation the adopted (R44, R47). -/
def serversOf (sp : Nat) (b : Block) : List Nat :=
  (if firstReserved b ≤ sp then whorlsOf sp ++ b.wh.adopted else whorlsOf sp).filter fun w => whorlTakes w b
def isIdle (w : Nat) (b : Block) : Bool := !(b.wh.running.any fun r => r.whorl == w)
/-- The idle ones among them that can start a unit; an adopted whorl starts no home unit while a slot unit waits (R47). -/
def startersOf (sp : Nat) (b : Block) : List Nat := (serversOf sp b).filter fun w => isIdle w b

/-- Take a unit off its queue. -/
def unqueue (sp : Nat) (u : WUnit) (b : Block) : Block := setQueue sp ((queueOf sp b).filter fun v => v.id != u.id) b

/-- Start a unit of a spindle's queue on a whorl (R39). -/
def startOn (sp w : Nat) (u : WUnit) (b : Block) : Block :=
  setWh (fun x => { x with running := x.running ++ [{ whorl := w, unit := u, since := b.tick }] }) (produce w u u.blocks (unqueue sp u b))

/-- Reserved whorls alone and adopted ones start slot units, and an adopted whorl takes nothing else while one waits (R44, R47). -/
def mayStart (u : WUnit) (w : Nat) (b : Block) : Bool :=
  u.slotUnit || !b.wh.adopted.contains w ||
    !((List.range 4).any fun i => (queueOf (firstReserved b + i) b).any (·.slotUnit))

/-- Tiers that may start between ticks: the Reel's and the carder's only where the last tick left no higher tier short (R49, R54). -/
def tierOpen (b : Block) (t : Nat) : Bool := decide (t ≤ 5) || b.wh.unmet.all fun v => decide (t ≤ v)

/-- Start a spindle's units on its idle whorls while both last; a spindle whose arbiter stands still starts none. -/
def startIdle : Nat → Nat → Block → Block
  | 0, _, b => b
  | k + 1, sp, b =>
    if !spindleIn sp b then b
    else match pickUnit sp (tierOpen b) false b with
      | none => b
      | some (u, c) => match pickOne ((startersOf sp b).filter fun w => mayStart u w b) c with
        | none => b
        | some (w, c) => startIdle k sp (startOn sp w u c)

/-! ### Dropping a stolen unit (R45 to R47) -/

/-- Put the rest of a dropped unit at the head of a queue; a queue that is full gives its last unit back to its consumer, and so does a
spindle that has left service. -/
def requeueHead (sp : Nat) (u : WUnit) (b : Block) : Block :=
  if !spindleIn sp b then setWh (fun w => { w with waiting := u :: w.waiting }) b
  else
    let q := u :: queueOf sp b
    let b := setQueue sp (q.take queueCap) b
    setWh (fun w => { w with waiting := q.drop queueCap ++ w.waiting }) b

/-- A whorl drops the unit it runs: the blocks accepted complete, and the rest goes to the head of the victim's queue as a unit of the
same tier (R45, R46). How many blocks it had accepted is the array's choice. -/
def dropRun (r : Run) (b : Block) : Block :=
  let (k, b) := arrayPick r.unit.blocks b
  let rest := r.unit.blocks - (k + 1)
  let b := setWh (fun x => { x with running := x.running.filter fun v => v.whorl != r.whorl }) b
  if rest = 0 then b else requeueHead (r.unit.home.getD (spindleOf r.whorl)) { r.unit with blocks := rest, home := none } b

/-- A waiting slot unit of a spindle takes a reserved or adopted whorl that works on another unit (R44, R45, R47). -/
def preempt (sp : Nat) (u : WUnit) (b : Block) : Block :=
  if !(queueOf sp b).any (fun v => v.id == u.id) then b
  else match b.wh.running.find? fun r => !r.unit.slotUnit && (serversOf sp b).contains r.whorl with
    | some r => startOn sp r.whorl u (dropRun r b)
    | none => b

/-! ### Submission (R39, R41) -/

/-- A unit reaches its home queue and starts where a whorl is free for it, a slot unit also where one works on other units; else its
consumer waits with it (R41, R45). -/
def place (u : WUnit) (b : Block) : Block := match enqueue u b with
  | none => setWh (fun w => { w with waiting := w.waiting ++ [u] }) b
  | some (sp, b) =>
    let b := startIdle 64 sp b
    if u.slotUnit then preempt sp u b else b

/-- Submit a unit. -/
def submitUnit (slotUnit forced : Bool) (entry : BitVec 64) (keyId slot tier blocks : Nat) (b : Block) : Block :=
  let u : WUnit := { id := b.mem.nextId, entry := entry, keyId := keyId, slot := slot, tier := tier, blocks := blocks, slotUnit := slotUnit, forced := forced }
  let b := setMem (fun m => { m with nextId := m.nextId + 1 }) b
  let b := match targetSpindle slotUnit keyId slot b with
    | some sp => sampleLevel 0x12 sp (queueOf sp b).length b
    | none => b
  let b := if slotUnit then sampleTime 4 0 b else b
  bumpGlob 928 blocks (onArray (place u) b)

def submit (slotUnit : Bool) (entry : BitVec 64) (keyId slot tier blocks : Nat) (b : Block) : Block :=
  submitUnit slotUnit false entry keyId slot tier blocks b

/-- Ledger entries of R64: a memory line, a link unit, a message segment. -/
def ledgerLine (gen keyId addr : Nat) : BitVec 64 := BitVec.ofNat 64 ((gen % 16) <<< 58 + (keyId % 4096) <<< 46 + addr / 64 % 2 ^ 46)
def ledgerLink (port channel seq : Nat) : BitVec 64 :=
  BitVec.ofNat 64 (1 <<< 62 + (port % 32) <<< 57 + (channel % 4096) <<< 45 + seq % 2 ^ 45)
def ledgerMsg (slot ringIndex block : Nat) : BitVec 64 :=
  BitVec.ofNat 64 (2 <<< 62 + (slot % 64) <<< 56 + (ringIndex % 65536) <<< 40 + block % 2 ^ 40)

/-- The precedence tier of a line's unit, whether its blocks are all re-spun (R49, R60), and LAYER and OPERATOR of the work item that it
belongs to, if any (R459). -/
structure Work where
  tier : Nat := 5
  forced : Bool := false
  item : Option (Nat × Nat) := none

/-- Count for a work item in its bucket (R459). -/
def countItem (item : Option (Nat × Nat)) (n off k : Nat) (b : Block) : Block := match item with
  | some (layer, operator) => bumpBucket n layer operator off k b
  | none => b
/-- Count a data line that a work item reads or writes, in its skein's window and its bucket (R458, R459). -/
def countLine (item : Option (Nat × Nat)) (n : Nat) (wr : Bool) (b : Block) : Block :=
  if item.isSome then countItem item n 16 64 (bumpSk n (if wr then 24 else 16) 64 b) else b

/-- Slot number of a unit of no resident skein. -/
def noSlot : Nat := 64
/-- Slot that a skein's units carry. -/
def unitSlot (n : Option Nat) (b : Block) : Nat := ((n.bind fun n => getSkein n b).bind (·.slot)).getD noSlot

/-- Block key IDs under which the ledgers hold class B lines and tree nodes (R304). DESIGN CHOICE: the spec names the range alone. -/
def classBKeyId : Nat := 0xFC0
def treeKeyId : Nat := 0xFC1

/-- Submit the unit of one memory line for a skein: its blocks, and those of its forced checks, count (R39, R44, R458). Class E lines of
the slot-class skein in tier 5 are slot units. -/
def submitLineF (forced : Bool) (n : Option Nat) (isE : Bool) (gen keyId addr tier blocks : Nat) (b : Block) : Block :=
  let slotUnit := isE && tier == 5 && (match n.bind fun n => getSkein n b with | some s => s.slotClass | none => false)
  let b := submitUnit slotUnit forced (ledgerLine gen keyId addr) keyId (unitSlot n b) (if slotUnit then 1 else tier) blocks b
  match n with
  | some n => bumpSk n 48 blocks b
  | none => b
def submitLine (n : Option Nat) (isE : Bool) (gen keyId addr tier blocks : Nat) (b : Block) : Block :=
  submitLineF false n isE gen keyId addr tier blocks b

/-- The unit of one memory line for a skein, whose blocks count for its work item too (R459). -/
def submitWork (wk : Work) (n : Nat) (isE : Bool) (gen keyId addr blocks : Nat) (b : Block) : Block :=
  countItem wk.item n 24 blocks (submitLineF wk.forced (some n) isE gen keyId addr wk.tier blocks b)

/-- Units of long data for the skein of a slot, in segments of at most 64 blocks (R39, R458). -/
def submitLink (slotUnit : Bool) (entry : BitVec 64) (slot tier blocks : Nat) (b : Block) : Block :=
  let b := match slotSkein slot b with | some (n, _) => bumpSk n 48 blocks b | none => b
  (List.range ((blocks + 63) / 64)).foldl (fun b i => submit slotUnit entry 0 slot tier (min 64 (blocks - 64 * i)) b) b

/-! ### The tick -/

/-- Blocks that a whorl accepts in a tick, between the slow and the fast corner; a free value (R36). -/
def whorlRate (b : Block) : Nat := 667 + Config.whorlRate b.tick % 763

/-- What is left of a tick's capacity: blocks by spindle, and what tiers 4 and 7 have taken. -/
structure Service where
  left : List (Nat × Nat)
  four : Nat := 0
  seven : Nat := 0

/-- Serve a spindle's queue in the tiers given while its capacity lasts: each unit goes to a whorl of the array's choice, and is done
within the tick. -/
def serveSpindle (tiers : Nat → Bool) (cap7 : Nat) : Nat → Nat → Service → Block → Service × Block
  | 0, _, v, b => (v, b)
  | k + 1, sp, v, b =>
    if amGetD 0 sp v.left = 0 || !spindleIn sp b then (v, b)
    else match pickUnit sp (fun t => tiers t && (t != 7 || decide (v.seven < cap7))) (decide (64 * whorlRate b ≤ v.four)) b with
      | none => (v, b)
      | some (u, c) => match pickOne ((startersOf sp b).filter fun w => mayStart u w b) c with
        | none => (v, b)
        | some (w, c) =>
          let v := { v with
            left := amPut 0 sp (amGetD 0 sp v.left - u.blocks) v.left,
            four := if u.tier = 4 then v.four + u.blocks else v.four, seven := if u.tier = 7 then v.seven + u.blocks else v.seven }
          serveSpindle tiers cap7 k sp v (produce w u u.blocks (unqueue sp u c))

/-- Serve every spindle that does not stand still, reserved ones first. -/
def serveAll (tiers : Nat → Bool) (cap7 : Nat) (v : Service) (b : Block) : Service × Block :=
  (b.wh.queues.reverse.filter fun q => !Config.spindleStalls b.tick q.1).foldl
    (fun (a : Service × Block) q => serveSpindle tiers cap7 q.2.length q.1 a.1 a.2) (v, b)

/-- Tiers with units that wait in a queue or at their submission point. -/
def waitingTiers (b : Block) : List Nat :=
  ((b.wh.queues.flatMap (·.2) ++ b.wh.waiting).map (·.tier)).eraseDups

/-- Let waiting consumers submit, oldest first; a unit stays behind an older one of its slot and tier (R41). -/
def admitWaiting (b : Block) : Block :=
  let ws := b.wh.waiting
  ws.foldl (fun b u =>
    if b.wh.waiting.any fun v => v.slot == u.slot && v.tier == u.tier then setWh (fun w => { w with waiting := w.waiting ++ [u] }) b
    else match enqueue u b with
      | some (_, b) => b
      | none => setWh (fun w => { w with waiting := w.waiting ++ [u] }) b) (setWh (fun w => { w with waiting := [] }) b)

/-- Serve tiers 1 to 5; tier 6 only where none of them is left waiting, and tier 7, up to the carder's ceiling, only where nothing
else is (R49, R54). -/
def serveTiers (cap7 : Nat) (v : Service) (b : Block) : Service × Block :=
  let (v, b) := serveAll (fun t => decide (t ≤ 5)) cap7 v b
  if (waitingTiers b).any (· ≤ 5) then (v, b)
  else
    let (v, b) := serveAll (· == 6) cap7 v b
    if (waitingTiers b).any (· ≤ 6) then (v, b) else serveAll (· == 7) cap7 v b

/-- Rounds of service and of admission, until no consumer waits or nothing moves. -/
def serveRounds : Nat → Nat → Service → Block → Service × Block
  | 0, cap7, v, b => serveTiers cap7 v b
  | k + 1, cap7, v, b =>
    let (v, b) := serveTiers cap7 v (admitWaiting b)
    if b.wh.waiting.isEmpty then (v, b) else serveRounds k cap7 v b

/-- Capacity of each spindle in a tick: its working whorls, for a reserved one with the adopted ones, less the check blocks that its
whorls run before all but slot units (R49). -/
def capacity (b : Block) : List (Nat × Nat) :=
  (List.range b.row.spindles).foldl (fun m sp =>
    let n := (startersOf sp b).length * whorlRate b
    amPut 0 sp (n - sumNat ((b.wh.checks.filter fun c => spindleOf c.checker == sp).map (·.blocks))) m) []

/-- Spindles that hold a unit and an idle whorl and start none, or leave a steal request unanswered (R405). -/
def noteStill (b : Block) : Block :=
  let stuck (sp : Nat) : Bool := Config.spindleStalls b.tick sp && spindleIn sp b && !(queueOf sp b).isEmpty &&
    (!(startersOf sp b).isEmpty || (amGet sp b.wh.stillSince).isSome)
  setWh (fun w => { w with stillSince := (w.queues.map (·.1)).foldl (fun m sp =>
    if stuck sp then amPut 0 sp (amGetD b.tick sp w.stillSince) m else m) [] }) b

/-- The array's work in a tick: every whorl that does not stand still ends what it ran, checks of earlier ticks have ended in agreement
where no comparison said otherwise (R61), and the arbiters serve what waits. DESIGN CHOICE: a unit holds its whorl until the tick after
its start, since the spec gives times of nanoseconds alone. -/
def whorlTick (b : Block) : Block :=
  let b := setWh (fun x => { x with
    running := x.running.filter fun r => Config.whorlStalls b.tick r.whorl,
    checks := x.checks.filter fun c => decide (b.tick ≤ c.since + 1) }) b
  let cap7 := bitField b.regs.fltCarder 15 8 * 625 / 2
  let b := if b.wh.queues.isEmpty && b.wh.waiting.isEmpty then b
    else (serveRounds (b.wh.waiting.length + 1) cap7 { left := capacity b } b).2
  noteStill (setWh (fun w => { w with unmet := waitingTiers b }) b)

end Sys2Proof.Machine
end

