-- ==== Sys2Proof/Machine/Dma.lean ====
section
/-! DEFINITION. What Frexis reads and writes in host memory (R484): the path of a transfer, and the IDE that a host port applies
to it (R239 to R243, R248). Choices marked in the log: DEDUCED 68, 69, 75. -/

namespace Sys2Proof.Machine

def setHost (f : HostSide → HostSide) (b : Block) : Block := { b with host := f b.host }
def getPort (h : Nat) (b : Block) : HostPort := amGetD {} h b.host.ports
def modPort (h : Nat) (f : HostPort → HostPort) (b : Block) : Block :=
  setHost (fun x => { x with ports := amPut {} h (f (amGetD {} h x.ports)) x.ports }) b
def getStream (h i : Nat) (b : Block) : IdeStream := amGetD {} i (getPort h b).streams
def modStream (h i : Nat) (f : IdeStream → IdeStream) (b : Block) : Block :=
  modPort h (fun p => { p with streams := amPut {} i (f (amGetD {} i p.streams)) p.streams }) b

/-- CONFIG_LOCKED or RUN. -/
def TdiRec.held (t : TdiRec) : Bool := t.st = .locked || t.st = .run

/-- The skein's TDI enters ERROR from CONFIG_LOCKED or RUN (R249). -/
def tdiFail (n : Nat) (b : Block) : Block :=
  modSkein n (fun s => if s.tdi.held then { s with tdi := { s.tdi with st := .error } } else s) b

/-- The TDI of virtual function n is the function of defined skein n − 1 (R244); it outlives the skein. -/
def getTdi (n : Nat) (b : Block) : TdiRec := match getSkein n b with
  | some s => s.tdi
  | none => amGetD {} n b.host.tdis
def putTdi (n : Nat) (t : TdiRec) (b : Block) : Block := match getSkein n b with
  | some _ => modSkein n (fun s => { s with tdi := t }) b
  | none => setHost (fun h => { h with tdis := amPut {} n t h.tdis }) b

/-- Skeins whose TDI is locked to a stream of a port. -/
def boundTo (h stream : Nat) (b : Block) : List Nat :=
  (b.skeins.filter fun e => e.2.tdi.held && e.2.tdi.port == h && e.2.tdi.stream == stream).map (·.1)

/-- A stream leaves Secure: its keys go, and every TDI bound to it enters ERROR (R242, R249); the skeins concerned. -/
def streamInsecure (h i : Nat) (b : Block) : List Nat × Block :=
  let ns := boundTo h i b
  let b := modStream h i (fun s => { s with secure := false, sets := [], txSet := [] }) b
  (ns, ns.foldl (fun b n => tdiFail n b) b)

/-- Index of a key set: direction, sub-stream, K bit. -/
def setIndex (tx : Bool) (sub : Nat) (k : Bool) : Nat := 6 * b2n tx + 2 * sub + b2n k

/-- IV of an IDE TLP: a zero fixed field and the 64-bit invocation counter. -/
def ideIv (ctr : BitVec 64) : Bytes := zeroBytes 4 ++ be64 ctr

/-- The key set that a sub-stream of a Secure stream transmits under, with its index (R241); none where IDE does not apply (R238). -/
def txKeys (h i sub : Nat) (b : Block) : Option (Nat × IdeSet) :=
  let s := getStream h i b
  if !(getPort h b).flit || !s.secure then none
  else (amGet sub s.txSet).bind fun k => (amGet (6 + 2 * sub + k) s.sets).map fun x => (6 + 2 * sub + k, x)

/-- Transmit a TLP on a stream of a host port under the set that K_SET_GO named: its link unit runs, and the counter advances (R241,
R243). The stream moves to Insecure once its last counter value is used, before one could repeat (R242). One request makes one TLP:
DESIGN CHOICE, the division is the PCIe controller's. -/
def ideSend (h i sub slot : Nat) (hdr data : Bytes) (b : Block) : Block := match txKeys h i sub b with
  | none => b
  | some (j, ks) =>
    let b := submitLink false (ledgerLink (18 + h) i ks.ctr.toNat) slot 5 ((data.length + 15) / 16 + 1) b
    let ct := gcmCrypt ks.key (ideIv ks.ctr) data
    let b := emit (.tlp h (hdr ++ ct ++ (gcmTag ks.key (ideIv ks.ctr) hdr ct).take 12)) b
    if ks.ctr = 0xFFFFFFFFFFFFFFFF then (streamInsecure h i b).2
    else modStream h i (fun s => { s with sets := amSet j { ks with ctr := ks.ctr + 1 } s.sets }) b

/-- Host port of a skein's transfers, or of the block's own (R484). -/
def hostPortOf (n : Option Nat) (b : Block) : Nat := match n.bind fun n => getSkein n b with
  | some s => if s.tdi.held then s.tdi.port else 0
  | none => 0

/-- Count bytes on a host port (R455, R458). -/
def countHost (n : Option Nat) (tx : Bool) (bytes : Nat) (b : Block) : Block :=
  let b := bumpGlob ((if tx then 688 else 704) + 8 * hostPortOf n b) bytes b
  match n with
  | some n => bumpSk n 72 bytes b
  | none => b

/-- The link stream of a host port is Secure (R248). -/
def linkSecure (h : Nat) (b : Block) : Bool :=
  (((amGet h b.host.ports).bind fun p => amGet 64 p.streams).map (·.secure)).getD false

/-- DMA host port, stream and T bit of a skein's transfers; stream 64 is the link stream, 127 none. The block's own transfers take host
port 0 (R248, R484). -/
def dmaPath (n : Option Nat) (b : Block) : DmaPath :=
  let h := hostPortOf n b
  match n.bind fun n => getSkein n b with
  | some s => if s.tdi.st = .run then ⟨h, s.tdi.stream, true⟩ else ⟨h, if linkSecure h b then 64 else 127, false⟩
  | none => ⟨h, 127, false⟩

/-- A transfer's TLP: a posted write (sub-stream 0) or a non-posted read (sub-stream 1); its header is the standard's. -/
def hostTlp (n : Option Nat) (p : DmaPath) (read : Bool) (addr len : Nat) (data : Bytes) (b : Block) : Block :=
  ideSend p.port p.stream (b2n read) (unitSlot n b) (Config.stdBody 7 ([BitVec.ofNat 8 (b2n read)] ++ leBytes 8 addr ++ leBytes 4 len)) data b

/-- Present a host write for a skein, or for the block itself (R248, R484). -/
def writeHost (n : Option Nat) (addr : Nat) (bs : Bytes) (b : Block) : Block :=
  if bs = [] then b
  else
    let p := dmaPath n b
    hostTlp n p false addr bs.length bs (countHost n true bs.length (emit (.host p addr bs) b))
def skeinWrite (n addr : Nat) (bs : Bytes) (b : Block) : Block := writeHost (some n) addr bs b
def hostWrite (addr : Nat) (bs : Bytes) (b : Block) : Block := writeHost none addr bs b

/-- Present a host read for a skein, or for the block itself; the data come with the command that takes them (R248, R484). -/
def readHost (n : Option Nat) (addr len : Nat) (b : Block) : Block :=
  if len = 0 then b
  else
    let p := dmaPath n b
    hostTlp n p true addr len [] (countHost n false len (emit (.hostRead p addr len) b))

end Sys2Proof.Machine
end

