-- ==== Sys2Proof/Machine/Ops.lean ====
section
/-! DEFINITION. The shared operations of control: views, events, fences, records, descriptors (12_rings_replies_fences). Choices
marked in the log: DEDUCED 39, 41, 43, 46, 58, 61, 65, 75, 119, 137. -/

namespace Sys2Proof.Machine

/-! ### Ring pairs and views -/

/-- The ring pair of a ring. -/
def getRing (r : Ring) (b : Block) : Option RingPair := match r with
  | .mgr => some b.mgr
  | .skein n => (getSkein n b).map (·.ring)
def modRing (r : Ring) (f : RingPair → RingPair) (b : Block) : Block := match r with
  | .mgr => { b with mgr := f b.mgr }
  | .skein n => modSkein n (fun s => { s with ring := f s.ring }) b
/-- The attention view of a ring (R378). -/
def getView (r : Ring) (b : Block) : View := match r with
  | .mgr => b.mgrView
  | .skein n => ((getSkein n b).map (·.view)).getD {}
def modView (r : Ring) (f : View → View) (b : Block) : Block := match r with
  | .mgr => { b with mgrView := f b.mgrView }
  | .skein n => modSkein n (fun s => { s with view := f s.view }) b

/-- The 16-bit reply status of a view (R377, R379). -/
def View.status (v : View) : BitVec 16 :=
  BitVec.ofNat 16 (b2n (v.aseq != v.acked) * 32768 + v.aclass % 8 * 4096 + b2n v.skeinLocal * 2048 + v.aseq.toNat)

/-- Entries of a ring from its ring field (R361). -/
def ringEntries (f : BitVec 64) : Nat := 2 ^ (6 + bitField f 3 0)
/-- Records the completion ring can still take beyond those reserved (R367). -/
def RingPair.free (p : RingPair) : Nat := ringEntries p.cq - (p.cqProd - p.cqHead).toNat - p.reserved

/-- The fence set of a ring. -/
def ringOwner : Ring → Option Nat
  | .mgr => none
  | .skein n => some n

/-- The 32 bytes of a record (R373). -/
def CRec.bytes (c : CRec) : Bytes :=
  toBytes 1 c.opcode ++ toBytes 1 c.status ++ toBytes 2 c.replyStatus ++ toBytes 2 c.ringIndex ++ toBytes 1 c.kind ++
    [BitVec.ofNat 8 (b2n c.phase + 2 * b2n c.forced)] ++ toBytes 2 c.sqHead ++ toBytes 2 c.lost ++ toBytes 20 c.result

/-- Write a record whole into the next entry of the completion ring (R367, R373). -/
def putRecord (r : Ring) (q : QRec) (forced : Bool) (b : Block) : Block :=
  match getRing r b with
  | none => b
  | some p =>
    let n := ringEntries p.cq
    let c : CRec :=
      { opcode := q.opcode, status := q.status, replyStatus := (getView r b).status, ringIndex := q.ringIndex,
        kind := q.kind, phase := p.cqProd.toNat / n % 2 == 0, forced := forced, sqHead := p.sqHead.setWidth 16,
        lost := BitVec.ofNat 16 (min p.lost 65535), result := q.result }
    let path := dmaPath (ringOwner r) b
    let b := hostTlp (ringOwner r) path false (bitField p.cq 63 12 * 4096 + 32 * (p.cqProd.toNat % n)) 32 c.bytes
      (countHost (ringOwner r) true 32 b)
    emit (.record r path (p.cqProd.toNat % n) c) (modRing r (fun p => { p with cqProd := p.cqProd + 1, lost := 0 }) b)

/-- Whether a ring's records are posted: not for a SWAPPED skein, and never for one being destroyed (R368, R291). -/
def ringState (r : Ring) (b : Block) : Option SkSt := match r with
  | .mgr => none
  | .skein n => (getSkein n b).map (·.st)

/-- The ring's TDI is in ERROR, so its records wait (R249). -/
def tdiError (r : Ring) (b : Block) : Bool := match r with
  | .mgr => false
  | .skein n => match getSkein n b with
    | some s => s.tdi.st = .error && s.st != .destroying
    | none => false

/-- Post an unsolicited record; the flag says that it was dropped (R368). -/
def postUnsol (r : Ring) (q : QRec) (b : Block) : Block × Bool :=
  match getRing r b with
  | none => (b, false)
  | some p =>
    if ringState r b = some .destroying then (b, false)
    else if ringState r b = some .swapped then (modRing r (fun p => { p with lost := satAdd 16 p.lost 1 }) b, false)
    else if p.queued.isEmpty && !tdiError r b && decide (0 < p.free) && (r != .mgr || b.regs.ringEnable) then (putRecord r q false b, false)
    else if p.queued.length < 64 then (modRing r (fun p => { p with queued := p.queued ++ [q] }) b, false)
    else (modRing r (fun p => { p with lost := satAdd 16 p.lost 1 }) b, true)

/-- Post the records held on chip while entries are free (R368). -/
def flushQueued : Nat → Ring → Block → Block
  | 0, _, b => b
  | k + 1, r, b => match getRing r b with
    | none => b
    | some p => match p.queued with
      | [] => b
      | q :: qs =>
        if p.free = 0 then b
        else flushQueued k r (putRecord r q false (modRing r (fun p => { p with queued := qs }) b))

/-- A value placed in RESULT at record offset `off` (R373, R375). -/
def resAt (off n v : Nat) : BitVec 160 := putAt 160 (off - 12) n v

/-- An attention event (R377, R380). -/
structure Event where
  cls : Nat
  /-- SKEIN_LOCAL with the skein it concerns; none: the block. -/
  skein : Option Nat := none
  /-- SKEIN_LOCAL set although no skein's view exists for it (R20). -/
  noView : Bool := false
  /-- Manager-local (R378). -/
  mgrOnly : Bool := false
  cause : BitVec 8 := 0
  object : Nat := 0
  fault : Nat := 0

/-- Enter an event in one view, and post its ATTENTION record; the flag says that the record was dropped (R378, R380). -/
def enterView (r : Ring) (e : Event) (b : Block) : Block × Bool :=
  let b := modView r (fun v => { v with aseq := v.aseq + 1, aclass := e.cls, skeinLocal := e.skein.isSome || e.noView }) b
  let b := spoolEvent 0 (ownerOf e.skein) e.cause.toNat e.cls (if e.object = 0 then e.fault else e.object) b
  let v := getView r b
  postUnsol r
    { opcode := 0, status := 0, ringIndex := 0, kind := 3,
      result := resAt 12 1 e.cause.toNat ||| resAt 13 1 e.cls ||| resAt 14 1 v.aseq.toNat ||| resAt 16 8 e.object |||
        resAt 24 4 e.fault } b

/-- An event whose ACLASS bit is set in SPL_CTRL.TRIG_ACLASS is one trigger, however many views it enters (R466). -/
def triggerOn (cls : Nat) (b : Block) : Block := if b.regs.splCtrl.getLsbD (40 + cls) then spoolTrigger 2 b else b

/-- Enter an event; a dropped record raises ACLASS 1 once, whose own record may be dropped in silence (R368). -/
def enterOvf (r : Ring) (e : Event) (b : Block) : Block :=
  let (b, dropped) := enterView r e b
  if dropped then
    match r with
    | .mgr => triggerOn 1 (enterView .mgr { cls := 1, mgrOnly := true } b).1
    | .skein n =>
      let b := (enterView r { cls := 1, skein := some n } b).1
      triggerOn 1 (enterView .mgr { cls := 1, skein := some n } b).1
  else b

/-- Post an unsolicited record and raise the overflow event if it is dropped (R368). -/
def postRecord (r : Ring) (q : QRec) (b : Block) : Block :=
  let (b, dropped) := postUnsol r q b
  if dropped then
    match r with
    | .mgr => triggerOn 1 (enterOvf .mgr { cls := 1, mgrOnly := true } b)
    | .skein n => triggerOn 1 (enterOvf .mgr { cls := 1, skein := some n } (enterOvf r { cls := 1, skein := some n } b))
  else b

/-- Raise an event in the views it enters (R378). -/
def raiseViews (e : Event) (b : Block) : Block := triggerOn e.cls <|
  if e.mgrOnly || e.noView then enterOvf .mgr e b
  else match e.skein with
    | some n =>
      let b := if (getSkein n b).isSome then enterOvf (.skein n) e b else b
      enterOvf .mgr e b
    | none =>
      let b := enterOvf .mgr e b
      b.skeins.foldl (fun b s => enterOvf (.skein s.1) e b) b

/-! ### Fences -/

/-- The fence set of an owner (none: the manager). -/
def getFence (o : Option Nat) (i : Nat) (b : Block) : Fence := match o with
  | none => amGetD {} i b.mgrFences
  | some n => ((getSkein n b).map fun s => amGetD {} i s.fences).getD {}
def setFence (o : Option Nat) (i : Nat) (f : Fence) (b : Block) : Block := match o with
  | none => { b with mgrFences := amPut {} i f b.mgrFences }
  | some n => modSkein n (fun s => { s with fences := amPut {} i f s.fences }) b
def modFence (o : Option Nat) (i : Nat) (g : Fence → Fence) (b : Block) : Block := setFence o i (g (getFence o i b)) b

/-- A destroyed skein's fences are frozen (R289). -/
def frozen (o : Option Nat) (b : Block) : Bool := match o with
  | none => false
  | some n => (getSkein n b).map (·.st) == some .destroying

/-- The greatest value a signal may take a fence to (R382). -/
def fenceTop : Nat := 0xFFFFFFFFFFFFFFFE

/-- signal(f, v) of R382 on a fence: its code and the fence after it. -/
def Fence.signal (f : Fence) (v : Nat) : BitVec 8 × Fence :=
  if f.error then (f.code, f)
  else if v ≥ fenceTop then (cFenceExh, { f with error := true, code := cFenceExh })
  else if v < f.value.toNat then (cFenceReg, f)
  else (cOK, { f with value := BitVec.ofNat 64 v })

/-- satisfied(w, f) of R382. -/
def Fence.satisfied (f : Fence) (target : BitVec 64) : Bool := !f.error && decide (target.toNat ≤ f.value.toNat)

/-- Signal a fence of a set (R382); regressions are counted. -/
def signalFence (o : Option Nat) (i v : Nat) (b : Block) : BitVec 8 × Block :=
  if frozen o b then (cOK, b)
  else
    let (c, f) := (getFence o i b).signal v
    let b := setFence o i f b
    match o with
    | some n => (c, if c = cFenceReg then bumpSk n 120 1 b else if c = cOK then progress n b else b)
    | none => (c, b)

/-- Put a fence into error with a code; the first code stays (R383). -/
def errorFence (o : Option Nat) (i : Nat) (c : BitVec 8) (b : Block) : Block :=
  if frozen o b then b
  else modFence o i (fun f => if f.error then f else { f with error := true, code := c }) b

/-! ### Hank references -/

def getHank (h : Nat) (b : Block) : Hank := amGetD {} h b.mem.hanks
def setHank (h : Nat) (x : Hank) (b : Block) : Block := setMem (fun m => { m with hanks := amPut {} h x m.hanks }) b

/-- Whether a quarantined range lies in the hank, or the hank in the range (R104). -/
def hankQuarantined (h : Nat) (b : Block) : Bool :=
  b.mem.quar.any fun q => decide (q.base < (h + 1) * hankBytes) && decide (h * hankBytes < q.base + q.size)

/-- A hank whose counts allow it passes to ZEROING, or to QUARANTINE_HELD (R149, R391, R392). -/
def settleHank (h : Nat) (b : Block) : Block :=
  let x := getHank h b
  if x.uses != 0 then b
  else if (x.st = .allocated && x.holds == 0) || x.st = .revoked then
    let b := setMem (fun m => { m with zorder := m.zorder + 1 }) b
    let y := { x with revokedMark := decide (x.st = HankSt.revoked), order := b.mem.zorder }
    if x.step > 15 then setHank h { y with st := HankSt.retired } b
    else if x.reinit || hankQuarantined h b then setHank h { y with st := HankSt.quarHeld } b
    else setHank h { y with st := HankSt.zeroing } b
  else b

def useHanks (hs : List Nat) (b : Block) : Block :=
  hs.foldl (fun b h => setHank h { getHank h b with uses := (getHank h b).uses + 1 } b) b
def dropHanks (hs : List Nat) (b : Block) : Block :=
  hs.foldl (fun b h => settleHank h (setHank h { getHank h b with uses := (getHank h b).uses - 1 } b)) b

/-! ### Descriptors -/

def dOpcode (d : Line) : Nat := fieldAt d 0 1
def dSig (d : Line) : Bool := d.getLsbD 8
def dChain (d : Line) : Bool := d.getLsbD 9
def dSigFence (d : Line) : Nat := fieldAt d 2 2 % 4096
def dSigValue (d : Line) : Nat := fieldAt d 8 8
def dLayer (d : Line) : Nat := fieldAt d 4 2
def dOperator (d : Line) : Nat := fieldAt d 6 2

/-- Reserved header bits (R369): FLAGS [7:2], SIG_FENCE [15:12], and SIG_FENCE and SIG_VALUE when SIG is 0. -/
def hdrReserved (d : Line) : Bool :=
  fieldAt d 1 1 / 4 != 0 || fieldAt d 2 2 / 4096 != 0 || (!dSig d && (fieldAt d 2 2 != 0 || fieldAt d 8 8 != 0))

/-- Some body byte outside the listed (offset, size) fields is not zero (R10, R371). -/
def bodyReserved (d : Line) (fields : List (Nat × Nat)) : Bool :=
  (List.range 64).any fun i =>
    decide (16 ≤ i) && !(fields.any fun f => decide (f.1 ≤ i) && decide (i < f.1 + f.2)) && fieldAt d i 1 != 0

/-- Where an opcode is accepted, and whether it is a control operation (R370). -/
inductive OnRing where
  | any | skein | mgr
deriving DecidableEq, Repr

def opcodeInfo (op : Nat) : Option (OnRing × Bool) :=
  if op = 1 || op = 2 || op = 3 then some (.any, false)
  else if op = 8 || op = 9 then some (.any, true)
  else if op = 10 || op = 0x20 || op = 0x21 || op = 0x22 then some (.skein, true)
  else if op = 0x10 || op = 0x11 || op = 0x12 || op = 0x18 || op = 0x19 || op = 0x28 || op = 0x30 || op = 0x38 then
    some (.skein, false)
  else if (0x40 ≤ op && op ≤ 0x44) || op = 0x48 || op = 0x50 || op = 0x58 then some (.mgr, true)
  else none

/-- The defined skein that a control operation touches (R34). -/
def touches (r : Ring) (d : Line) : Option Nat := match r with
  | .skein n => some n
  | .mgr =>
    let op := dOpcode d
    if op = 8 then some (fieldAt d 20 2) else if op = 9 then some (fieldAt d 28 2)
    else if (0x40 ≤ op && op ≤ 0x44) || op = 0x48 then some (fieldAt d 16 2) else none

def isControl (d : Line) : Bool := ((opcodeInfo (dOpcode d)).map (·.2)).getD false

/-- The skein whose earlier control operations a descriptor waits for: that of a control operation, and the target of a SEAL_OUT
with FIRE, whose own effect for R34 is the scheduling (R34, R129). -/
def ordered (r : Ring) (d : Line) : Option Nat :=
  if isControl d then touches r d
  else if dOpcode d = 0x18 && (fieldAt d 16 1).testBit 1 then some (fieldAt d 32 2 % 1024) else none

/-- A descriptor has been accepted and has not begun. -/
def Phase.waits : Phase → Bool
  | .chained _ => true
  | .chainDone _ => true
  | .control => true
  | .ready => true
  | _ => false

/-- A descriptor that later operations on the skein wait for: a control operation until it is whole, another until it begins (R34, R370). -/
def blocks (n : Nat) (x : Desc) : Bool :=
  ordered x.ring x.raw == some n && (x.phase.waits || (isControl x.raw && x.phase != .effected))

/-- An operation on the skein from before place `t` has not taken effect whole (R34): a descriptor, a held management operation, a PENDING
cell (R153), or a swap-out past its drain that waits for the ladder. -/
def busyBefore (n t : Nat) (b : Block) : Bool :=
  (b.descs.any fun x => decide (x.id < t) && blocks n x) || (b.held.any fun h => decide (h.stamp < t) && h.skein == some n) ||
    (match getSkein n b with
      | some s => (s.cellOrder.any fun c => decide (c.2 < t)) || (s.drains.any fun d => d.atLadder && decide (d.stamp < t))
      | none => false)

/-- The place in the order of acceptance of the operation that is being tried. -/
def turnOf (b : Block) : Nat := b.serving.getD b.nextDesc

/-- An earlier operation on the skein has not taken effect whole (R34). -/
def controlBusy (n : Nat) (b : Block) : Bool := busyBefore n (turnOf b) b

/-- Where an operation stands that a drain does not hold: the requests of a QUIESCING skein are served, and a resume or a destroy ends the
drain (R267, R272, R274). It comes before what waits for the drain. -/
def pastDrain (n t : Nat) (b : Block) : Nat := match getSkein n b with
  | some s => if s.st = .quiescing then s.drains.foldl (fun t d => min t d.stamp) t else t
  | none => t

/-- SKEIN_QUIESCE with MODE 0, SKEIN_SWAP_OUT and SKEIN_DESTROY: from acceptance on they stop their skein's fetches (R272, R279, R289). -/
def stopsFetch (d : Line) : Bool := (dOpcode d == 0x41 && fieldAt d 18 1 == 0) || dOpcode d == 0x42 || dOpcode d == 0x43

/-- A resume and a destroy, which end a drain (R267, R274). -/
def endsDrain (d : Line) : Bool := (dOpcode d == 0x41 && fieldAt d 18 1 == 1) || dOpcode d == 0x42

/-- An accepted operation has stopped the skein's fetches, although it has not begun (R272, R366). -/
def fetchStopped (n : Nat) (b : Block) : Bool :=
  b.descs.any fun x => x.phase.waits && stopsFetch x.raw && touches x.ring x.raw == some n

/-- The skein's own descriptors and cells are what the drain of such an operation waits for (R273, R289). -/
def drainsOwn (n : Nat) (d : Line) (b : Block) : Bool :=
  stopsFetch d && (dOpcode d == 0x42 || ((getSkein n b).any fun s => s.st = .resident || s.st = .quiescing))

/-- The block as an operation sees it whose drain waits for the skein's own work. -/
def withoutOwn (n : Nat) (b : Block) : Block :=
  modSkein n (fun s => { s with cellOrder := [] }) { b with descs := b.descs.filter fun x => x.ring != .skein n }

/-- An earlier operation holds an accepted descriptor (R34). -/
def heldByControl (x : Desc) (b : Block) : Bool := match ordered x.ring x.raw with
  | none => false
  | some n =>
    busyBefore n (if endsDrain x.raw then pastDrain n x.id b else x.id) (if drainsOwn n x.raw b then withoutOwn n b else b)

/-- Hold a management operation until its turn (R34, R303). -/
def hold (n : Option Nat) (c : Instr) (b : Block) : Block :=
  { b with held := b.held ++ [{ stamp := turnOf b, skein := n, cmd := c }], nextDesc := b.nextDesc + 1 }

/-- Descriptors that need the security firmware or the key ladder (R344, R407). -/
def needsFirmware (d : Line) : Bool :=
  let op := dOpcode d
  op = 0x20 || op = 0x21 || op = 0x22 || op = 0x28 || op = 0x43 || op = 0x44 || (op = 0x41 && fieldAt d 18 1 = 2) || op = 0x58

/-- Busy periods in which an opcode completes with BUSY_UPDATING (R344, R359). -/
def busyFor (d : Line) (b : Block) : Bool :=
  let op := dOpcode d
  (b.regs.dstStatus.getLsbD 11 && needsFirmware d) ||
  (b.lcBusy && (op = 0x40 || op = 0x44 || op = 0x20 || op = 0x21))

/-- Frexis offers service (R513), and no low-power state or reset stops its fetches (R435, R408). -/
def inService (b : Block) : Bool :=
  b.regs.dstStatus.getLsbD 0 && !b.regs.dstStatus.getLsbD 1 && !b.regs.dstStatus.getLsbD 6 && !b.regs.dstStatus.getLsbD 8 &&
    b.awake

/-- The remaining checks of R372 that an opcode makes, in their order. -/
structure Checks where
  c3 : Option (BitVec 8) := none
  c4 : Bool := false
  c5 : Option (BitVec 8) := none
  c6 : Bool := false
  c7 : Option (BitVec 8) := none
  c8 : Option (BitVec 8) := none

def failIf (p : Bool) (c : BitVec 8) : Option (BitVec 8) := if p then some c else none

/-- The key ID of a request address (R19). -/
def raKey (a : Nat) : Nat := a / 2 ^ 52 % 4096

/-- The key IDs that a descriptor names, in its own fields or in its request addresses (R371). -/
def namedKeys (d : Line) : List Nat :=
  let op := dOpcode d
  if op = 8 || op = 0x19 || op = 0x20 || op = 0x21 || op = 0x22 then [fieldAt d 16 2]
  else if op = 0x10 then [raKey (fieldAt d 40 8)]
  else if op = 0x11 || op = 0x12 then [raKey (fieldAt d 24 8)]
  else if op = 0x18 then [fieldAt d 18 2]
  else if op = 0x30 then [raKey (fieldAt d 16 8), raKey (fieldAt d 24 8)]
  else []

/-- Key IDs 0xFC0 to 0xFFF belong to the block (R304). -/
def isBlockKey (k : Nat) : Bool := decide (0xFC0 ≤ k) && decide (k < 4096)

/-- Checks 1 to 8 of R372: the status of the first that fails. A key ID of the block is refused at check 3 (R122, R304). -/
def validate (r : Ring) (d : Line) (k : Checks) (b : Block) : Option (BitVec 8) :=
  let info := opcodeInfo (dOpcode d)
  let wrongRing := match info, r with
    | some (.skein, _), .mgr => true
    | some (.mgr, _), .skein _ => true
    | _, _ => false
  let sigErr := if dSig d && (getFence (ringOwner r) (dSigFence d) b).error
    then some (getFence (ringOwner r) (dSigFence d) b).code else none
  (failIf (busyFor d b) cBusy).orElse fun _ =>
  (failIf info.isNone cInvalid).orElse fun _ =>
  (failIf (wrongRing || (namedKeys d).any isBlockKey) cNotPermitted).orElse fun _ =>
  k.c3.orElse fun _ =>
  (failIf (hdrReserved d || k.c4) cInvalid).orElse fun _ =>
  sigErr.orElse fun _ =>
  k.c5.orElse fun _ =>
  (failIf k.c6 cNotPermitted).orElse fun _ =>
  k.c7.orElse fun _ => k.c8

/-- Statuses that leave SIG_FENCE as it is (R376). -/
def fenceUntouched (c : BitVec 8) : Bool := c = cOkLate || c = cFenceReg || c = cBusy

/-- The status with which work that succeeded completes: its signal's code (R382), else the work's status. -/
def finalStatus (r : Ring) (d : Line) (st : BitVec 8) (b : Block) : BitVec 8 :=
  if st = cOK && dSig d then ((getFence (ringOwner r) (dSigFence d) b).signal (dSigValue d)).1 else st

/-- Apply a completed descriptor's status to its signal fence (R367, R376, R383). -/
def applySig (r : Ring) (d : Line) (st : BitVec 8) (b : Block) : Block :=
  if !dSig d || fenceUntouched st then b
  else if st = cOK then (signalFence (ringOwner r) (dSigFence d) (dSigValue d) b).2
  else errorFence (ringOwner r) (dSigFence d) st b

/-- Write a descriptor's completion record and then change its signal fence (R367). -/
def writeCompletion (r : Ring) (index : BitVec 16) (d : Line) (st : BitVec 8) (res : BitVec 160) (forced : Bool)
    (b : Block) : Block :=
  if ringState r b = some .destroying then
    modSkein ((ringOwner r).getD 0) (fun s => { s with counts := { s.counts with completed := s.counts.completed + 1 } })
      (modRing r (fun p => { p with reserved := p.reserved - 1 }) b)
  else
    let f := finalStatus r d st b
    let b := modRing r (fun p => { p with reserved := p.reserved - 1 }) b
    let b := putRecord r { opcode := BitVec.ofNat 8 (dOpcode d), status := f, ringIndex := index, kind := 0, result := res } forced b
    let b := spoolFree 1 7 (ownerOf (ringOwner r)) index.toNat f.toNat b
    let b := if st = cOK && f = cFenceReg then (signalFence (ringOwner r) (dSigFence d) (dSigValue d) b).2 else applySig r d f b
    match r with
    | .skein n => progress n (bumpBucket n (dLayer d) (dOperator d) 8 1 (bumpSk n 176 1
        (if f = cTimeout then bumpSk n 160 1 b else b)))
    | .mgr => b

/-- Drop one reference on a fence (R389). -/
def unrefFence (o : Option Nat) (i : Nat) (b : Block) : Block := modFence o i (fun f => { f with refs := f.refs - 1 }) b

/-- Hold the outcome of a FENCE_WAIT for descriptors chained to it (R386). -/
def noteWait (r : Ring) (id : Nat) (st : BitVec 8) (b : Block) : Block :=
  let b := modRing r (fun p => if p.lastWait = .outstanding id then { p with lastWait := .done st } else p) b
  { b with descs := b.descs.map fun x => if x.phase = .chained id then { x with phase := .chainDone st } else x }

/-- The set that a FENCE_WAIT's fence belongs to (R371). -/
def waitOwner (r : Ring) (d : Line) : Option Nat := if fieldAt d 16 2 = 0xFFFF then ringOwner r else some (fieldAt d 16 2)

/-- Fences that a descriptor names beside SIG_FENCE and that its references hold: the resume fence of a SEAL_OUT with ARM (R128), the fence
that a FENCE_SIGNAL signals, and the one that a FENCE_WAIT awaits (R372, R389). -/
def namedFences (r : Ring) (d : Line) : List (Option Nat × Nat) :=
  if dOpcode d = 0x18 && (fieldAt d 16 1).testBit 0 then [(ringOwner r, fieldAt d 32 2 % 4096)]
  else if dOpcode d = 2 && fieldAt d 18 1 = 0 then [(ringOwner r, fieldAt d 16 2)]
  else if dOpcode d = 3 then [(waitOwner r d, fieldAt d 18 2)]
  else []

/-- Drop the references that a descriptor's named fences hold. -/
def dropNamed (x : Desc) (b : Block) : Block := (namedFences x.ring x.raw).foldl (fun b f => unrefFence f.1 f.2 b) b

/-- The descriptor has completed and its record waits for its TDI (R249). -/
def Phase.isParked : Phase → Bool
  | .parked _ _ => true
  | _ => false

def findDesc (id : Nat) (b : Block) : Option Desc := b.descs.find? fun x => x.id = id
def dropDesc (id : Nat) (b : Block) : Block := { b with descs := b.descs.filter fun x => x.id != id }
def setPhase (id : Nat) (p : Phase) (b : Block) : Block :=
  { b with descs := b.descs.map fun x => if x.id = id then { x with phase := p } else x }

/-- Complete an accepted descriptor: its references drop, its record is written, its fence changes (R367, R372, R390). -/
def completeF (x : Desc) (st : BitVec 8) (res : BitVec 160) (forced : Bool) (b : Block) : Block :=
  if (findDesc x.id b).isNone then b
  else if tdiError x.ring b then
    setPhase x.id (.parked st res) (if x.phase.isParked then b else dropNamed x b)
  else
    let fin := finalStatus x.ring x.raw st b
    let b := sampleTime 0x18 (match x.ring with | .mgr => 64 | .skein n => ((getSkein n b).bind (·.slot)).getD 65) b
    let b := dropDesc x.id b
    let b := dropHanks x.uses b
    let b := if dSig x.raw then unrefFence (ringOwner x.ring) (dSigFence x.raw) b else b
    let b := if x.phase.isParked then b else dropNamed x b
    let b := writeCompletion x.ring x.index x.raw st res forced b
    if dOpcode x.raw = 3 then noteWait x.ring x.id fin b else b

def complete (x : Desc) (st : BitVec 8) (res : BitVec 160) (b : Block) : Block := completeF x st res false b
/-- Complete with no result fields. -/
def finish (x : Desc) (st : BitVec 8) (b : Block) : Block := complete x st 0 b

/-- One release: a satisfied, errored or chained descriptor, or a late FENCE_WAIT (R385 to R387). -/
def settleOne (b : Block) : Option Block :=
  let waitDone (x : Desc) : Bool := match x.phase with
    | .waiting o f t _ _ => (getFence o f b).error || (getFence o f b).satisfied t
    | .chainDone st => st != cOK
    | _ => false
  match b.descs.find? waitDone with
  | some x => match x.phase with
    | .waiting o f _ _ _ =>
      let g := getFence o f b
      some (complete x (if g.error then g.code else cOK) (resAt 16 8 g.value.toNat) b)
    | .chainDone st =>
      some (finish x st (if st = cFenceReg && dSig x.raw then errorFence (ringOwner x.ring) (dSigFence x.raw) st b else b))
    | _ => none
  | none =>
    match b.lates.find? fun l => (getFence l.owner l.fence b).error || (getFence l.owner l.fence b).satisfied l.target with
    | some l =>
      let g := getFence l.owner l.fence b
      some (postRecord l.ring
        { opcode := 3, status := if g.error then g.code else cOkLate, ringIndex := l.index, kind := 1,
          result := resAt 16 8 g.value.toNat } { b with lates := b.lates.erase l })
    | none => none

/-- Release everything that a fence or a completed FENCE_WAIT lets go. -/
def settleN : Nat → Block → Block
  | 0, b => b
  | k + 1, b => match settleOne b with
    | some b' => settleN k b'
    | none => b

/-- Descriptors let go by CHAIN become ready (R386). -/
def promote (b : Block) : Block :=
  { b with descs := b.descs.map fun x => if x.phase = .chainDone cOK then { x with phase := .ready } else x }

def settle (b : Block) : Block := promote (settleN (2 * b.descs.length + b.lates.length + 1) b)

/-- A command whose effect is followed by the releases it brings. -/
def onSettled (f : Block → Block) (s : State) : Out := onBlock (fun b => settle (f b)) s

/-- Outstanding FENCE_WAITs of a ring (R385). -/
def waitCount (r : Ring) (b : Block) : Nat :=
  (b.descs.filter fun x => decide (x.ring = r) && dOpcode x.raw == 3).length

/-- Whether the ring's next descriptor can be fetched now (R366, R367, R385). -/
def canFetch (r : Ring) (d : Line) (b : Block) : Bool :=
  inService b && !(b.fwRestart.isSome && needsFirmware d) &&
  (match getRing r b with
    | none => false
    | some p => p.sqTail != p.sqHead && decide (16 < p.free)) &&
  (match r with
    | .mgr => b.regs.ringEnable
    | .skein n => match getSkein n b with
      | none => false
      | some s => s.st = .resident && s.tdi.st != .error && !fetchStopped n b) &&
  (dOpcode d != 3 || decide (waitCount r b < 1024))

/-- The RING_INDEX of the entry that a ring fetches next (R373). -/
def fetchIndex (r : Ring) (b : Block) : BitVec 16 := match getRing r b with
  | none => 0
  | some p => BitVec.ofNat 16 (p.sqHead.toNat % ringEntries p.sq)

/-- A ring fetches its next entry: SQ_HEAD advances, and a completion entry is reserved (R366, R367). -/
def fetched (r : Ring) (b : Block) : Block :=
  let at' := match getRing r b with
    | some p => bitField p.sq 63 12 * 4096 + 64 * (p.sqHead.toNat % ringEntries p.sq)
    | none => 0
  readHost (ringOwner r) at' 64 (modRing r (fun p => { p with sqHead := p.sqHead + 1, reserved := p.reserved + 1 }) b)

/-- The descriptor that is accepted from a ring's next entry. -/
def newDesc (r : Ring) (d : Line) (cmd : Instr) (index : BitVec 16) (us : List Nat) (b : Block) : Desc :=
  { id := b.nextDesc, ring := r, index := index, raw := d, cmd := cmd, phase := .running, uses := us, since := b.tick }

/-- Take one reference on a fence of a set (R389). -/
def refFence (o : Option Nat) (b : Block) (i : Nat) : Block := modFence o i (fun f => { f with refs := f.refs + 1 }) b

/-- What accepting a descriptor takes: its references on fences and hanks, and for a FENCE_WAIT the place that chained
descriptors look at (R372, R386, R389, R390). -/
def takeRefs (x : Desc) (b : Block) : Block :=
  let b := { b with nextDesc := b.nextDesc + 1 }
  let b := if dSig x.raw then refFence (ringOwner x.ring) b (dSigFence x.raw) else b
  let b := (namedFences x.ring x.raw).foldl (fun b f => refFence f.1 b f.2) b
  let b := useHanks x.uses b
  if dOpcode x.raw = 3 then modRing x.ring (fun p => { p with lastWait := .outstanding x.id }) b else b

/-- List an accepted descriptor in a phase. -/
def addDesc (x : Desc) (ph : Phase) (b : Block) : Block := { b with descs := b.descs ++ [{ x with phase := ph }] }

/-- The outcome that CHAIN looks at: the ring's last FENCE_WAIT (R386). -/
def lastWaitOf (r : Ring) (b : Block) : LastWait := ((getRing r b).map (·.lastWait)).getD .none

/-- An accepted descriptor starts, unless an earlier operation holds it (R34). -/
def startOrHold (x : Desc) (start : Desc → Block → Block) (b : Block) : Block :=
  if heldByControl x b then addDesc x .control b else start x (addDesc x .running b)

/-- Fetch, validate and accept the next descriptor of a ring, and start it unless it is held (R34, R366, R372, R386). A
descriptor of another row's opcode changes nothing. `uses` names the hanks a descriptor names. -/
def fetch (r : Ring) (d : Line) (op : Nat) (cmd : Instr) (k : Block → Checks) (uses : Block → List Nat)
    (start : Desc → Block → Block) (b : Block) : Block :=
  if (opcodeInfo (dOpcode d)).isSome && dOpcode d != op then b
  else if !canFetch r d b then b
  else
    let b' := fetched r b
    match validate r d (k b') b' with
    | some st =>
      let c := writeCompletion r (fetchIndex r b) d st 0 false b'
      if dOpcode d = 3 then modRing r (fun p => { p with lastWait := .done st }) c else c
    | none =>
      let x := newDesc r d cmd (fetchIndex r b) (uses b') b'
      let c := takeRefs x b'
      if dChain d then
        match lastWaitOf r b with
        | .outstanding w => addDesc x (.chained w) c
        | .done st => if st = cOK then startOrHold x start c else addDesc x (.chainDone st) c
        | .none => startOrHold x start c
      else startOrHold x start c

end Sys2Proof.Machine
end

