-- ==== Sys2Proof/Machine/Operands.lean ====
section
/-! DEFINITION. Operand forms: register accesses of the control port, and addresses of requests (16, 17). Choices marked in the
log: DEDUCED 36, 90. -/

namespace Sys2Proof.Machine

/-- The bits of a slot that an access of 8 B or of one half selects, when its width and alignment are honoured (R501). -/
def accessMask (q : Tgt) : Option (BitVec 64) :=
  if q.be = 0xFF && q.addr.toNat % 8 = 0 then some 0xFFFFFFFFFFFFFFFF
  else if q.be = 0x0F && q.addr.toNat % 8 = 0 then some 0x00000000FFFFFFFF
  else if q.be = 0xF0 && q.addr.toNat % 8 = 4 then some 0xFFFFFFFF00000000
  else none

/-- Offset of the 8-B slot of an access (R501). -/
def slotOff (q : Tgt) : Nat := q.addr.toNat / 8 * 8

/-- Bits of `new` where the mask is set (R503). -/
def mergeBits {w : Nat} (old new mask : BitVec w) : BitVec w := (old &&& ~~~mask) ||| (new &&& mask)

/-- A register field: [hi:lo] and the values it may take (R12). -/
structure RField where
  hi : Nat
  lo : Nat
  ok : Nat → Bool

/-- A write of the listed fields: a field that would take a reserved value keeps its own, bits outside are 0 (R11, R12). -/
def writeFields {w : Nat} (old new : BitVec w) (fs : List RField) : BitVec w :=
  fs.foldl (fun acc f => setBits acc f.hi f.lo (if f.ok (bitField new f.hi f.lo) then bitField new f.hi f.lo else bitField old f.hi f.lo)) 0

/-- The key ID of a request and its device physical address (R19). -/
def reqKeyId (q : WarpReq) : Nat := if q.keyidV then q.keyid.toNat else bitField q.addr 63 52
def reqAddr (q : WarpReq) : Nat := bitField q.addr 51 0

/-- Device physical address of a request address in a descriptor (R19). -/
def raAddr (a : Nat) : Nat := a % 2 ^ 52

/-- The hanks that a range of `n` bytes at `a` touches. -/
def hanksOf (a n : Nat) : List Nat :=
  if n = 0 then [] else (List.range ((a + n - 1) / hankBytes - a / hankBytes + 1)).map (· + a / hankBytes)

/-- Check 7 of R372 for a key ID named by a skein's descriptor; INTERNAL_ECC where its entry was lost (R397). -/
def checkKey (n keyId : Nat) (b : Block) : Option (BitVec 8) :=
  match amGet keyId b.mem.keys with
  | none => some cNotPermitted
  | some e => if e.skein != n then some cNotPermitted
    else if e.st = .retiring then some (if e.lost then cEcc else cKeyRetired)
    else if e.st = .valid then none else some cNotPermitted

/-- Check 8 of R372 for one hank, bound to a key ID when one is given; INTERNAL_ECC where its record was lost (R397). DEDUCED: the descriptors
accepted before complete with HANK_REVOKED, and later ones fail with the code of the word. -/
def checkHank (n : Nat) (keyId : Option Nat) (h : Nat) (b : Block) : Option (BitVec 8) :=
  let x := getHank h b
  if x.skein = n && x.lost then some cEcc
  else if x.skein = n && (x.st = .revoked || (x.st = .zeroing && x.revokedMark)) then some cHankRevoked
  else if x.st = .allocated && x.skein = n && decide (0 < x.holds) && (keyId == none || keyId == some x.keyId) then none
  else some cNotPermitted

/-- Check 8 over a run of hanks: the first failure. -/
def checkHanks (n : Nat) (keyId : Option Nat) (hs : List Nat) (b : Block) : Option (BitVec 8) :=
  hs.findSome? fun h => checkHank n keyId h b

end Sys2Proof.Machine
end

