-- ==== Sys2Proof/Machine/Flags.lean ====
section
/-! DEFINITION. Status words and flags computed from state (R310, R439, R448, R508, R509, R513, R515). -/

namespace Sys2Proof.Machine

/-- PWR_STATUS (R439); its dash fields read zero until START loads them (R15). -/
def pwrStatus (b : Block) : BitVec 32 :=
  let p := b.pwr
  BitVec.ofNat 32 (if p.loaded then
    b2n p.onBackup + b2n p.mainGood * 2 + b2n p.backupGood * 4 + b2n p.entry.isSome * 8 + p.lastStart * 16
    else b2n p.entry.isSome * 8)

/-- TIM_STATUS (R448). -/
def timStatus (b : Block) : BitVec 32 :=
  BitVec.ofNat 32 (b.tim.quality + b2n b.tim.substitute * 4 + b2n b.tim.strobeMissing * 8 + b.tim.gaps * 65536)

/-- KEY_LADDER_LOCK (R310). -/
def ladderLock (b : Block) : BitVec 32 :=
  BitVec.ofNat 32 (b.ladder.owner + b2n (!b.ladder.fwWait.isEmpty) * 4 + b2n (!b.ladder.mgrWait.isEmpty) * 8 + b.regs.mgrWaitMax * 65536)

/-- CFG_ID (R507). -/
def cfgId : BitVec 64 := 0x00006F2A00010104

/-- CFG_SIZES0 to 3 of a row (R508). -/
def cfgSizes (r : Config.Row) : BitVec 64 × BitVec 64 × BitVec 64 × BitVec 64 :=
  (BitVec.ofNat 64 (r.code + r.stackCount <<< 8 + r.spindles <<< 16 + r.slots <<< 24 + r.floor <<< 32 + r.weftPorts <<< 40 +
      r.hostPorts <<< 48 + r.fthStreams <<< 52 + 2 <<< 56),
   BitVec.ofNat 64 (r.whorls + r.pool <<< 16 + r.epochRegions <<< 32 + r.absorberLines <<< 48),
   BitVec.ofNat 64 (4031 + 1024 <<< 16 + r.bobbinKiB <<< 32 + 48 <<< 48 + 8 <<< 56),
   BitVec.ofNat 64 (32768 + 256 <<< 16 + r.reelCeiling <<< 32 + r.fedRate <<< 48))

/-- CFG_STRAPS (R509). -/
def cfgStraps (b : Block) : BitVec 32 :=
  BitVec.ofNat 32 (b.regs.dieIndex + b.regs.pkgDies <<< 4 + b2n b.regs.leader <<< 7 + b.regs.i3cSa <<< 8 +
    (b.host.i3c.da.getD 0) <<< 16 + b2n b.host.i3c.da.isSome <<< 23)

/-- CMD_RING_CTRL (R362) and TWS_LOCK (R519). -/
def ringCtrl (b : Block) : BitVec 32 := BitVec.ofNat 32 (b2n b.regs.ringEnable + b2n b.regs.ringLock * 2)
def twsLock (b : Block) : BitVec 32 := BitVec.ofNat 32 (b2n b.regs.lockZones + b2n b.regs.lockBoot * 2)

/-- The life-cycle state code (R349). -/
def lcState (b : Block) : Nat := bitField b.regs.lcsState 3 0
/-- SCRAP or LOST (R505). -/
def lcDead (b : Block) : Bool := lcState b = 5 || lcState b = 15
/-- No root or no entropy (R505). -/
def noRoot (b : Block) : Bool := b.regs.dstStatus.getLsbD 1 || b.regs.dstStatus.getLsbD 6
/-- Frexis behaves as without a root: no root, no entropy, or no firmware image (R297, R303, R340). -/
def unserved (b : Block) : Bool := noRoot b || b.regs.dstStatus.getLsbD 8
/-- This instance leads its package (R28). -/
def isLeader (b : Block) : Bool := b.regs.leader

/-- A field of DST_STATUS set or cleared (R513). -/
def setDst (bit : Nat) (v : Bool) (b : Block) : Block :=
  setRegs (fun r => { r with dstStatus := setBits r.dstStatus bit bit (b2n v) }) b

end Sys2Proof.Machine
end

