-- ==== Sys2Proof/Machine/Registers.lean ====
section
/-! DEFINITION. Set-up register accesses (17_setup_registers) and the doorbell pages' register side. Choices marked in the log:
DEDUCED 36, 108, 117. -/

namespace Sys2Proof.Machine

/-- The 64-bit value of a set-up register's slot; zero at reserved offsets (R501, R506). -/
def regRead (off : Nat) (b : Block) : BitVec 64 :=
  let r := b.regs
  let w (x : BitVec 32) : BitVec 64 := x.setWidth 64
  if off = 0x000 then cfgId
  else if off = 0x008 then r.sizes0 else if off = 0x010 then r.sizes1
  else if off = 0x018 then r.sizes2 else if off = 0x020 then r.sizes3
  else if off = 0x028 then w (cfgStraps b)
  else if off = 0x030 then r.deviceId.setWidth 64 else if off = 0x038 then (r.deviceId >>> 64).setWidth 64
  else if off = 0x040 then r.serial.setWidth 64 else if off = 0x048 then (r.serial >>> 64).setWidth 64
  else if off = 0x050 then r.lcsState else if off = 0x058 then w r.lockState
  else if off = 0x060 then w r.lcsGate else if off = 0x068 then w r.dstStatus
  else if off = 0x070 then r.fwLoad else if off = 0x078 then w (ladderLock b)
  else if 0x080 ≤ off ∧ off < 0x100 then amGetD 0 ((off - 0x080) / 8) r.cfgZone
  else if off = 0x100 then r.cfgBoot else if off = 0x108 then w r.fedStatus
  else if off = 0x200 then b.mgr.sq else if off = 0x208 then b.mgr.cq
  else if off = 0x210 then w (ringCtrl b) else if off = 0x218 then r.fltLog
  else if 0x300 ≤ off ∧ off < 0x380 then amGetD 0 ((off - 0x300) / 8) r.twsZone
  else if off = 0x380 then w (twsLock b) else if off = 0x388 then w r.twsStatus
  else if off = 0x390 then w r.twsMem else if off = 0x398 then w r.twsBoot else if off = 0x3A0 then w r.twsSkew
  else if off = 0x400 then r.sknSched else if off = 0x408 then w r.sknDrain
  else if off = 0x410 then w r.wftTimeout else if off = 0x418 then w r.plyWindow
  else if off = 0x420 then w r.reelRotRate else if off = 0x428 then w r.fltCarder
  else if off = 0x500 then 0 else if off = 0x508 then w (pwrStatus b)
  else if off = 0x510 then r.refuseCount else if off = 0x518 then w r.lastRefuser
  else if off = 0x600 then w r.timCtrl else if off = 0x608 then w r.timStrobe
  else if off = 0x610 then w (timStatus b) else if off = 0x618 then r.timAlarm
  else if off = 0x620 then b.tim.t
  else if off = 0x700 then r.telSnap else if off = 0x708 then r.splCtrl else if off = 0x710 then r.splDump
  else 0

/-- The registers that are 32 bits wide, whose slot's high half is reserved (R501, R506). -/
def reg32 (off : Nat) : Bool :=
  [0x028, 0x058, 0x060, 0x068, 0x078, 0x108, 0x210, 0x380, 0x388, 0x390, 0x398, 0x3A0, 0x408, 0x410, 0x418, 0x420,
   0x428, 0x500, 0x508, 0x518, 0x600, 0x608, 0x610].contains off

def fld (hi lo : Nat) : RField := { hi := hi, lo := lo, ok := fun _ => true }
def fldIf (hi lo : Nat) (p : Nat → Bool) : RField := { hi := hi, lo := lo, ok := p }
def pos (n : Nat) : Bool := n != 0

/-- Fields of TWS_ZONEn for a row (R139). -/
def zoneFields (row : Config.Row) : List RField :=
  [fld (row.stackCount - 1) 0, fld 31 16, fldIf 39 32 (fun v => decide (v ≤ 128)), fld 40 40, fld 41 41]

/-- A write to SPL_CTRL: PRE and POST that do not fit together leave both unchanged (R468). -/
def splWrite (old new : BitVec 64) : BitVec 64 :=
  let bad := decide (7 < bitField new 35 32 + bitField new 39 36) || bitField new 39 36 == 0 ||
    decide (6 < bitField new 35 32) || decide (6 < bitField new 39 36)
  let x := writeFields old new [fld 31 0, fld 47 40, fld 48 48, fld 49 49, fld 63 50]
  let src := if bad then old else new
  setBits (setBits x 35 32 (bitField src 35 32)) 39 36 (bitField src 39 36)

/-! ### Quality of time (R442) -/

/-- The core has no power, or an entry into a low-power state has begun: the synchroniser holds accesses (R435, R436). -/
def asleep (b : Block) : Bool := b.pwr.st != .active || b.pwr.entry.isSome

/-- Raise an attention of the distaff's own, SKEIN_LOCAL clear: at once, or once the datapath is served again. -/
def raiseBlock (cls object : Nat) (b : Block) : Block :=
  if b.pwr.st != .active || !b.dst.started then { b with pwr := { b.pwr with heldEv := b.pwr.heldEv ++ [(cls, object)] } }
  else raiseViews { cls := cls, object := object } b

/-- Change the stamp quality: a change is recorded and raises ACLASS 7 (R442, R465). -/
def setQuality (q : Nat) (b : Block) : Block :=
  if b.tim.quality = q then b
  else raiseBlock 7 0 (spoolFree 1 3 ownBlock q 0 { b with tim := { b.tim with quality := q } })

/-- The quality that holds apart from a new lock: absent, free-run, locked while its condition stands, or holdover. -/
def qualityNow (b : Block) : Nat :=
  let pps := !b.regs.timCtrl.getLsbD 1 || (match b.tim.ppsAt with | some t => decide (b.tick < t + 1100000) | none => false)
  if !b.regs.timCtrl.getLsbD 0 || !b.tim.everLocked then 0
  else if b.tim.substitute then 1
  else if b.tim.quality = 3 && pps then 3 else 2

/-- The effect of a write of `v` (already merged with the bits it does not select) to a register without behaviour of its
own (R13, R506, R523). -/
def regStore (off : Nat) (v : BitVec 64) (b : Block) : Block :=
  let r := b.regs
  let v32 : BitVec 32 := v.setWidth 32
  let set (r : Regs) : Block := { b with regs := r }
  if off = 0x200 then
    if r.ringLock then b else { b with mgr := { b.mgr with sq := writeFields b.mgr.sq v [fldIf 3 0 (fun s => decide (s ≤ 10)), fld 63 12] } }
  else if off = 0x208 then
    if r.ringLock then b else { b with mgr := { b.mgr with cq := writeFields b.mgr.cq v [fldIf 3 0 (fun s => decide (s ≤ 11)), fld 63 12] } }
  else if off = 0x218 then
    if r.ringLock then b else set { r with fltLog := writeFields r.fltLog v [fldIf 3 0 (fun s => decide (s ≤ 14)), fld 63 12] }
  else if 0x300 ≤ off ∧ off < 0x380 then
    if r.lockZones then b
    else
      let z := (off - 0x300) / 8
      set { r with twsZone := amPut 0 z (writeFields (amGetD 0 z r.twsZone) v (zoneFields b.row)) r.twsZone }
  else if off = 0x390 then
    if r.lockZones then b
    else set { r with twsMem := writeFields r.twsMem v32 [fldIf 6 0 (fun g => [4, 8, 16, 32, 64].contains g)] }
  else if off = 0x398 then
    if r.lockBoot then b else set { r with twsBoot := writeFields r.twsBoot v32 [fld 7 0] }
  else if off = 0x3A0 then set { r with twsSkew := writeFields r.twsSkew v32 [fld 7 0, fldIf 11 8 pos, fldIf 31 16 pos] }
  else if off = 0x400 then set { r with sknSched := writeFields r.sknSched v [fld 0 0, fldIf 31 16 pos, fldIf 47 32 pos] }
  else if off = 0x408 then set { r with sknDrain := writeFields r.sknDrain v32 [fldIf 15 0 pos] }
  else if off = 0x410 then set { r with wftTimeout := writeFields r.wftTimeout v32 [fldIf 15 0 pos, fldIf 23 16 pos] }
  else if off = 0x418 then
    set { r with plyWindow := writeFields r.plyWindow v32 [fldIf 6 0 (fun t => decide (1 ≤ t) && decide (t ≤ 64))] }
  else if off = 0x420 then
    set { r with reelRotRate := writeFields r.reelRotRate v32 [fldIf 9 0 (fun t => decide (1 ≤ t) && decide (t ≤ 1000))] }
  else if off = 0x428 then
    let fs := [fld 0 0, fldIf 15 8 (fun t => decide (1 ≤ t) && decide (t ≤ 100)), fldIf 31 16 pos]
    set { r with fltCarder := writeFields r.fltCarder v32 fs }
  else if off = 0x600 then
    set { r with timCtrl := writeFields r.timCtrl v32 [fld 0 0, fld 1 1, fld 2 2, fldIf 15 8 pos] }
  else if off = 0x700 then set { r with telSnap := writeFields r.telSnap v [fld 11 0, fld 63 12] }
  else if off = 0x708 then set { r with splCtrl := splWrite r.splCtrl v }
  else if off = 0x710 then set { r with splDump := writeFields r.splDump v [fldIf 3 0 (fun s => decide (s ≤ 10)), fld 63 12] }
  else b

/-- Whether writes to set-up registers are honoured (R505); DST_FW_LOAD is honoured without a root too. -/
def writesHonoured (off : Nat) (b : Block) : Bool := !lcDead b && (!noRoot b || off == 0x070)

/-- The value a write gives the register's slot: unselected bits keep the register's own (R503); a write to the high half
of a 32-bit register's slot is discarded (R501). -/
def writeValue (q : Tgt) (b : Block) : Option (BitVec 64) :=
  match accessMask q with
  | none => none
  | some m => if reg32 (slotOff q) && q.be = 0xF0 then none else some (mergeBits (regRead (slotOff q) b) q.data m)

/-- Answer an access on TGTR (R484, R502). -/
def answerTgt (data : BitVec 64) (ur : Bool) (r : Ring) (b : Block) : Block := emit (.tgtr data ur (getView r b).status) b

/-- A read of a set-up register: the 4-B reads of TIM_NOW and PWR_REFUSE_COUNT latch the high half (R503). -/
def regReadAccess (q : Tgt) (b : Block) : Block :=
  let off := slotOff q
  match accessMask q with
  | none => answerTgt 0 false .mgr b
  | some m =>
    if q.addr.toNat ≥ 0x1000 then answerTgt 0 false .mgr b
    else
      let v := regRead off b
      let hi : BitVec 32 := (v >>> 32).setWidth 32
      if off = 0x620 && q.be = 0x0F then answerTgt (v &&& m) false .mgr (setRegs (fun r => { r with latchNow := some hi }) b)
      else if off = 0x510 && q.be = 0x0F then
        answerTgt (v &&& m) false .mgr (setRegs (fun r => { r with latchRefuse := some hi }) b)
      else if off = 0x620 && q.be = 0xF0 then
        let h := b.regs.latchNow.getD hi
        answerTgt (h.setWidth 64 <<< 32) false .mgr (setRegs (fun r => { r with latchNow := none }) b)
      else if off = 0x510 && q.be = 0xF0 then
        let h := b.regs.latchRefuse.getD hi
        answerTgt (h.setWidth 64 <<< 32) false .mgr (setRegs (fun r => { r with latchRefuse := none }) b)
      else answerTgt (v &&& m) false .mgr b

/-- The answer of a write, given after its effect (R502). -/
def answerWrite (b : Block) : Block := answerTgt 0 false .mgr b

/-- The enabled zones of the set-up registers, ascending (R139). -/
def enabledZones (b : Block) : List (Nat × ZoneCfg) :=
  ((List.range 16).map fun z => (z, zoneOf (amGetD 0 z b.regs.twsZone))).filter fun z => z.2.enable

/-- CFG_ZONE readback of a slice (R511). -/
def zoneReadback (base hanks : Nat) : BitVec 64 := BitVec.ofNat 64 (base % 2 ^ 31 + (hanks % 2 ^ 20) <<< 32)

/-- A CMD_RING_CTRL write of ENABLE: the checks of R140 and R520, then the locks, the map and the readback (R362, R511). -/
def ringEnable (b : Block) : Block :=
  if b.regs.ringLock then b
  else
    let zs := enabledZones b
    let gib := bitField b.regs.twsMem 6 0
    let steps := bitField b.regs.twsBoot 7 0
    match zoneCheck b.row gib steps zs with
    | some (code, zone) =>
      setRegs (fun r => { r with ringEnable := false, twsStatus := BitVec.ofNat 32 (1 + zone * 16 + code * 256) }) b
    | none =>
      let lay := mkLayout b.row gib steps zs
      let low := (lay.zones.find? fun m => !m.dedicated).map (·.zone) |>.getD 0
      let b := setMem (fun m => { m with lay := lay }) b
      setRegs (fun r => { r with
        ringEnable := true, ringLock := true, lockZones := true, lockBoot := true, twsStatus := 0,
        cfgZone := lay.zones.map fun m => (m.zone, zoneReadback m.baseHank m.hanks),
        cfgBoot := zoneReadback lay.bootBase lay.bootHanks ||| (BitVec.ofNat 64 low <<< 52) }) b

/-- Whether an access names physical function 0's register at `off`, as a write or a read. -/
def isReg (q : Tgt) (off : Nat) (read : Bool) : Bool :=
  q.func = 0 && q.read == read && decide (q.addr.toNat < 0x1000) && slotOff q == off

/-- An access that the synchroniser holds because the datapath is not powered (R435, R436). -/
def holdAccess (c : Instr) (b : Block) : Block := { b with pwr := { b.pwr with heldAcc := b.pwr.heldAcc ++ [c] } }

/-- Registers whose writes have a behaviour of their own. -/
def ownBehaviour (off : Nat) : Bool :=
  [0x060, 0x070, 0x210, 0x500, 0x608, 0x618].contains off

/-- REGISTER_WRITE: a write to a register without behaviour of its own (R502). -/
def doRegisterWrite (q : Tgt) (b : Block) : Block :=
  if q.func != 0 || q.read || ownBehaviour (slotOff q) then b
  else
    let off := slotOff q
    answerWrite (match writeValue q b with
      | none => b
      | some v => if q.addr.toNat < 0x1000 && writesHonoured off b then regStore off v b else b)

/-- RING_ENABLE: a write of CMD_RING_CTRL (R362). -/
def doRingEnable (q : Tgt) (b : Block) : Block :=
  if !isReg q 0x210 false then b
  else answerWrite (match writeValue q b with
    | none => b
    | some v => if !writesHonoured 0x210 b || b.regs.ringLock then b
      else if v.getLsbD 0 then ringEnable b else b)

/-- LCS_GATE_WRITE (R516); a close of firmware debug resumes a halted controller. -/
def doLcsGate (q : Tgt) (b : Block) : Block :=
  if !isReg q 0x060 false then b
  else answerWrite (match writeValue q b with
    | none => b
    | some v =>
      if !writesHonoured 0x060 b || b.regs.lcsGate.getLsbD 7 then b
      else
        let g := writeFields b.regs.lcsGate (v.setWidth 32) [fld 3 0, fld 7 7]
        let b := setRegs (fun r => { r with lcsGate := g }) b
        if g.getLsbD 1 && b.fwHalted then { b with fwHalted := false, fwKick := b.tick } else b)

/-- LATCHED_HALF_READ: a read of physical function 0 (R503). -/
def doRead (q : Tgt) (b : Block) : Block := if q.func != 0 || !q.read then b else regReadAccess q b

/-- No request is served: the block sleeps, or a start has not completed (R408, R435, R437). -/
def closed (b : Block) : Bool := asleep b || !b.dst.started

/-- An access of the control port: held while the block sleeps and replayed at the wake (R436); refused before a start completes
(R408). -/
def accessOr (c : Instr) (f : Block → Block) (b : Block) : Block :=
  if asleep b then holdAccess c b else if !b.dst.started then answerTgt 0 true .mgr b else f b

def onAccess (c : Instr) (f : Block → Block) (s : State) : Out := onSettled (accessOr c f) s

def execRingEnable (q : Tgt) (s : State) : Out := onAccess (.ringEnable q) (doRingEnable q) s
def execLcsGateWrite (q : Tgt) (s : State) : Out := onAccess (.lcsGateWrite q) (doLcsGate q) s
def execRegisterWrite (q : Tgt) (s : State) : Out := onAccess (.registerWrite q) (doRegisterWrite q) s

end Sys2Proof.Machine
end

