-- ==== Sys2Proof/Machine/Rings.lean ====
section
/-! DEFINITION. Doorbell pages, NOP and the fence descriptors (12_rings_replies_fences, R364 to R389). Choices marked in the log:
DEDUCED 58, 118; DESIGN CHOICE 4. -/

namespace Sys2Proof.Machine

/-- The ring and the page offset of a doorbell page access (R364, R501). -/
def pageOf (q : Tgt) : Option (Ring × Nat) :=
  if q.func = 0 then (if 0xF000 ≤ q.addr.toNat then some (.mgr, q.addr.toNat - 0xF000) else none)
  else if q.func.toNat ≤ 1024 && q.addr.toNat < 0x1000 then some (.skein (q.func.toNat - 1), q.addr.toNat)
  else none

/-- How a TDI's state answers an access to its page before anything else: in ERROR, and in RUN with T clear (R248, R249). -/
def pageRefused (r : Ring) (t : Bool) (b : Block) : Option Bool := match r with
  | .mgr => none
  | .skein n => if (getTdi n b).st = .error then some true else if (getTdi n b).st = .run && !t then some false else none

/-- Answer a refused page access as Unsupported Request; in ERROR it raises ACLASS 2 (R249). -/
def refusePage (r : Ring) (raise : Bool) (b : Block) : Block :=
  let b := if raise then match r with
    | .skein n => raiseViews { cls := 2, skein := some n } b
    | .mgr => b else b
  answerTgt 0 true r b

/-- A doorbell write that is not honoured is counted and raises ACLASS 2 (R365). -/
def badBell (r : Ring) (b : Block) : Block :=
  let b := modRing r (fun p => { p with badBells := p.badBells + 1 }) b
  match r with
  | .mgr => raiseViews { cls := 2, mgrOnly := true } b
  | .skein n => raiseViews { cls := 2, skein := some n } b

/-- Check and apply an SQ_TAIL value (R365). -/
def applyTail (r : Ring) (v : BitVec 32) (b : Block) : Block := match getRing r b with
  | none => b
  | some p => if (v - p.sqHead).toNat ≤ ringEntries p.sq then modRing r (fun p => { p with sqTail := v }) b else badBell r b

/-- Check and apply a CQ_HEAD value (R365); freed entries take records held on chip (R368). -/
def applyHead (r : Ring) (v : BitVec 32) (b : Block) : Block := match getRing r b with
  | none => b
  | some p =>
    if (v - p.cqHead).toNat ≤ (p.cqProd - p.cqHead).toNat then
      flushQueued 64 r (modRing r (fun p => { p with cqHead := v }) b)
    else badBell r b

/-- Apply an ATTN_ACK value (R379). -/
def applyAck (r : Ring) (v : BitVec 8) (b : Block) : Block := modView r (fun x => { x with acked := v }) b

/-- A 32-bit write to one of the doorbells. -/
def isBell (q : Tgt) (o : Nat) : Bool := q.be == 0x0F && (o == 0x000 || o == 0x008 || o == 0x010)

/-- A doorbell write at page offset `off`; a write at no doorbell's offset, or of another width, is discarded (R364). `live` applies it, `hold` keeps it while the skein is SWAPPED (R268, R364). -/
def bell (q : Tgt) (off : Nat) (live : Ring → BitVec 32 → Block → Block) (hold : BitVec 32 → Skein → Skein) (b : Block) : Block :=
  match pageOf q with
  | none => b
  | some (r, o) =>
    if q.read || (o != off && isBell q o) then b
    else match pageRefused r q.t b with
      | some raise => refusePage r raise b
      | none => if o != off || !isBell q o then answerTgt 0 false r b else
        let v : BitVec 32 := q.data.setWidth 32
        let b := match r with
          | .mgr => live r v b
          | .skein n => match getSkein n b with
            | none => b
            | some s => if s.st = .destroying then b
              else if s.st = .swapped then modSkein n (hold v) b
              else live r v b
        answerTgt 0 false r b

def doSqTail (q : Tgt) (b : Block) : Block := bell q 0x000 applyTail (fun v s => { s with heldTail := some v }) b
def doCqHead (q : Tgt) (b : Block) : Block := bell q 0x008 applyHead (fun v s => { s with heldCq := some v }) b
def doAttnAck (q : Tgt) (b : Block) : Block :=
  bell q 0x010 (fun r v => applyAck r (v.setWidth 8)) (fun v s => { s with heldAck := some (v.setWidth 8) }) b

/-- A read of a doorbell page: REPLY, and zero elsewhere (R364). -/
def doPageRead (q : Tgt) (b : Block) : Block := match pageOf q with
  | none => b
  | some (r, o) => match pageRefused r q.t b with
    | some raise => refusePage r raise b
    | none =>
      if o = 0x018 && q.be = 0x0F then answerTgt ((getView r b).status.setWidth 64) false r b else answerTgt 0 false r b

/-- A read of the control port: a set-up register (R503) or a doorbell page (R364). -/
def doTgtRead (q : Tgt) (b : Block) : Block :=
  if !q.read then b else match pageOf q with
  | some _ => doPageRead q b
  | none => doRead q b

/-! ### NOP and the fence descriptors -/

/-- Body fields of FENCE_SIGNAL (R371). -/
def fsFence (d : Line) : Nat := fieldAt d 16 2
def fsMode (d : Line) : Nat := fieldAt d 18 1
def fsGrantee (d : Line) : Nat := fieldAt d 20 2
def fsValue (d : Line) : Nat := fieldAt d 24 8

def nopChecks (d : Line) (_ : Block) : Checks := { c4 := bodyReserved d [] }
/-- Checks of FENCE_SIGNAL in its three modes (R371, R388). -/
def fenceOpChecks (d : Line) (b : Block) : Checks :=
  { c4 := bodyReserved d [(16, 2), (18, 1), (20, 2), (24, 8)] || decide (4096 ≤ fsFence d) || decide (2 < fsMode d) ||
      (fsMode d != 0 && fsValue d != 0) || (fsMode d != 2 && fsGrantee d != 0) ||
      (fsMode d == 2 && fsGrantee d != 0xFFFF && decide (1024 ≤ fsGrantee d)),
    c6 := fsMode d == 2 && fsGrantee d != 0xFFFF && (getSkein (fsGrantee d) b).isNone }

def startNop (x : Desc) (b : Block) : Block := finish x cOK b

/-- FENCE_SIGNAL MODE 0: the descriptor completes with the signal's code and the fence's value (R375, R382). -/
def startFenceSignal (x : Desc) (b : Block) : Block :=
  let o := ringOwner x.ring
  let (c, b) := signalFence o (fsFence x.raw) (fsValue x.raw) b
  complete x c (resAt 16 8 (getFence o (fsFence x.raw) b).value.toNat) b

/-- LATE records with ABORTED for the waits whose fence is reset before it satisfied them (R387). -/
def abortLates (o : Option Nat) (i : Option Nat) (b : Block) : Block :=
  let hit (l : LateWait) := l.owner = o && (i == none || i == some l.fence)
  let gone := b.lates.filter hit
  gone.foldl (fun b l => postRecord l.ring
      { opcode := 3, status := cAborted, ringIndex := l.index, kind := 1,
        result := resAt 16 8 (getFence l.owner l.fence b).value.toNat } b)
    { b with lates := b.lates.filter fun l => !hit l }

/-- FENCE_SIGNAL MODE 1 (R389). -/
def startFenceReset (x : Desc) (b : Block) : Block :=
  let o := ringOwner x.ring
  let i := fsFence x.raw
  if (getFence o i b).refs != 0 then
    complete x cNotPermitted (resAt 16 8 (getFence o i b).value.toNat) b
  else complete x cOK 0 (setFence o i {} (abortLates o (some i) b))

/-- FENCE_SIGNAL MODE 2 (R388). -/
def startFenceGrant (x : Desc) (b : Block) : Block :=
  let o := ringOwner x.ring
  let i := fsFence x.raw
  let g := if fsGrantee x.raw = 0xFFFF then none else some (fsGrantee x.raw)
  let b := modFence o i (fun f => { f with grantee := g }) b
  complete x cOK (resAt 16 8 (getFence o i b).value.toNat) b

/-- FENCE_SIGNAL by its MODE. -/
def startFenceOp (x : Desc) (b : Block) : Block :=
  if fsMode x.raw = 0 then startFenceSignal x b else if fsMode x.raw = 1 then startFenceReset x b else startFenceGrant x b

def fenceWaitChecks (r : Ring) (d : Line) (b : Block) : Checks :=
  let own := fieldAt d 16 2 = 0xFFFF
  let other := !own && waitOwner r d != ringOwner r
  { c3 := failIf (r == .mgr && !own) cNotPermitted,
    c4 := bodyReserved d [(16, 2), (18, 2), (20, 4), (24, 8)] || (!own && decide (1024 ≤ fieldAt d 16 2)) ||
      decide (4096 ≤ fieldAt d 18 2) || decide (0xFFFFFFFFFFFFFFFD < fieldAt d 24 8),
    c5 := failIf (other && (getFence (waitOwner r d) (fieldAt d 18 2) b).grantee != ringOwner r) cNotPermitted,
    c6 := other && (getSkein (fieldAt d 16 2) b).isNone }

/-- FENCE_WAIT: it waits; the release is `settle`'s (R385). -/
def startFenceWait (x : Desc) (b : Block) : Block :=
  let o := waitOwner x.ring x.raw
  let i := fieldAt x.raw 18 2
  if frozen o b && o != ringOwner x.ring then complete x cAborted (resAt 16 8 (getFence o i b).value.toNat) b
  else
    let t := fieldAt x.raw 20 4
    setPhase x.id (.waiting o i (BitVec.ofNat 64 (fieldAt x.raw 24 8)) b.tick (if t = 0 then none else some (b.tick + t))) b

/-- The accepted descriptor at an entry of a ring. -/
def descAt (r : Ring) (index : BitVec 16) (b : Block) : Option Desc :=
  b.descs.find? fun x => decide (x.ring = r) && x.index == index

/-- FENCE_WAIT_TIMEOUT: the timeout of an outstanding FENCE_WAIT wins its race (R387). -/
def doFenceWaitTimeout (r : Ring) (index : BitVec 16) (b : Block) : Block := match descAt r index b with
  | none => b
  | some x => match x.phase with
    | .waiting o f t _ (some dl) =>
      if dl ≤ b.tick then
        let v := (getFence o f b).value
        let b := complete x cTimeout (resAt 16 8 v.toNat) b
        { b with lates := b.lates ++ [{ ring := r, index := index, owner := o, fence := f, target := t }] }
      else b
    | _ => b

def doNop (r : Ring) (d : Line) (b : Block) : Block :=
  fetch r d 1 (.nop r d) (nopChecks d) (fun _ => []) startNop b
def doFenceSignal (r : Ring) (d : Line) (b : Block) : Block :=
  fetch r d 2 (.fenceSignal r d) (fenceOpChecks d) (fun _ => []) startFenceOp b
def doFenceReset (r : Ring) (d : Line) (b : Block) : Block :=
  fetch r d 2 (.fenceReset r d) (fenceOpChecks d) (fun _ => []) startFenceOp b
def doFenceGrant (r : Ring) (d : Line) (b : Block) : Block :=
  fetch r d 2 (.fenceGrant r d) (fenceOpChecks d) (fun _ => []) startFenceOp b
def doFenceWait (r : Ring) (d : Line) (b : Block) : Block :=
  fetch r d 3 (.fenceWait r d) (fenceWaitChecks r d) (fun _ => []) startFenceWait b

def execSqTail (q : Tgt) (s : State) : Out := onAccess (.sqTail q) (doSqTail q) s
def execCqHead (q : Tgt) (s : State) : Out := onAccess (.cqHead q) (doCqHead q) s
def execAttnAck (q : Tgt) (s : State) : Out := onAccess (.attnAck q) (doAttnAck q) s
def execLatchedHalfRead (q : Tgt) (s : State) : Out := onAccess (.latchedHalfRead q) (doTgtRead q) s
def execNop (r : Ring) (d : Line) (s : State) : Out := onSettled (doNop r d) s
def execFenceSignal (r : Ring) (d : Line) (s : State) : Out := onSettled (doFenceSignal r d) s
def execFenceReset (r : Ring) (d : Line) (s : State) : Out := onSettled (doFenceReset r d) s
def execFenceGrant (r : Ring) (d : Line) (s : State) : Out := onSettled (doFenceGrant r d) s
def execFenceWait (r : Ring) (d : Line) (s : State) : Out := onSettled (doFenceWait r d) s
def execFenceWaitTimeout (r : Ring) (index : BitVec 16) (s : State) : Out := onSettled (doFenceWaitTimeout r index) s

end Sys2Proof.Machine
end

