-- ==== Sys2Proof/Machine/Hanks.lean ====
section
/-! DEFINITION. Hanks: allocation, references, revocation, the mailbox and the request window (R149 to R155, R390 to R393).
Choices marked in the log: DEDUCED 35, 38, 39, 138; DESIGN CHOICE 32, 132, 139. -/

namespace Sys2Proof.Machine

/-- Hanks of a slice that HANK_ALLOC may give: not its epoch MAC blocks, not the boot carve-out (R143, R511). -/
def zoneLimit (l : Layout) (m : ZoneMap) : Nat :=
  let top := m.baseHank + m.hanks - m.eblocks
  if m.baseHank ≤ l.bootBase && decide (l.bootBase < top) && !m.dedicated && decide (0 < l.bootHanks) then l.bootBase else top

/-- Hanks of a zone that are not FREE, ascending. -/
def zoneUsed (m : ZoneMap) (lim : Nat) (b : Block) : List Nat :=
  (b.mem.hanks.filter fun e => decide (m.baseHank ≤ e.1) && decide (e.1 < lim) && e.2.st != .free).map (·.1)

/-- Runs of FREE hanks between the used ones: (start, length). -/
def gaps (lim : Nat) : Nat → List Nat → List (Nat × Nat)
  | at', [] => if at' < lim then [(at', lim - at')] else []
  | at', u :: us => if at' < u then (at', u - at') :: gaps lim (u + 1) us else gaps lim (u + 1) us

/-- The `i`-th start of a run of `n` hanks in the gaps. -/
def pickStart (n : Nat) : List (Nat × Nat) → Nat → Nat
  | [], _ => 0
  | (s, len) :: gs, i => if i < len + 1 - n then s + i else pickStart n gs (i - (len + 1 - n))

/-- Epoch MAC blocks of a zone, numbered zone × 1,024 + block (R110, R143). -/
def freeEblocks (m : ZoneMap) (b : Block) : List Nat :=
  ((List.range (8 * m.eblocks)).map fun i => m.zone * 1024 + i).filter fun i => !b.mem.eblocks.contains i

/-- MAC_EN of a class E key's region (R108). -/
def keyMacEn (keyId : Nat) (b : Block) : Bool := match amGet keyId b.mem.keys with
  | some e => e.cls = .E && (match amGet e.region b.mem.regions with | some r => r.macEn | none => false)
  | none => false

/-- Hanks that count against a skein's quota (R152), and class E hanks that count against R107. -/
def quotaHanks (n : Nat) (b : Block) : Nat :=
  (b.mem.hanks.filter fun e => e.2.skein == n && (e.2.st == .allocated || e.2.st == .revoked)).length
def classEHanks (b : Block) : Nat := (b.mem.hanks.filter fun e => e.2.cls == .E && e.2.st != .free).length

/-- The zones a skein may allocate from (R151). -/
def permitted (s : Skein) (b : Block) : List ZoneMap := b.mem.lay.zones.filter fun m => s.zones.testBit m.zone

/-- An allocation would pass the skein's quota (R152), or the limit on class E hanks (R107). -/
def overQuota (s : Skein) (n keyId count : Nat) (b : Block) : Bool :=
  decide (s.hankQuota < quotaHanks n b + count) ||
    (((amGet keyId b.mem.keys).map (·.cls)) == some .E && decide (1024 < classEHanks b + count))

/-- The outcome of an allocation: the run's first hank; else the status, QUOTA. -/
def allocHanks (n keyId count : Nat) (b : Block) : Except (BitVec 8) Nat × Block :=
  match getSkein n b, amGet keyId b.mem.keys with
  | some s, some e =>
    if s.st = .destroying || s.st = .swapped then (.error cNotPermitted, b)
    else if overQuota s n keyId count b then (.error cQuota, b)
    else
      let mac := keyMacEn keyId b
      let info := (permitted s b).map fun m =>
        let lim := zoneLimit b.mem.lay m
        let used := zoneUsed m lim b
        (m, (gaps lim m.baseHank used).filter fun g => decide (count ≤ g.2), lim - m.baseHank - used.length)
      let ok := info.filter fun i => !i.2.1.isEmpty && (!mac || decide (count ≤ (freeEblocks i.1 b).length))
      match argMax (fun i => i.2.2) ok with
      | none => (.error cQuota, b)
      | some (m, gs, _) =>
        let (c, b) := choose (sumNat (gs.map fun g => g.2 + 1 - count)) b
        let base := pickStart count gs c
        let ebs := if mac then (freeEblocks m b).take count else []
        let b := setMem (fun x => { x with eblocks := x.eblocks ++ ebs }) b
        let b := (List.range count).foldl (fun b i =>
          setHank (base + i) { getHank (base + i) b with
            st := .allocated, skein := n, keyId := keyId, cls := e.cls, holds := 1, uses := 0, revokedMark := false,
            eblock := if mac then ebs[i]? else none } b) b
        (.ok base, spoolFree 1 11 n base count b)
  | _, _ => (.error cNotPermitted, b)

/-- The run of hanks that BASE and COUNT name (R371). -/
def runOf (base count : Nat) : List Nat := (List.range count).map (· + base / hankBytes)

/-- The spill extent of a line of the hank (R194). -/
def ExtOwner.spillOf (h : Nat) : ExtOwner → Bool
  | .spill a => a / hankBytes == h
  | _ => false

/-! ### Open lines (R184, R185, R189) -/

def krOf (keyId : Nat) (b : Block) : Key := ((amGet keyId b.mem.keys).map (·.kr)).getD 0

/-- The value an absorber entry reads as, with the saturations of its rounding (R185, R191). -/
def absValue (e : AbsEntry) (b : Block) : Line × Nat := match e.acc with
  | some (fmt, rnd, tag, step, as) => accLine fmt rnd (roundBits (krOf e.keyId b) tag e.line step) as
  | none => (e.data, 0)

/-- The rounding blocks of a line, as a tier-5 unit of its skein: one for each eight elements under stochastic rounding (R187, R189). -/
def submitRound (skein keyId line fmt rnd : Nat) (b : Block) : Block :=
  if rnd = 1 then submitLine (some skein) false 0 keyId line 5 ((elemCount fmt + 7) / 8) b else b

/-- Round an entry's value: its rounding blocks run, and where the rounded value is written its saturations count (R189, R191). -/
def absRead (written : Bool) (e : AbsEntry) (b : Block) : Line × Block := match e.acc with
  | none => (e.data, b)
  | some (fmt, rnd, _) =>
    let (x, sat) := absValue e b
    let b := submitRound e.skein e.keyId e.line fmt rnd b
    (x, if written && sat != 0 then bumpSk e.skein 104 sat b else b)

/-- Close the open lines of a hank (R184): the accumulators go, and a line held keeps its rounded value. -/
def closeLines (h : Nat) (b : Block) : Block :=
  let mine (e : AbsEntry) : Bool := e.line / hankBytes == h
  let b := (b.mem.abs.filter fun e => mine e && !e.spilled).foldl (fun b e => (absRead true e b).2) b
  let shut (e : AbsEntry) : AbsEntry := if mine e && e.acc.isSome then { e with acc := none, data := (absValue e b).1 } else e
  setMem (fun m => { m with
    abs := (m.abs.filter fun e => !(e.spilled && mine e)).map shut,
    extents := m.extents.filter fun e => !e.owner.spillOf h }) b

/-- Drop one hold of a hank (R390, R391). -/
def dropHold (h : Nat) (b : Block) : Block :=
  let x := getHank h b
  let b := setHank h { x with holds := x.holds - 1 } b
  let b := spoolFree 1 11 x.skein h 0 b
  let b := closeLines h b
  let b := if x.holds = 1 then { b with standing := b.standing.filter fun c => !(c.hanks.contains h) } else b
  settleHank h b

/-- Revoke a hank: its users complete with HANK_REVOKED (R392); `self` is the descriptor that revokes. -/
def revokeHank (self : Option Nat) (h : Nat) (b : Block) : Block :=
  let x := getHank h b
  if x.st != .allocated then b
  else
    let b := closeLines h b
    let b := spoolFree 1 11 x.skein h 1 (setHank h { x with st := .revoked, holds := 0 } b)
    let b := modSkein x.skein (fun s => match s.mailbox with
      | some mb => if mb.hank = h then { s with mailbox := none } else s
      | none => s) b
    let b := { b with standing := b.standing.filter fun c => !(c.hanks.contains h) }
    let users := b.descs.filter fun d => d.uses.contains h && some d.id != self
    let b := users.foldl (fun b d => finish d cHankRevoked b) b
    settleHank h b

/-! ### Descriptors -/

/-- The skein that a hank descriptor acts for (R371). -/
def hankTarget (r : Ring) (named : Nat) : Nat := match r with | .mgr => named | .skein n => n

def allocChecks (r : Ring) (d : Line) (b : Block) : Checks :=
  let n := hankTarget r (fieldAt d 20 2)
  { c4 := bodyReserved d [(16, 2), (18, 2), (20, 2)] || decide (4096 ≤ fieldAt d 16 2) || fieldAt d 18 2 == 0 ||
      decide (512 < fieldAt d 18 2) || (if r = .mgr then decide (1024 ≤ fieldAt d 20 2) else fieldAt d 20 2 != 0),
    c6 := (getSkein n b).isNone,
    c7 := checkKey n (fieldAt d 16 2) b }

def startAlloc (x : Desc) (b : Block) : Block :=
  let n := hankTarget x.ring (fieldAt x.raw 20 2)
  match checkKey n (fieldAt x.raw 16 2) b with
  | some c => finish x c b
  | none => match allocHanks n (fieldAt x.raw 16 2) (fieldAt x.raw 18 2) b with
    | (.ok base, b) => complete x cOK (resAt 16 8 (base * hankBytes)) b
    | (.error c, b) => finish x c b

/-- Fields of HANK_FREE and HANK_REF (R371). -/
def hBase (d : Line) : Nat := fieldAt d 16 8
def hCount (d : Line) : Nat := fieldAt d 24 2
def hFlags (d : Line) : Nat := fieldAt d 26 1
def hRun (d : Line) : List Nat := runOf (hBase d) (hCount d)

/-- Checks 3, 4, 6 and 8 of HANK_FREE and HANK_REF. -/
def hankChecks (r : Ring) (d : Line) (b : Block) : Checks :=
  let n := hankTarget r (fieldAt d 28 2)
  let rev := (hFlags d).testBit 0
  let mb := (hFlags d).testBit 1
  { c3 := failIf ((rev && r != .mgr) || (mb && r == .mgr)) cNotPermitted,
    c4 := bodyReserved d [(16, 8), (24, 2), (26, 1), (28, 2)] || decide (3 < hFlags d) || hBase d % hankBytes != 0 ||
      decide (2 ^ 52 ≤ hBase d) || hCount d == 0 || decide (512 < hCount d) ||
      (mb && hCount d != 1) || (mb && dOpcode d == 9 && hBase d != 0) ||
      (if r = .mgr then decide (1024 ≤ fieldAt d 28 2) else fieldAt d 28 2 != 0),
    c6 := (getSkein n b).isNone,
    c8 := if mb && dOpcode d == 9 then none else checkHanks n none (hRun d) b }

def startFree (x : Desc) (b : Block) : Block := finish x cOK ((hRun x.raw).foldl (fun b h => dropHold h b) b)

def startRevoke (x : Desc) (b : Block) : Block :=
  finish x cOK ((hRun x.raw).foldl (fun b h => revokeHank (some x.id) h b) b)

/-- HANK_REF: all or none, QUOTA past 65,535 (R390). -/
def refRun (hs : List Nat) (b : Block) : BitVec 8 × Block :=
  if hs.any fun h => decide (65535 ≤ (getHank h b).holds) then (cQuota, b)
  else (cOK, hs.foldl (fun b h => setHank h { getHank h b with holds := (getHank h b).holds + 1 } b) b)

def startRef (x : Desc) (b : Block) : Block :=
  let (c, b) := refRun (hRun x.raw) b
  complete x c (if c = cOK then resAt 12 2 (getHank (hBase x.raw / hankBytes) b).holds else 0) b

/-- HANK_REF with MAILBOX (R393). -/
def startMailboxName (x : Desc) (b : Block) : Block :=
  let h := hBase x.raw / hankBytes
  let n := (ringOwner x.ring).getD 0
  if (getHank h b).cls != .S then finish x cNotPermitted b
  else
    let (c, b) := refRun [h] b
    if c != cOK then finish x c b
    else
      let old := ((getSkein n b).bind (·.mailbox)).map (·.hank)
      let b := modSkein n (fun s => { s with mailbox := some { hank := h } }) b
      let b := match old with | some o => dropHold o b | none => b
      complete x cOK (resAt 12 2 (getHank h b).holds) b

/-- HANK_FREE with MAILBOX (R393). -/
def startMailboxRelease (x : Desc) (b : Block) : Block :=
  let n := (ringOwner x.ring).getD 0
  match (getSkein n b).bind (·.mailbox) with
  | none => finish x cNotPermitted b
  | some mb => finish x cOK (dropHold mb.hank (modSkein n (fun s => { s with mailbox := none }) b))

/-- HANK_FREE and HANK_REF by their HFLAGS (R371). -/
def startHankFree (x : Desc) (b : Block) : Block :=
  if (hFlags x.raw).testBit 1 then startMailboxRelease x b
  else if (hFlags x.raw).testBit 0 then startRevoke x b else startFree x b
def startHankRef (x : Desc) (b : Block) : Block := if (hFlags x.raw).testBit 1 then startMailboxName x b else startRef x b

/-- HANK_FREE with REVOKE or MAILBOX, which needs no hold of its run (R392, R393). -/
def freeUsesNone (d : Line) : Bool := dOpcode d == 9 && hFlags d != 0

/-- A held HANK_FREE or HANK_REF starts: a hold dropped meanwhile ends it (R390, R391). -/
def resumeHank (start : Desc → Block → Block) (x : Desc) (b : Block) : Block :=
  if freeUsesNone x.raw then start x b
  else match checkHanks (hankTarget x.ring (fieldAt x.raw 28 2)) none (hRun x.raw) b with
    | some st => finish x st b
    | none => start x b

/-- The hanks that HANK_FREE names: none with MAILBOX (R393). -/
def freeUses (d : Line) (_ : Block) : List Nat := if (hFlags d).testBit 1 then [] else hRun d

def doHankAlloc (r : Ring) (d : Line) (b : Block) : Block :=
  fetch r d 8 (.hankAlloc r d) (allocChecks r d) (fun _ => []) startAlloc b
def doHankFree (r : Ring) (d : Line) (b : Block) : Block :=
  fetch r d 9 (.hankFree r d) (hankChecks r d) (freeUses d) startHankFree b
def doHankRevoke (r : Ring) (d : Line) (b : Block) : Block :=
  fetch r d 9 (.hankRevoke r d) (hankChecks r d) (freeUses d) startHankFree b
def doHankRef (r : Ring) (d : Line) (b : Block) : Block :=
  fetch r d 10 (.hankRef r d) (hankChecks r d) (fun _ => hRun d) startHankRef b
def doMailboxName (r : Ring) (d : Line) (b : Block) : Block :=
  fetch r d 10 (.mailboxName r d) (hankChecks r d) (fun _ => hRun d) startHankRef b
def doMailboxRelease (r : Ring) (d : Line) (b : Block) : Block :=
  fetch r d 9 (.mailboxRelease r d) (hankChecks r d) (freeUses d) startHankFree b

/-! ### The request window -/

/-- STATE of a cell (R154). -/
def cellState (c : Line) : Nat := fieldAt c 33 1
def getCell (n i : Nat) (b : Block) : Line := ((getSkein n b).map fun s => amGetD 0 i s.cells).getD 0
def setCell (n i : Nat) (c : Line) (b : Block) : Block :=
  modSkein n (fun s => { s with cells := amPut 0 i c s.cells }) b

/-- Accept a cell's request: it is PENDING, in the order of acceptance (R34, R153, R154). -/
def pendCell (n i : Nat) (c : Line) (b : Block) : Block :=
  let b := modSkein n (fun s => { s with cellOrder := s.cellOrder ++ [(i, b.nextDesc)] }) (setCell n i (c ||| putAt 512 33 1 1) b)
  { b with nextDesc := b.nextDesc + 1 }

/-- Complete a cell: STATUS, DONE, the reply status, RESULT and TAG_ECHO (R154). -/
def doneCell (n i : Nat) (st : BitVec 8) (result : Nat) (b : Block) : Block :=
  let c := getCell n i b
  let low : Line := BitVec.ofNat 512 (c.toNat % 2 ^ 256)
  let b := modSkein n (fun s => { s with cellOrder := s.cellOrder.filter fun e => e.1 != i }) b
  setCell n i (low ||| putAt 512 32 1 st.toNat ||| putAt 512 33 1 2 ||| putAt 512 34 2 (getView (.skein n) b).status.toNat |||
    putAt 512 40 8 result ||| putAt 512 48 8 (fieldAt c 16 8)) b

/-- FREE hanks of a zone that HANK_ALLOC may give. -/
def zoneFree (m : ZoneMap) (b : Block) : Nat :=
  let lim := zoneLimit b.mem.lay m
  lim - m.baseHank - (zoneUsed m lim b).length

/-- An allocation that passes its quotas waits for hanks: no permitted zone has enough of them FREE, and one is still ZEROING (R155). -/
def awaitsZeroing (n keyId count : Nat) (b : Block) : Bool := match getSkein n b with
  | none => false
  | some s => !overQuota s n keyId count b && (permitted s b).all (fun m => decide (zoneFree m b < count)) &&
    (permitted s b).any fun m =>
      b.mem.hanks.any fun e => e.2.st == .zeroing && decide (m.baseHank ≤ e.1) && decide (e.1 < m.baseHank + m.hanks)

/-- Run the request of a PENDING cell (R153 to R155); an allocation that may yet find zeroed hanks stays PENDING. -/
def runCell (n i : Nat) (b : Block) : Block :=
  let c := getCell n i b
  let op := fieldAt c 0 1
  let count := fieldAt c 4 2
  let run := runOf (fieldAt c 8 8) count
  if op = 8 then
    match checkKey n (fieldAt c 2 2) b with
    | some st => doneCell n i st 0 b
    | none => match allocHanks n (fieldAt c 2 2) count b with
      | (.ok base, b) => doneCell n i cOK (base * hankBytes) b
      | (.error st, b') => if st = cQuota && awaitsZeroing n (fieldAt c 2 2) count b then b else doneCell n i st 0 b'
  else
    match checkHanks n none run b with
    | some st => doneCell n i st 0 b
    | none =>
      if op = 9 then doneCell n i cOK 0 (run.foldl (fun b h => dropHold h b) b)
      else let (st, b) := refRun run b; doneCell n i st 0 b

/-- An earlier operation on the skein holds the cell accepted at place `t`; a drain holds none (R34, R272). -/
def cellHeld (n t : Nat) (b : Block) : Bool := busyBefore n (pastDrain n t b) b

/-- Run the PENDING cells in the order of acceptance: those that wait for zeroed hanks (R155) or behind another operation (R34). -/
def retryCells (b : Block) : Block :=
  b.skeins.foldl (fun b s => s.2.cellOrder.foldl (fun b c => if cellHeld s.1 c.2 b then b else runCell s.1 c.1 b) b) b

/-- A refusal at the request window port, as R20 refuses a request: a refused write is counted as dropped too (R154, R485). -/
def refuseWindow (tag : Nat) (write : Bool) (b : Block) : Block := match slotSkein tag b with
  | some (n, _) =>
    let b := bumpSk n 144 1 b
    raiseViews { cls := 4, skein := some n, cause := cNotPermitted } (if write then bumpSk n 152 1 b else b)
  | none => raiseViews { cls := 4, noView := true, cause := cNotPermitted } (bumpRefused b)

/-- A malformed value that a cell write completes with DESCRIPTOR_INVALID: a BASE that is the address of no hank is one (R154). -/
def cellMalformed (c : Line) (b : Block) : Bool :=
  let op := fieldAt c 0 1
  (op != 8 && op != 9 && op != 10) || fieldAt c 4 2 == 0 || decide (512 < fieldAt c 4 2) || decide (4096 ≤ fieldAt c 2 2) ||
    (op != 8 && (fieldAt c 8 8 % hankBytes != 0 || (b.mem.lay.zoneOfHank (fieldAt c 8 8 / hankBytes)).isNone))

/-- A reserved field of the request half, or a byte of the answer half, is not zero (R154). DESIGN CHOICE: of the answer half's fields
that are not marked Reserved, bytes that are not zero drop the write too; the spec asks for zeros there and says no more. -/
def cellReserved (c : Line) : Bool :=
  fieldAt c 1 1 != 0 || fieldAt c 6 2 != 0 || fieldAt c 24 8 != 0 || decide (2 ^ 256 ≤ c.toNat)

/-- One counter window line (R458, R459). -/
def counterLine (n off : Nat) (b : Block) : Line := match getSkein n b with
  | none => 0
  | some s => (List.range 8).foldl (fun acc i =>
    let o := off + 8 * i
    let v := if o = 0 then b.tim.t.toNat else if o = 8 then b.tim.quality
      else if 256 ≤ o ∧ o < 1280 then
        let k := (o - 256) / 64
        let f := (o - 256) % 64
        if f = 0 then (amGetD 0 (2 * k) s.selectors).toNat + (amGetD 0 (2 * k + 1) s.selectors).toNat * 2 ^ 32
        else amGetD 0 (64 * k + f) s.buckets
      else amGetD 0 o s.ctrs
    acc ||| putAt 512 (8 * i) 8 v) 0

/-- A write to a cell by a window row whose OP is `op`, or a read of the window port (R154, R457, R485). -/
def doWindow (op : Nat) (q : Wreq) (b : Block) : Block :=
  let slot := q.addr.toNat / 8192
  let off := q.addr.toNat % 8192
  let i := off / 64
  match slotSkein slot b with
  | none => refuseWindow q.skeinTag.toNat (!q.read) b
  | some (n, s) =>
    if slot != q.skeinTag.toNat || b.row.slots ≤ slot then refuseWindow q.skeinTag.toNat (!q.read) b
    else if q.read then
      if off < 4096 then emit (.wrsp cOK (getCell n i b)) b else emit (.wrsp cOK (counterLine n (i * 64 - 4096) b)) b
    else if off ≥ 4096 then bumpSk n 144 1 b
    else
      let wop := fieldAt q.data 0 1
      if wop != op && (wop = 8 || wop = 9 || wop = 10) then b
      else if s.st = .destroying then
        modSkein n (fun s => { s with counts := { s.counts with dropped := s.counts.dropped + 1 } }) (bumpSk n 152 1 b)
      else if q.size8 || off % 64 != 0 || cellState (getCell n i b) == 1 || cellReserved q.data then bumpSk n 152 1 b
      else
        let t := b.nextDesc
        let b := pendCell n i q.data b
        if s.st = .resetting then doneCell n i cResetting 0 b
        else if cellMalformed q.data b then doneCell n i cInvalid 0 b
        else if cellHeld n t b then b
        else runCell n i b

def doWindowHankAlloc (q : Wreq) (b : Block) : Block := doWindow 8 q b
def doWindowHankFree (q : Wreq) (b : Block) : Block := doWindow 9 q b
def doWindowHankRef (q : Wreq) (b : Block) : Block := doWindow 10 q b

/-- BUCKET_SELECTOR_WRITE (R457, R459): it clears its bucket's counts. -/
def doBucketSelector (q : Wreq) (b : Block) : Block :=
  let slot := q.addr.toNat / 8192
  let off := q.addr.toNat % 8192
  match slotSkein slot b with
  | none => refuseWindow q.skeinTag.toNat (!q.read) b
  | some (n, _) =>
    if slot != q.skeinTag.toNat || b.row.slots ≤ slot then refuseWindow q.skeinTag.toNat (!q.read) b
    else if q.read || !q.size8 || off < 4096 + 256 || 4096 + 1280 ≤ off || off % 64 != 0 then bumpSk n 144 1 b
    else
      let k := (off - 4096 - 256) / 64
      let v := fieldAt q.data 0 8
      modSkein n (fun s => { s with
        selectors := amPut 0 (2 * k) (BitVec.ofNat 32 v) (amPut 0 (2 * k + 1) (BitVec.ofNat 32 (v / 2 ^ 32)) s.selectors),
        buckets := s.buckets.filter fun e => e.1 / 64 != k }) b

/-- An access of the request window port: answered ABORTED while no request is served (R408, R437). -/
def onWindow (f : Block → Block) (s : State) : Out :=
  onSettled (fun b => if closed b then bumpRefused (emit (.wrsp cAborted 0) b) else f b) s

def execHankAlloc (r : Ring) (d : Line) (s : State) : Out := onSettled (doHankAlloc r d) s
def execHankFree (r : Ring) (d : Line) (s : State) : Out := onSettled (doHankFree r d) s
def execHankRevoke (r : Ring) (d : Line) (s : State) : Out := onSettled (doHankRevoke r d) s
def execHankRef (r : Ring) (d : Line) (s : State) : Out := onSettled (doHankRef r d) s
def execMailboxName (r : Ring) (d : Line) (s : State) : Out := onSettled (doMailboxName r d) s
def execMailboxRelease (r : Ring) (d : Line) (s : State) : Out := onSettled (doMailboxRelease r d) s
def execWindowHankAlloc (q : Wreq) (s : State) : Out := onWindow (doWindowHankAlloc q) s
def execWindowHankFree (q : Wreq) (s : State) : Out := onWindow (doWindowHankFree q) s
def execWindowHankRef (q : Wreq) (s : State) : Out := onWindow (doWindowHankRef q) s
def execBucketSelectorWrite (q : Wreq) (s : State) : Out := onWindow (doBucketSelector q) s

end Sys2Proof.Machine
end

