-- ==== Sys2Proof/Machine/MemPort.lean ====
section
/-! DEFINITION. The memory side: where lines lie, the reads and writes of the memory controllers, and class B extents (R106, R110,
R123 to R126, R142 to R148, R455, R481). Choices marked in the log: DEDUCED 26; DESIGN CHOICE 5, 32, 139. -/

namespace Sys2Proof.Machine

/-! ### Places -/

/-- The twist key of a data line: behind the reel mark a zone being retwisted uses its new key (R147, R160). -/
def zoneTk (m : ZoneMap) (addr : Nat) (b : Block) : BitVec 64 :=
  match amGet m.zone b.mem.reel.newTk with
  | some t => if addr < b.mem.reel.mark then t else amGetD 0 m.zone b.mem.tk
  | none => amGetD 0 m.zone b.mem.tk

/-- The twist key an access to `addr` fixes (R22). -/
def addrTk (addr : Nat) (b : Block) : BitVec 64 :=
  match b.mem.lay.zoneOfHank (addr / hankBytes) with
  | some m => zoneTk m addr b
  | none => 0

/-- Place of a data line under a twist key. -/
def dataPlace (tk : BitVec 64) (addr : Nat) (b : Block) : Nat :=
  match b.mem.lay.zoneOfHank (addr / hankBytes) with
  | some m => placeData m tk addr
  | none => 0

/-- Place of the line `off` of those of carve-out part `i` that serve a hank, `per` to a hank (R106, R147). -/
def carvePlace (h i per off : Nat) (b : Block) : Option Nat :=
  (b.mem.lay.zoneOfHank h).map fun m =>
    placeCarve m (amGetD 0 m.zone b.mem.mkKeys) (carveStart b.mem.lay m i + per * (h - m.baseHank) + off)

/-- Place of the class S MAC line of a data line, and the line's slot (R75). -/
def macPlace (addr : Nat) (b : Block) : Nat × Nat :=
  ((carvePlace (addr / hankBytes) 2 4096 (addr % hankBytes / 512) b).getD 0, addr / 64 % 8)

/-- Address of the epoch MAC slot of a class E line, in its epoch MAC block (R110, R143). -/
def eMacAddr (addr : Nat) (b : Block) : Nat :=
  match (getHank (addr / hankBytes) b).eblock, b.mem.lay.zoneOfHank (addr / hankBytes) with
  | some eb, some m =>
    let k := eb % 1024
    (m.baseHank + m.hanks - m.eblocks + k / 8) * hankBytes + k % 8 * 262144 + addr % hankBytes / 8
  | _, _ => 0

/-- Place of a class E line's MAC line and the line's slot; the slot's own address fixes its twist generation (R156). -/
def eMacPlace (addr : Nat) (b : Block) : Nat × Nat :=
  let a := eMacAddr addr b
  (dataPlace (addrTk a b) a b, a / 8 % 8)

/-- Places of a counter block or node on a ply: its line, its MAC line and its slot there (R81, R106, R148). -/
def nodePlace (level idx ply : Nat) (b : Block) : Option (Nat × Nat × Nat) :=
  let l := b.mem.lay
  if 2 ≤ level then
    let v := upperNo l level idx
    some (placePly l ply v, placePlyMac l ply (v / 8), v % 8)
  else if level = 0 then
    (carvePlace (idx / 512) 1 512 (idx % 512) b).map fun k => (k, (carvePlace (idx / 512) 4 64 (idx % 512 / 8) b).getD 0, idx % 8)
  else
    (carvePlace (idx / 8) 0 8 (idx % 8) b).map fun k => (k, (carvePlace (idx / 8) 3 1 0 b).getD 0, idx % 8)

/-! ### Lanes -/

/-- Count 64 bytes of a lane's stack: data (read 0, written 128) or metadata (256) (R455). -/
def countMem (key base : Nat) (b : Block) : Block := bumpGlob (base + 8 * (physLane key / 16)) 64 b

/-- Write a line under a byte mask; `w` follows it until the controller takes it. A cached or returning copy of a MAC line
follows its writes. -/
def memPut (key : Nat) (mask : BitVec 64) (data : Line) (w : Option WFor) (plain : Option (Nat × Line)) (isMeta : Bool)
    (b : Block) : Block :=
  let b := setMem (fun m => { m with
    cells := amPut 0 key (mergeLine (amGetD 0 key m.cells) data mask) m.cells,
    fetches := m.fetches.map fun f => if f.macKey = key || f.key = key then { f with stale := true } else f,
    writes := match w with
      | some p => m.writes ++ [{ key := key, purpose := p, plain := plain }]
      | none => m.writes }) b
  let b := emit (.mreq (physLane key) 0 true (bankOf b.mem.kb (physLL key)) (rowCol (physLL key)) mask data) b
  countMem key (if isMeta then 256 else 128) b

/-- A line of a window that the Reel has read is written: its copy follows (R161). -/
def noteCopy (addr : Nat) (f : Option Moved → Moved) (b : Block) : Block :=
  if b.mem.reel.ahead.contains (addr / 65536 * 65536) then
    setMem (fun m => { m with reel := { m.reel with copies := amSet addr (f (amGet addr m.reel.copies)) m.reel.copies } }) b
  else b

/-- The line a controller returns inside a step: what it was last written, but for the changes the command names. -/
def rawRead (evs : MemEvs) (key : Nat) (isMeta : Bool) (b : Block) : Ret × Block :=
  let e := evs.find? fun e => e.key = key && e.place = .stack
  let line := amGetD 0 key b.mem.cells ^^^ ((e.map (·.flip)).getD 0)
  ({ data := line, ue := (e.map (·.ue)).getD false, ce := (e.map (·.ce)).getD false },
    countMem key (if isMeta then 256 else 0) b)

/-- A free MTAG of a lane; at most 256 reads are outstanding per lane (R481). -/
def freeMtag (lane : Nat) (b : Block) : Option Nat :=
  findBelow 256 fun t => !(b.mem.reads.any fun r => physLane r.key == lane && r.mtag == t)

/-- Present a read on its lane, or keep it until a tag is free. -/
def issueRead (fetch : Nat) (isMac : Bool) (key : Nat) (isMeta : Bool) (b : Block) : Block :=
  let lane := physLane key
  let b := countMem key (if isMeta then 256 else 0) b
  match freeMtag lane b with
  | some t =>
    setMem (fun m => { m with reads := m.reads ++ [{ key := key, mtag := t, fetch := fetch, isMac := isMac }] })
      (emit (.mreq lane t false (bankOf b.mem.kb (physLL key)) (rowCol (physLL key)) 0 0) b)
  | none => setMem (fun m => { m with reads := m.reads ++ [{ key := key, mtag := 256, fetch := fetch, isMac := isMac }] }) b

/-- Present the oldest read of a lane that waits for a tag. -/
def issueWaiting (lane : Nat) (b : Block) : Block :=
  match b.mem.reads.find? fun r => physLane r.key == lane && r.mtag == 256, freeMtag lane b with
  | some r, some t =>
    let upd (x : MRead) : MRead := if x = r then { x with mtag := t } else x
    setMem (fun m => { m with reads := m.reads.map upd })
      (emit (.mreq lane t false (bankOf b.mem.kb (physLL r.key)) (rowCol (physLL r.key)) 0 0) b)
  | _, _ => b

/-! ### Class B extents -/

/-- First line of a free run of `n` lines in the boot carve-out, the lowest (R123). -/
def freeRun (n : Nat) (b : Block) : Option Nat :=
  let l := b.mem.lay
  let base := l.bootBase * hankBytes
  let top := base + l.bootHanks * hankBytes
  let ends := base :: b.mem.extents.map fun e => e.base + 64 * e.lines
  let ok (a : Nat) : Bool := decide (base ≤ a) && decide (a + 64 * n ≤ top) &&
    !(b.mem.extents.any fun e => decide (e.base < a + 64 * n) && decide (a < e.base + 64 * e.lines))
  argMin id (ends.filter ok)

/-- Write one class B line with its MAC (R125). -/
def writeLineB (count : BitVec 64) (addr : Nat) (x : Line) (b : Block) : Block :=
  let c : Ctr := .b count
  let k := b.mem.kbKey
  let b := submitLine none false 0 classBKeyId addr 4 5 b
  let b := noteCopy addr (fun _ => .stored (cryptLine k c addr x)) b
  let b := memPut (dataPlace (addrTk addr b) addr b) fullMask (cryptLine k c addr x) none none false b
  let (mk, j) := macPlace addr b
  memPut mk (slotMask j) (putMacSlot 0 j (lineMac k c addr x)) none none true b

/-- The lines of a byte string, the last one filled with zeros. -/
def toLines (bs : Bytes) : List Line :=
  (List.range ((bs.length + 63) / 64)).map fun i => ofBytes 512 (sliceBytes bs (64 * i) 64)

/-- Write an extent whole under a new count (R123); none where the carve-out has no free run for it. -/
def writeExtent (owner : ExtOwner) (xs : List Line) (b : Block) : Option Block :=
  (freeRun xs.length b).map fun base =>
    let count := b.mem.lineCtr
    let b := setMem (fun m => { m with
      lineCtr := m.lineCtr + 1,
      extents := m.extents ++ [{ owner := owner, base := base, lines := xs.length, count := count }] }) b
    (List.range xs.length).foldl (fun b i => writeLineB count (base + 64 * i) (xs.getD i 0) b) b

def findExtent (o : ExtOwner) (b : Block) : Option Extent := b.mem.extents.find? fun e => decide (e.owner = o)
def dropExtents (p : ExtOwner → Bool) (b : Block) : Block :=
  setMem (fun m => { m with extents := m.extents.filter fun e => !p e.owner }) b

end Sys2Proof.Machine
end

