-- ==== Sys2Proof/Machine/FaultRec.lean ====
section
/-! DEFINITION. Fault records, their lists and the host fault log (R421 to R424). Choices marked in the log: DESIGN CHOICE 139. -/

namespace Sys2Proof.Machine

/-- An entry of a fault record's list (R423). -/
structure FaultEntry where
  entry : BitVec 64
  outcome : Nat
  skein : Nat

/-- What an event gives its fault record (R422). -/
structure FaultRec where
  kind : Nat
  action : Nat := 0
  aclass : Nat := 0
  cause : Nat := 0
  incomplete : Bool := false
  unit : Nat := 0
  object : Nat := 0
  slots : Nat := 0
  list : List FaultEntry := []
  producer : Nat := 0
  checker : Nat := 0
  third : Nat := 0
  caught : Nat := 0
  /-- TEST_RESULT, offset 64 in bits [7:0]. -/
  test : Nat := 0

/-- The 16 bytes of a list entry (R423). -/
def FaultEntry.bytes (e : FaultEntry) : Bytes :=
  toBytes 8 e.entry ++ leBytes 1 e.outcome ++ leBytes 1 0 ++ leBytes 2 e.skein ++ zeroBytes 4

/-- The 128-B record (R422). -/
def FaultRec.words (r : FaultRec) (id : Nat) (b : Block) : BitVec 1024 :=
  let f (off n v : Nat) : BitVec 1024 := putAt 1024 off n v
  let l := r.list.take 4096
  f 0 2 1 ||| f 2 1 r.kind ||| f 3 1 r.action ||| f 4 4 id ||| f 8 8 b.tim.t.toNat ||| f 16 1 b.tim.quality |||
    f 17 1 r.aclass ||| f 18 1 r.cause ||| f 19 1 (b2n r.incomplete) ||| f 20 4 r.unit ||| f 24 8 r.object |||
    f 32 8 r.slots ||| f 40 4 l.length ||| f 44 4 (l.filter fun e => e.outcome = 1).length |||
    f 48 4 (l.filter fun e => e.outcome = 2).length ||| f 56 2 r.producer ||| f 58 2 r.checker ||| f 60 2 r.third |||
    f 62 1 r.caught ||| f 64 16 r.test

/-- SLOTS of the resident skeins among those given (R422). -/
def affected (ns : List Nat) (b : Block) : Nat :=
  ns.foldl (fun m n => match (getSkein n b).bind (·.slot) with | some s => m ||| 2 ^ s | none => m) 0

/-- Whether an extent holds a fault list. -/
def ExtOwner.isFault : ExtOwner → Bool
  | .fault _ => true
  | _ => false

/-- Free the oldest fault lists until the share has an entry and the carve-out a run (R124). -/
def roomForList : Nat → Nat → Block → Block
  | 0, _, b => b
  | k + 1, n, b =>
    let fs := b.mem.extents.filter fun e => e.owner.isFault
    if fs.length < 4096 && (freeRun n b).isSome then b
    else match fs with
      | [] => b
      | f :: _ => roomForList k n (dropExtents (fun o => decide (o = f.owner)) b)

/-- Write the record and its list into the host log, wrapping over the oldest slots (R424). -/
def writeLog (rec : BitVec 1024) (list : Bytes) (b : Block) : Block :=
  let r := b.regs.fltLog
  let base := bitField r 63 12 * 4096
  if base = 0 then b
  else
    let n := 2 ^ (6 + bitField r 3 0)
    let at' := b.fltSlot % n
    let bs := (list.take (128 * (n - 1 - at')))
    let slots := 1 + (bs.length + 127) / 128
    let b := hostWrite (base + 128 * at') (toBytes 128 rec) b
    let b := hostWrite (base + 128 * (at' + 1)) bs b
    { b with fltSlot := (at' + slots) % n }

/-- Take the next FAULT_ID (R424). -/
def takeFaultId (b : Block) : Nat × Block := (b.faultNext, { b with faultNext := (b.faultNext + 1) % 2 ^ 32 })

/-- Write a fault record under a FAULT_ID already taken (R421 to R424). -/
def writeFault (id : Nat) (r : FaultRec) (b : Block) : Block :=
  let w := r.words id b
  let bs := (r.list.take 4096).flatMap FaultEntry.bytes
  let b := spoolEvent 1 ownBlock r.cause r.aclass id b
  let b := { b with faults := ((id, w) :: b.faults).take 64 }
  let b := if bs = [] || b.mem.lay.bootHanks == 0 then b
    else
      let xs := toLines bs
      let b := roomForList b.mem.extents.length xs.length b
      (writeExtent (.fault id) xs b).getD b
  writeLog w bs b

/-- Write a fault record: its FAULT_ID and the block after it (R421 to R424). -/
def faultRecord (r : FaultRec) (b : Block) : Nat × Block :=
  let (id, b) := takeFaultId b
  (id, writeFault id r b)

end Sys2Proof.Machine
end

