-- ==== Sys2Proof/Machine/Units.lean ====
section
/-! DEFINITION. Retirement of whorls, adoption and the service threshold (R47, R48, R61, R66 to R68). -/

namespace Sys2Proof.Machine

/-- The service threshold of R68. -/
def serviceThreshold (b : Block) : Nat := b.row.pick 3876 1956 979

/-- Spindles outside the reservation in order of nearness: below it and above spindle 0 alternately (R47). -/
def adoptOrder (b : Block) : List Nat :=
  let n := b.row.spindles - 4
  (List.range n).map fun i => if i % 2 = 0 then n - 1 - i / 2 else i / 2

/-- Adopt one whorl (R47); crossing from 64 to 65 raises ACLASS 3 with its record (R48). -/
def adoptOne (b : Block) : Block :=
  let pick := (adoptOrder b).findSome? fun sp => findBelow 64 fun i => whorlIn (64 * sp + i) b && !b.wh.adopted.contains (64 * sp + i)
  let sp := (adoptOrder b).find? fun sp => (List.range 64).any fun i => whorlIn (64 * sp + i) b && !b.wh.adopted.contains (64 * sp + i)
  match pick, sp with
  | some i, some sp =>
    let b := spoolFree 1 9 ownBlock (64 * sp + i) 2 b
    let b := setWh (fun w => { w with adopted := (64 * sp + i) :: w.adopted }) b
    if 65 ≤ b.wh.adopted.length && !b.wh.adoptHigh then
      let b := setWh (fun w => { w with adoptHigh := true }) b
      let (id, b) := faultRecord { kind := 0x0A, aclass := 3, unit := inServiceCount b } b
      raiseViews { cls := 3, fault := id } b
    else b
  | _, _ => b

/-- Whorls of the reservation in service, and the adopted ones. -/
def reservation (b : Block) : Nat :=
  (((List.range 256).map (· + 64 * firstReserved b)).filter fun w => whorlIn w b).length + b.wh.adopted.length

/-- Keep the reservation at 256 whorls (R47). -/
def keepReservation (b : Block) : Block :=
  (List.range (256 - reservation b)).foldl (fun b _ => adoptOne b) b

/-- The service threshold's attention and record (R68). -/
def checkThreshold (b : Block) : Block :=
  if inServiceCount b < serviceThreshold b then
    if b.wh.svcLow then b
    else
      let b := setWh (fun w => { w with svcLow := true }) b
      let (id, b) := faultRecord { kind := 0x0A, aclass := 3, unit := inServiceCount b } b
      raiseViews { cls := 3, fault := id } b
  else setWh (fun w => { w with svcLow := false }) b

/-- A check whose checker has left service is issued again to a new one (R61). -/
def reissueChecks (b : Block) : Block :=
  onArray (fun b => (b.wh.checks.filter fun c => !whorlIn c.checker b).foldl
    (fun b c => issueCheck c.producer c.entry c.blocks b)
    (setWh (fun w => { w with checks := w.checks.filter fun c => whorlIn c.checker b }) b)) b

/-- Retire whorls (R47, R61, R66 to R68). -/
def retireWhorls (ws : List Nat) (b : Block) : Block :=
  let new := ws.filter fun w => !b.wh.retired.contains w
  let b := new.foldl (fun b w => spoolFree 1 9 ownBlock w 0 b) b
  let b := setWh (fun x => { x with
    retired := x.retired ++ new, adopted := x.adopted.filter fun w => !new.contains w, testing := x.testing.filter fun w => !new.contains w }) b
  checkThreshold (keepReservation (reissueChecks b))

/-- Reserved whorls beyond 256 with the adopted ones: the most recently adopted go back to their spindles (R66, R419). -/
def releaseAdopted (b : Block) : Block :=
  let extra := reservation b - 256
  setWh (fun x => { x with
    adopted := x.adopted.drop extra, adoptHigh := x.adoptHigh && decide (65 ≤ (x.adopted.drop extra).length) }) b

/-- Return whorls to service: a reserved one releases the most recently adopted (R66). -/
def restoreWhorls (ws : List Nat) (b : Block) : Block :=
  let b := (ws.filter fun w => b.wh.retired.contains w).foldl (fun b w => spoolFree 1 9 ownBlock w 1 b) b
  let b := setWh (fun x => { x with retired := x.retired.filter fun w => !ws.contains w }) b
  checkThreshold (releaseAdopted b)

/-- Take whorls out of service for a test, at most two of a spindle; a reserved one only where another is adopted for it (R419). -/
def takeForTest (ws : List Nat) (b : Block) : Block :=
  ws.foldl (fun b w =>
    if 2 ≤ (b.wh.testing.filter fun v => spindleOf v == spindleOf w).length then b
    else
      let c := keepReservation (setWh (fun x => { x with testing := x.testing ++ [w], adopted := x.adopted.filter (· != w) }) b)
      if (isReserved w b || b.wh.adopted.contains w) && decide (reservation c < 256) then b else checkThreshold (reissueChecks c)) b

/-- Tested whorls come back. -/
def backFromTest (ws : List Nat) (b : Block) : Block :=
  checkThreshold (releaseAdopted (setWh (fun x => { x with testing := x.testing.filter fun w => !ws.contains w }) b))

end Sys2Proof.Machine
end

