-- ==== Sys2Proof/Machine/Catch.lean ====
section
/-! DEFINITION. Suspect sets, replays, catches, and the confirmation of a MAC mismatch (R65, R398 to R401, R404). Choices marked
in the log: DEDUCED 87, 148. -/

namespace Sys2Proof.Machine

/-! ### Suspect sets (R65, R400) -/

/-- The skein that owns a ledger entry. -/
def entrySkein (e : BitVec 64) (b : Block) : Option Nat :=
  let v := e.toNat
  let kind := v / 2 ^ 62
  if kind = 0 then
    let h := getHank (v % 2 ^ 46 * 64 / hankBytes) b
    if v / 2 ^ 46 % 4096 ≥ classBKeyId || h.st = .free then none else if h.skein < 1024 then some h.skein else none
  else if kind = 1 then
    if v / 2 ^ 57 % 32 < 18 then (amGet (v / 2 ^ 45 % 4096) b.fab.sessions).map (·.skein) else none
  else (slotSkein (v / 2 ^ 56 % 64) b).map (·.1)

/-- Bits of the slots whose skeins own entries. -/
def slotBits (es : List (BitVec 64)) (b : Block) : Nat :=
  es.foldl (fun m e => match (entrySkein e b).bind fun n => (getSkein n b).bind (·.slot) with | some s => m ||| 2 ^ s | none => m) 0

/-- Take a whorl's ledger, which is then clear; whether a word of it was lost (R65, R397). -/
def takeLedger (w : Nat) (b : Block) : List (BitVec 64) × Bool × Block :=
  (amGetD [] w b.wh.ledgers, b.wh.badLedgers.contains w,
   setWh (fun x => { x with ledgers := amDel w x.ledgers, badLedgers := x.badLedgers.erase w }) b)

/-! ### Replays (R400 step 3) -/

/-- A forced unit of tier 4 that waits or runs. -/
def isReplay (u : WUnit) : Bool := u.forced && u.tier == 4

/-- A skein's replay is under way. -/
def replaying (b : Block) : Bool :=
  b.wh.waiting.any isReplay || (b.wh.running.any fun r => isReplay r.unit) || b.wh.queues.any fun q => q.2.any isReplay

/-- Begin the replay of the next skein, in slot order, once the one before it has completed. -/
def nextReplay (b : Block) : Block := onArray (fun b =>
  if replaying b then b
  else match argMin (·.slot) b.wh.replays with
    | none => b
    | some u =>
      let mine (v : WUnit) : Bool := v.slot == u.slot
      let us := b.wh.replays.filter mine
      us.foldl (fun b v => place v b) (setWh (fun w => { w with replays := w.replays.filter fun v => !mine v }) b)) b

/-- Replay discarded units on other whorls, with re-spin forced on every block, as tier-4 work. -/
def replay (us : List WUnit) (b : Block) : Block :=
  nextReplay (setWh (fun w => { w with
    replays := w.replays ++ us.map fun u => { u with tier := 4, forced := true, home := none } }) b)

/-- Discard what runs on whorls: the entries replayed, slot units being lost (R400, R404). -/
def replayWhorls (ws : List Nat) (b : Block) : List (BitVec 64) × Block :=
  let us := (b.wh.running.filter fun r => ws.contains r.whorl).map (·.unit)
  let b := setWh (fun x => { x with running := x.running.filter fun r => !ws.contains r.whorl }) b
  let b := { b with lostUnits := b.lostUnits ++ us.filter (·.slotUnit) }
  let mine := us.filter fun u => !u.slotUnit
  (mine.map (·.entry), replay mine b)

/-- Retire a whorl with its suspect sweep (R400, R403). -/
def beginSweep (x : Sweep) (b : Block) : Block :=
  let (r, b) := replayWhorls [x.whorl] (retireWhorls [x.whorl] b)
  let (es, bad, b) := takeLedger x.whorl b
  let x := { x with entries := es, replayed := x.replayed ++ r, incomplete := bad, slots := slotBits (es ++ x.replayed ++ r) b }
  { setWh (fun w => { w with sweeps := w.sweeps ++ [x] }) b with suspects := b.suspects ++ es }

/-- Catch a whorl: it is retired with a suspect sweep, and ACLASS 3 is raised (R400). -/
def catchWhorl (w p c t caught : Nat) (b : Block) : Block :=
  raiseViews { cls := 3, cause := cWhorlSuspect, object := w } (beginSweep
    { kind := 1, whorl := w, producer := p, checker := c, third := t, caught := caught, entries := [], replayed := [], incomplete := false,
      slots := 0 } b)

/-! ### Confirmation (R398) -/

/-- The item that a whorl computed: its ledger entry, the whorl blocks, and the skein that they count for. -/
structure Item where
  entry : BitVec 64
  blocks : Nat
  skein : Option Nat

/-- What a confirmation amounts to. -/
inductive Judged where
  /-- The item is sound. -/
  | good
  /-- The mismatch stands. -/
  | bad
  /-- No recomputation had all its checks agreeing. -/
  | suspect
deriving DecidableEq, Repr

/-- The whorl whose ledger names the item: the one that computed it. -/
def computedBy (e : BitVec 64) (b : Block) : Option Nat := (b.wh.ledgers.find? fun l => l.2.contains e).map (·.1)

/-- A whorl in service outside some spindles, the array's choice. -/
def otherWhorl (spindles : List Nat) (b : Block) : Option (Nat × Block) :=
  pickOne ((List.range b.row.whorls).filter fun w => whorlTakes w b && !spindles.contains (spindleOf w)) b

/-- Recompute an item on a whorl outside some spindles, with every block re-spun: like any unit it counts and enters the ledger. -/
def recompute (i : Item) (spindles : List Nat) (b : Block) : Block :=
  let u : WUnit := { id := 0, entry := i.entry, keyId := 0, slot := unitSlot i.skein b, tier := 5, blocks := i.blocks, slotUnit := false, forced := true }
  let b := onArray (fun b => match otherWhorl spindles b with
    | some (w, b) => produce w u i.blocks b
    | none => b) b
  let b := bumpGlob 928 i.blocks b
  match i.skein with
  | some n => bumpSk n 48 i.blocks b
  | none => b

/-- Recomputations one after another: the first whose checks all agree decides; each that the vote of R62 settles otherwise has its whorls
caught, and the next runs on a spindle not yet involved. -/
def confirmBy (i : Item) (sound : Bool) : List Redo → List Nat → Block → Judged × Block
  | [], _, b => (.suspect, b)
  | .agrees :: _, sps, b => (if sound then .good else .bad, recompute i sps b)
  | r :: rs, sps, b => match otherWhorl sps (recompute i sps b) with
    | none => (.suspect, b)
    | some (w, b) => match otherWhorl (spindleOf w :: sps) b with
      | none => (.suspect, b)
      | some (c, b) => match otherWhorl [spindleOf w, spindleOf c] b with
        | none => (.suspect, b)
        | some (t, b) =>
          let b := if r = .checker then b else catchWhorl w w c t (if r = .both then 3 else 1) b
          let b := if r = .producer then b else catchWhorl c w c t (if r = .both then 3 else 2) b
          confirmBy i sound rs (spindleOf w :: spindleOf c :: spindleOf t :: sps) b

/-- What the whorls do with the line at a place. -/
def whorlEv (evs : MemEvs) (key : Nat) : Bool × List Redo := match evs.find? fun e => e.key = key && e.place = .stack with
  | some e => (e.wrong, (e.redo ++ List.replicate 3 Redo.agrees).take 3)
  | none => (false, List.replicate 3 Redo.agrees)

/-- Confirm a MAC check of an item whose line lies at a place: a mismatch is recomputed on a whorl outside the spindle that computed the
item, at most three times. Where the item is sound it is used, the mismatch counts as recovered, and the whorl that computed it first is
caught; else the mismatch stands and counts as confirmed. `sound` says that the line verifies. -/
def confirm (evs : MemEvs) (key : Nat) (i : Item) (sound : Bool) (b : Block) : Judged × Block :=
  let e := whorlEv evs key
  if sound && !e.1 then (.good, b)
  else
    let first := if e.1 then computedBy i.entry b else none
    let (j, b) := confirmBy i sound e.2 (first.toList.map spindleOf) b
    match j, first with
    | .good, some w => (.good, bumpHealth 40 1 (catchWhorl w w 0 0 1 b))
    | .good, none => (.good, bumpHealth 40 1 b)
    | .bad, _ => (.bad, bumpHealth 32 1 b)
    | .suspect, _ => (.suspect, b)

/-! ### Reading class B extents -/

/-- Read one class B line; its error where it fails (R126, R398). -/
def readLineB (wk : Work) (evs : MemEvs) (count : BitVec 64) (addr : Nat) (b : Block) : Except (BitVec 8) Line × Block :=
  let c : Ctr := .b count
  let k := b.mem.kbKey
  let b := submitLineF wk.forced none false 0 classBKeyId addr wk.tier 5 b
  let key := dataPlace (addrTk addr b) addr b
  let (d, b) := rawRead evs key false b
  let (mk, j) := macPlace addr b
  let (m, b) := rawRead evs mk true b
  let x := cryptLine k c addr d.data
  if d.ue || m.ue then (.error cIntegrity, b)
  else match confirm evs key { entry := ledgerLine 0 classBKeyId addr, blocks := 5, skein := none } (lineMac k c addr x == macSlot m.data j) b with
    | (.good, b) => (.ok x, b)
    | (.bad, b) => (.error cIntegrity, b)
    | (.suspect, b) => (.error cWhorlSuspect, b)

/-- Read an extent whole; the status of the first line that fails (R126), and INTERNAL_ECC where its entry is lost (R397). -/
def readExtent (evs : MemEvs) (e : Extent) (b : Block) : Except (BitVec 8) (List Line) × Block :=
  if e.lost then (.error cEcc, b)
  else (List.range e.lines).foldl (fun acc i => match acc with
    | (.error st, b) => (.error st, b)
    | (.ok xs, b) => match readLineB { tier := 4 } evs e.count (e.base + 64 * i) b with
      | (.ok x, b) => (.ok (xs ++ [x]), b)
      | (.error st, b) => (.error st, b)) (.ok [], b)

end Sys2Proof.Machine
end

