-- ==== Sys2Proof/Machine/Tree.lean ====
section
/-! DEFINITION. The integrity tree: bobbin cache, verification, quarantine, write-back (03_sealed_memory, R78 to R105). Choices
marked in the log: DEDUCED 22, 85. -/

namespace Sys2Proof.Machine

/-! ### The bobbin cache -/

/-- Key of a bobbin entry; level 5 is a class S MAC line by address / 512. -/
def bobKey (level idx : Nat) : Nat := level * 2 ^ 40 + idx

/-- A cached node; the pinned L4 nodes are always cached, and zero until written (R83, R86). -/
def bobGet (level idx : Nat) (b : Block) : Option Line := match amGet (bobKey level idx) b.mem.bob with
  | some e => some e.data
  | none => if level = 4 then some 0 else none
def bobHas (level idx : Nat) (b : Block) : Bool := (bobGet level idx b).isSome
def bobLine (level idx : Nat) (b : Block) : Line := (bobGet level idx b).getD 0

/-- Enter or change a cached line. -/
def bobPut (part : Option Nat) (level idx : Nat) (x : Line) (dirty : Bool) (b : Block) : Block :=
  setMem (fun m => { m with
    useCount := m.useCount + 1,
    bob := amSet (bobKey level idx) { data := x, dirty := dirty, part := if 2 ≤ level && level ≤ 4 then none else part, use := m.useCount } m.bob }) b
def bobDel (level idx : Nat) (b : Block) : Block := setMem (fun m => { m with bob := amDel (bobKey level idx) m.bob }) b

/-- Note a use of a cached line. -/
def bobUse (level idx : Nat) (b : Block) : Block :=
  setMem (fun m => { m with useCount := m.useCount + 1, bob := amMod (bobKey level idx) (fun e => { e with use := m.useCount }) m.bob }) b

/-- Bytes that an entry of a level covers: a counter block, L1 to L4, a MAC line of data. -/
def covers (level : Nat) : Nat := if level = 5 then 512 else 4096 * 64 ^ level

/-- The partition that fills for an address are charged to: the slot of the resident skein that owns the hank (R88). -/
def partOf (addr : Nat) (b : Block) : Option Nat :=
  let h := getHank (addr / hankBytes) b
  if h.st = .allocated then (getSkein h.skein b).bind (·.slot) else none

/-! ### Quarantine -/

/-- The quarantined range that takes `n` bytes at `a` whole. -/
def quarOf (a n : Nat) (b : Block) : Option Quar :=
  b.mem.quar.find? fun q => decide (q.base ≤ a) && decide (a + n ≤ q.base + q.size)

/-- The skeins that own ALLOCATED hanks in a range. -/
def ownersIn (base size : Nat) (b : Block) : List Nat :=
  ((b.mem.hanks.filter fun e => e.2.st == .allocated && decide (base < (e.1 + 1) * hankBytes) &&
    decide (e.1 * hankBytes < base + size)).map fun e => e.2.skein).eraseDups

/-- Retire a hank whose step would pass 15: it is revoked as by the manager, its users complete, it leaves service for good once they
have, and ACLASS 3 is raised (R96). -/
def exhaustHank (h : Nat) (b : Block) : Block :=
  let b := setHank h { getHank h b with step := 16 } b
  let b := if (getHank h b).st = .allocated then revokeHank none h b
    else if (getHank h b).st = .revoked then b
    else setHank h { getHank h b with st := .retired } b
  raiseViews { cls := 3, object := h * hankBytes } b

/-- Quarantine a range (R99, R101, R102): its cached metadata is discarded, its owners are told, a fault record is written.
`level` 2 to 4 means that both plies failed. -/
def quarantine (base size level : Nat) (mismatch : Bool) (stack : Nat) (b : Block) : Block :=
  if (quarOf base size b).isSome then b
  else
    let inRange (k : Nat) (_ : Bob) : Bool :=
      let lv := k / 2 ^ 40
      let a := k % 2 ^ 40 * covers lv
      decide (base ≤ a) && decide (a + covers lv ≤ base + size)
    let b := setMem (fun m => { m with bob := m.bob.filter fun e => !inRange e.1 e.2 }) b
    let owners := ownersIn base size b
    let slots := owners.foldl (fun acc n => match (getSkein n b).bind (·.slot) with | some s => acc ||| 2 ^ s | none => acc) 0
    let upper := 2 ≤ level && level ≤ 4
    let (id, b) := faultRecord
      { kind := 5, action := 6, aclass := if upper then 3 else 2, unit := stack, object := base, slots := slots,
        list := [{ entry := BitVec.ofNat 64 base, outcome := 1, skein := owners.headD 0xFFFF }] } b
    let b := bumpHealth 48 1 b
    let b := if b.mem.quar.length < 1024 then
        setMem (fun m => { m with quar := m.quar ++ [{ base := base, size := size, level := level, fault := id }] }) b
      else
        (hanksOf base size).foldl (fun b h =>
          revokeHank none h (setHank h { getHank h b with reinit := true } b)) b
    let b := if upper then raiseViews { cls := 3, object := base, fault := id } b else b
    owners.foldl (fun b n =>
      let b := raiseViews { cls := 2, skein := some n, object := base, fault := id } b
      if mismatch && !upper then raiseViews { cls := 4, skein := some n, cause := cTree, object := base, fault := id } b else b) b

/-! ### Nodes -/

/-- The counter that a node's parent keeps for it; for L4 the root entry (R81). -/
def nodeCtr (level idx : Nat) (b : Block) : BitVec 64 × Nat :=
  if level = 4 then (amGetD 0 idx b.mem.roots, 0)
  else
    let p := bobLine (level + 1) (idx / 64) b
    (nodeMajor p, nodeMinor p (idx % 64))

/-- The step of an address: its hank's, or the next below the hank mark of a step that a pass takes with it (R160, R163). -/
def stepAt (addr : Nat) (b : Block) : Nat :=
  let s := (getHank (addr / hankBytes) b).step
  match amGet (addr / hankBytes) b.mem.reel.steps with
  | some mark => if addr < mark then s + 1 else s
  | none => s

/-- The step in a node's MAC context: its hank's for counter blocks and L1 nodes, else 0 (R81). -/
def nodeStep (level idx : Nat) (b : Block) : Nat := if level ≤ 1 then stepAt (idx * covers level + covers level - 1) b else 0

/-- A node's MAC under its parent's counter (R81). -/
def nodeMac (level idx : Nat) (x : Line) (b : Block) : BitVec 64 :=
  let (maj, mnr) := nodeCtr level idx b
  lineMac b.mem.ktree (.node maj mnr (nodeStep level idx b)) (nodeAddr b.mem.lay level idx) x

/-- The skein whose partition holds a node's metadata, and for whom its MAC counts: none from L2 up (R88). -/
def nodeSkein (level idx : Nat) (b : Block) : Option Nat :=
  let h := getHank (idx * covers level / hankBytes) b
  if level ≤ 1 && h.st = .allocated then some h.skein else none

/-- The unit that computes a node's MAC: its pad alone, since nodes are not enciphered (R63, R81). -/
def submitNode (level idx : Nat) (b : Block) : Block :=
  submitLine (nodeSkein level idx b) false 0 treeKeyId (nodeAddr b.mem.lay level idx) 5 1 b

/-- What a node's two returned lines say. -/
structure Verdict where
  ok : Bool
  /-- The MAC line came back uncorrectable. -/
  macUe : Bool
  mismatch : Bool
  /-- No recomputation of a mismatch was to be trusted (R398). -/
  suspect : Bool := false

/-- Judge a node's lines; a mismatch is confirmed first (R99, R398). -/
def judgeNode (evs : MemEvs) (level idx key slot : Nat) (d m : Ret) (b : Block) : Verdict × Block :=
  if m.ue then ({ ok := false, macUe := true, mismatch := false }, b)
  else if d.ue then ({ ok := false, macUe := false, mismatch := false }, b)
  else
    let item : Item := { entry := ledgerLine 0 treeKeyId (nodeAddr b.mem.lay level idx), blocks := 1, skein := nodeSkein level idx b }
    match confirm evs key item (nodeMac level idx d.data b == macSlot m.data slot) b with
    | (.good, b) => ({ ok := true, macUe := false, mismatch := false }, b)
    | (.bad, b) => ({ ok := false, macUe := false, mismatch := true }, b)
    | (.suspect, b) => ({ ok := false, macUe := false, mismatch := false, suspect := true }, b)

/-- Write a node's line and MAC slot, on both plies from L2 up, under its parent's counter (R85, R91). -/
def storeNode (level idx : Nat) (b : Block) : Block :=
  let x := bobLine level idx b
  let mac := nodeMac level idx x b
  let b := submitNode level idx b
  (List.range (if 2 ≤ level then 2 else 1)).foldl (fun b ply => match nodePlace level idx ply b with
    | some (k, mk, j) =>
      memPut mk (slotMask j) (putMacSlot 0 j mac) none none true (memPut k fullMask x none none true b)
    | none => b) b

/-- Change a cached node: it is dirty, but for an L4 node, which is written through under an advanced root entry (R86). -/
def putNode (level idx : Nat) (x : Line) (b : Block) : Block :=
  let part := ((amGet (bobKey level idx) b.mem.bob).map (·.part)).getD none
  if level = 4 then
    let b := bobPut none 4 idx x false b
    let b := setMem (fun m => { m with roots := amPut 0 idx (amGetD 0 idx m.roots + 1) m.roots }) b
    storeNode 4 idx b
  else bobPut part level idx x true b

/-- The stack of a node's first ply, for a fault record. -/
def nodeStack (level idx : Nat) (b : Block) : Nat := ((nodePlace level idx 0 b).map fun p => physLane p.1 / 16).getD 0

/-- Take a failed node's range out of service: its own, or the eight nodes of an uncorrectable MAC line (R99). -/
def nodeError (level idx : Nat) (v : Verdict) (b : Block) : Block :=
  let stack := nodeStack level idx b
  if v.suspect then b
  else if v.macUe then quarantine (idx / 8 * 8 * covers level) (8 * covers level) (if level ≤ 1 then 6 else level) v.mismatch stack b
  else quarantine (idx * covers level) (covers level) level v.mismatch stack b

/-- Rewrite the failed ply of a node from the other (R103); a mismatch raises ACLASS 4 in every view. -/
def repairPly (level idx ply : Nat) (x : Line) (mismatch : Bool) (b : Block) : Block :=
  let mac := nodeMac level idx x b
  let b := match nodePlace level idx ply b with
    | some (k, mk, j) => memPut mk (slotMask j) (putMacSlot 0 j mac) none none true (memPut k fullMask x none none true (submitNode level idx b))
    | none => b
  let b := { b with repaired := b.repaired + 1 }
  if mismatch then raiseViews { cls := 4, cause := cTree, object := idx * covers level } b else b

/-- Read a node's line and MAC line on a ply inside a step. -/
def readPly (evs : MemEvs) (level idx ply : Nat) (b : Block) : Line × Verdict × Block :=
  match nodePlace level idx ply b with
  | none => (0, { ok := false, macUe := false, mismatch := false }, b)
  | some (k, mk, j) =>
    let (d, b) := rawRead evs k true b
    let (m, b) := rawRead evs mk true (submitNode level idx b)
    let (v, b) := judgeNode evs level idx k j d m b
    (d.data, v, b)

/-- Read a node on its plies, the second where the first fails, and repair that from it (R103): its content; none where it does not
verify, with the last verdict. -/
def readNode (evs : MemEvs) (level idx : Nat) (b : Block) : Option Line × Verdict × Block :=
  let (x, v, b) := readPly evs level idx 0 b
  if v.ok then (some x, v, b)
  else if level < 2 || v.suspect then (none, v, b)
  else
    let (y, w, b) := readPly evs level idx 1 b
    if w.ok then (some y, w, repairPly level idx 0 y v.mismatch b)
    else (none, { w with mismatch := v.mismatch || w.mismatch, macUe := v.macUe && w.macUe }, b)

/-- Fetch and verify a node whose parent is cached: fresh, or from its plies (R83, R103); TREE_UNVERIFIABLE where its range is
quarantined. -/
def fetchNode (evs : MemEvs) (level idx : Nat) (b : Block) : BitVec 8 × Block :=
  let part := partOf (idx * covers level) b
  if nodeCtr level idx b = (0, 0) then (cOK, bobPut part level idx 0 false b)
  else match readNode evs level idx b with
    | (some x, _, b) => (cOK, bobPut part level idx x false b)
    | (none, v, b) => (if v.suspect then cWhorlSuspect else cTree, nodeError level idx v b)

/-- Bring a node into the cache, parents before children (R89); the status tells why a range on the way is out of service. -/
def ensure : Nat → MemEvs → Nat → Nat → Block → BitVec 8 × Block
  | 0, _, level, idx, b => (if bobHas level idx b then cOK else cTree, b)
  | k + 1, evs, level, idx, b =>
    if (quarOf (idx * covers level) (covers level) b).isSome then (cTree, b)
    else if bobHas level idx b then (cOK, bobUse level idx b)
    else
      let (st, b) := ensure k evs (level + 1) (idx / 64) b
      if st = cOK then fetchNode evs level idx b else (st, b)

/-! ### Lost cache words (R105) -/

/-- UNIT of R456. -/
def unitCode (code index : Nat) : Nat := code * 65536 + index

/-- Record a double-bit error; its FAULT_ID. -/
def dbeRecord (action aclass unit object : Nat) (skeins : List Nat) (list : List FaultEntry) (b : Block) : Nat × Block :=
  faultRecord { kind := 4, action := action, aclass := aclass, cause := cEcc.toNat, unit := unit, object := object, slots := affected skeins b, list := list } b

/-- Fetch an L4 node again from its plies under its root entry: its range is quarantined where the root word is lost or both plies fail
(R86, R105). -/
def refetchTop (evs : MemEvs) (idx : Nat) (b : Block) : Block :=
  if amGetD 0 idx b.mem.roots = 0 && !b.mem.badRoots.contains (idx / 4) then bobDel 4 idx b
  else if b.mem.badRoots.contains (idx / 4) then quarantine (idx * covers 4) (covers 4) 4 false (nodeStack 4 idx b) b
  else match readNode evs 4 idx b with
    | (some x, _, b) => bobPut none 4 idx x false b
    | (none, v, b) => nodeError 4 idx v b

/-- A double-bit error in a bobbin entry (R105): an L2 to L4 node takes its other copy, or is fetched again where both fail; another
entry is discarded, and a dirty one's range quarantined. -/
def loseBobbin (evs : MemEvs) (lv ix : Nat) (both : Bool) (b : Block) : Block := match amGet (bobKey lv ix) b.mem.bob with
  | none => b
  | some e =>
    let unit := unitCode 5 0
    if 2 ≤ lv && lv ≤ 4 then
      if !both then b
      else
        let b := bobDel lv ix b
        -- an older copy of a changed node would give counters out twice (R73)
        let b := if lv = 4 then refetchTop evs ix b
          else if e.dirty then quarantine (ix * covers lv) (covers lv) lv false (nodeStack lv ix b) b else b
        (dbeRecord 1 0 unit (ix * covers lv) (nodeSkein lv ix b).toList [] b).2
    else
      let b := bobDel lv ix b
      let b := if e.dirty then quarantine (ix * covers lv) (covers lv) lv false (nodeStack lv ix b) b else b
      (dbeRecord (if e.dirty then 6 else 1) 0 unit (ix * covers lv) (nodeSkein lv ix b).toList [] b).2

/-- The cached entry that an access to an address reads first: its counter block, or the lowest ancestor that is cached; a read takes the
class S MAC line too. -/
def readsFirst (addr : Nat) (b : Block) : List Nat :=
  let lv := (findBelow 5 fun l => (amGet (bobKey l (nodeIdx addr l)) b.mem.bob).isSome).getD 4
  [bobKey lv (nodeIdx addr lv), bobKey 5 (addr / 512)]

/-- A double-bit error in a cached word that an access reads: the access fails with INTERNAL_ECC (R105). -/
def bobbinHit (evs : MemEvs) (addr : Nat) (b : Block) : Option Block :=
  (evs.findSome? fun e => match e.place with
    | .bobbin both => if (readsFirst addr b).contains e.key && (amGet e.key b.mem.bob).isSome then some (e.key, both) else none
    | _ => none).map fun h => loseBobbin evs (h.1 / 2 ^ 40) (h.1 % 2 ^ 40) h.2 (bumpHealth 24 1 b)

/-- Levels missing from the cache on the way to an address's counter block. -/
def missing (addr : Nat) (b : Block) : Nat := ((List.range 4).takeWhile fun l => !bobHas l (nodeIdx addr l) b).length

/-- Count the lookups of a walk (R455, R458). -/
def countWalk (skein : Nat) (addr : Nat) (b : Block) : Block :=
  let m := missing addr b
  bumpGlob 384 1 (bumpGlob 392 m (bumpSk skein 32 1 (bumpSk skein 40 m b)))

/-- Verify and cache an address's counter block inside a step; the status where that fails. -/
def ensureLeaf (evs : MemEvs) (addr : Nat) (b : Block) : BitVec 8 × Block := match bobbinHit evs addr b with
  | some b => (cEcc, b)
  | none => ensure 5 evs 0 (addr / 4096) b

end Sys2Proof.Machine
end

