-- ==== Sys2Proof/Machine/Lines.lean ====
section
/-! DEFINITION. Data lines of classes S and E inside a step, page re-encryption and the hank step (R69 to R77, R93 to R96, R109 to
R118). Choices marked in the log: DEDUCED 25, 90. -/

namespace Sys2Proof.Machine

/-! ### Generations -/

/-- A rotation of the key ID runs in the Reel's pass. -/
def rotating (keyId : Nat) (b : Block) : Bool := b.mem.reel.pass.any fun c => match c with
  | .rotate k _ => k == keyId
  | _ => false

/-- The generation that the reel mark gives a class S line: the old one ahead of a pass still to come (R160). -/
def genAt (keyId addr : Nat) (b : Block) : Option KeyGen := match amGet keyId b.mem.keys with
  | none => none
  | some e => match e.prev with
    | some p => if e.cls = .S && !(rotating keyId b && decide (addr < b.mem.reel.mark)) then some p else e.cur
    | none => e.cur

def genNum (g : Option KeyGen) : Nat := (g.map (·.num)).getD 0
def genKey (g : Option KeyGen) : Key := (g.map (·.key)).getD 0

/-! ### Verification of data lines -/

/-- What a data line and its MAC line say; `suspect`: no recomputation of a mismatch was to be trusted (R398). -/
inductive LineRes where
  | ok (x : Line)
  | dataUe
  | macUe
  | mismatch
  | suspect
deriving DecidableEq, Repr

/-- Decipher and verify a line; `m` is its MAC line, none where the line carries no MAC (R77, R99, R118). -/
def judgeLine (k : Key) (c : Ctr) (addr slot : Nat) (d : Ret) (m : Option Ret) : LineRes :=
  let x := cryptLine k c addr d.data
  match m with
  | none => if d.ue then .dataUe else .ok x
  | some m => if m.ue then .macUe else if d.ue then .dataUe
    else if lineMac k c addr x = macSlot m.data slot then .ok x else .mismatch

/-- The item that a data line's unit computes. -/
def lineItem (skein : Nat) (g keyId addr blocks : Nat) : Item := { entry := ledgerLine g keyId addr, blocks := blocks, skein := some skein }

/-- Decipher and verify a line; a mismatch is confirmed before it is acted on, and a line that its recomputation clears is used (R398). -/
def verifyLine (evs : MemEvs) (place : Nat) (i : Item) (k : Key) (c : Ctr) (addr slot : Nat) (d : Ret) (m : Option Ret) (b : Block) :
    LineRes × Block :=
  let r := judgeLine k c addr slot d m
  let check (sound : Bool) : LineRes × Block := match confirm evs place i sound b with
    | (.good, b) => (.ok (cryptLine k c addr d.data), b)
    | (.bad, b) => (.mismatch, b)
    | (.suspect, b) => (.suspect, b)
  match r, m with
  | .ok _, some _ => check true
  | .mismatch, _ => check false
  | r, _ => (r, b)

def LineRes.status (cls : MemClass) : LineRes → BitVec 8
  | .ok _ => cOK
  | .macUe => if cls = .S then cTree else cIntegrity
  | .suspect => cWhorlSuspect
  | _ => cIntegrity

/-- What a failed line does besides failing its access (R77, R99, R118). -/
def lineFault (cls : MemClass) (skein addr : Nat) (r : LineRes) (b : Block) : Block := match r with
  | .ok _ | .suspect => b
  | .mismatch => raiseViews { cls := 4, skein := some skein, cause := cIntegrity, object := addr } b
  | .dataUe => raiseViews { cls := 2, skein := some skein, cause := cIntegrity, object := addr } b
  | .macUe =>
    if cls = .S then quarantine (addr / 512 * 512) 512 5 false (physLane (macPlace addr b).1 / 16) b
    else raiseViews { cls := 2, skein := some skein, cause := cIntegrity, object := addr } b

/-- Count a failed read or operation of a skein by its status (R458). -/
def countFail (skein : Nat) (st : BitVec 8) (b : Block) : Block :=
  if st = cIntegrity then bumpSk skein 128 1 b else if st = cTree then bumpSk skein 136 1 b else b

/-- The class S MAC line of an address: the cached copy, or one read inside the step, which is then cached (R87). -/
def readMacLine (evs : MemEvs) (addr : Nat) (b : Block) : Ret × Block :=
  match bobGet 5 (addr / 512) b with
  | some x => ({ data := x, ue := false, ce := false }, bobUse 5 (addr / 512) b)
  | none =>
    let (m, b) := rawRead evs (macPlace addr b).1 true b
    (m, if m.ue then b else bobPut (partOf addr b) 5 (addr / 512) m.data false b)

/-- Counter of a line in its cached counter block. -/
def lineCtr (addr : Nat) (b : Block) : BitVec 64 × Nat :=
  let cb := bobLine 0 (addr / 4096) b
  (nodeMajor cb, nodeMinor cb (addr / 64 % 64))

/-- Read a class S line whose counter block is cached, under a given generation, as a unit of its skein (R79, R90). -/
def readUnder (evs : MemEvs) (wk : Work) (g : Option KeyGen) (keyId step addr : Nat) (b : Block) : LineRes × Bool × Block :=
  let (maj, mnr) := lineCtr addr b
  if mnr = 0 then (.ok 0, false, b)
  else
    let n := (getHank (addr / hankBytes) b).skein
    let b := submitWork wk n false (genNum g) keyId addr 5 b
    let place := dataPlace (addrTk addr b) addr b
    let (d, b) := rawRead evs place false b
    let (m, b) := readMacLine evs addr b
    let (r, b) := verifyLine evs place (lineItem n (genNum g) keyId addr 5) (genKey g) (.s maj mnr step) addr (addr / 64 % 8) d (some m) b
    -- a MAC line whose slot fails is not kept
    (r, d.ce, match r with | .ok _ => b | _ => bobDel 5 (addr / 512) b)

/-- Write a line and its MAC slot under a counter (R90); its unit has been submitted. -/
def storeLine (w : Option WFor) (key : Key) (tk : BitVec 64) (maj : BitVec 64) (mnr step addr : Nat) (x : Line) (b : Block) : Block :=
  let c : Ctr := .s maj mnr step
  let mac := lineMac key c addr x
  let b := memPut (dataPlace tk addr b) fullMask (cryptLine key c addr x) w none false (noteCopy addr (fun _ => .plain x) b)
  let (mk, j) := macPlace addr b
  let b := memPut mk (slotMask j) (putMacSlot 0 j mac) w none true b
  match amGet (bobKey 5 (addr / 512)) b.mem.bob with
  | some e => bobPut e.part 5 (addr / 512) (putMacSlot e.data j mac) false b
  | none => b

/-! ### The hank step -/

/-- A hank's step is whole. -/
def endStep (h : Nat) (b : Block) : Block :=
  setHank h { getHank h b with step := (getHank h b).step + 1 }
    (setMem (fun m => { m with reel := { m.reel with steps := amDel h m.reel.steps } }) b)

/-- Rewrite one page of a hank under its new step with major 0; failing lines stay as stored (R94, R95). -/
def stepPage (evs : MemEvs) (keyId oldStep page : Nat) (b : Block) : Block :=
  let base := page * 4096
  let cb := bobLine 0 page b
  let written := (List.range 64).filter fun i => nodeMinor cb i != 0
  let (vals, b) := written.foldl (fun (acc : List (Nat × Option Line) × Block) i =>
    let a := base + 64 * i
    let (r, _, b) := readUnder evs { tier := 4 } (genAt keyId a acc.2) keyId oldStep a acc.2
    match r with
    | .ok x => (acc.1 ++ [(i, some x)], b)
    | r => (acc.1 ++ [(i, none)], lineFault .S (getHank (a / hankBytes) b).skein a r b)) ([], b)
  if (quarOf base 4096 b).isSome then b
  else
    let new := written.foldl (fun x i => setMinor x i 1) (0 : Line)
    let b := putNode 0 page new b
    vals.foldl (fun b e => match e.2 with
      | none => b
      | some x =>
        let a := base + 64 * e.1
        let g := genAt keyId a b
        storeLine none (genKey g) (addrTk a b) 0 1 ((oldStep + 1) % 16) a x
          (submitLine (some (getHank (a / hankBytes) b).skein) false (genNum g) keyId a 4 5 b)) b

/-- A key-generation step for a whole hank (R95); past 15 it leaves service (R96). Where a pass takes that step with it already, the pages
ahead of the hank mark alone are left to rewrite (R163). -/
def stepHank (evs : MemEvs) (h : Nat) (b : Block) : Block :=
  let x := getHank h b
  if x.step ≥ 15 then exhaustHank h b
  else
    -- every counter block that is not fresh is brought in under the old step
    let mark := (amGet h b.mem.reel.steps).getD 0
    let pages := ((List.range 512).map (512 * h + ·)).filter fun p => decide (mark ≤ 4096 * p)
    let b := pages.foldl (fun b p => (ensure 5 evs 0 p b).2) b
    let here := pages.filter fun p => bobHas 0 p b && (nodeCtr 0 p b != (0, 0) || bobLine 0 p b != 0)
    let nodes := ((List.range 8).map (8 * h + ·)).filter fun i => bobHas 1 i b && nodeCtr 1 i b != (0, 0)
    let b := here.foldl (fun b p => stepPage evs x.keyId x.step p b) b
    let b := nodes.foldl (fun b i => putNode 1 i (bobLine 1 i b) b) b
    endStep h b

/-! ### Class S writes -/

/-- Re-encrypt a page (R93): the other written lines and the triggering line under the next major with minor 1. The status is
TREE_UNVERIFIABLE where the triggering line's place was quarantined meanwhile. -/
def reencryptPage (evs : MemEvs) (w : Option WFor) (track : Bool) (keyId addr : Nat) (x : Line) (b : Block) : BitVec 8 × Block :=
  let page := addr / 4096
  let base := page * 4096
  let me := addr / 64 % 64
  let h := getHank (addr / hankBytes) b
  let step := stepAt addr b
  let cb := bobLine 0 page b
  let maj := nodeMajor cb + 1
  let others := (List.range 64).filter fun i => nodeMinor cb i != 0 && i != me
  let (vals, b) := others.foldl (fun (acc : List (Nat × Option Line) × Block) i =>
    let a := base + 64 * i
    let (r, _, b) := readUnder evs {} (genAt keyId a acc.2) keyId step a acc.2
    match r with
    | .ok y => (acc.1 ++ [(i, some y)], b)
    | r => (acc.1 ++ [(i, none)], lineFault .S h.skein a r b)) ([], b)
  let new := (others ++ [me]).foldl (fun y i => setMinor y i 1) (setMajor 0 maj)
  let b := if bobHas 0 page b then putNode 0 page new b else b
  let put (w : Option WFor) (i : Nat) (y : Line) (b : Block) : Block :=
    let a := base + 64 * i
    if (quarOf a 64 b).isSome then b
    else
      let g := genAt keyId a b
      storeLine w (genKey g) (addrTk a b) maj 1 step a y (submitLine (some h.skein) false (genNum g) keyId a 5 5 b)
  let b := vals.foldl (fun b e => match e.2 with
    | some y => put (if track then some (.page page) else none) e.1 y b
    | none => b) b
  if (quarOf addr 64 b).isSome then (cTree, b)
  else
    let own : WFor → WFor
      | .txn id => .own id page
      | p => p
    (cOK, put (w.map own) me x b)

/-- Write a whole class S line whose counter block is cached (R90): the minor advances, or the page is re-encrypted (R93), or
first the whole hank takes a step (R95). -/
def writeCached : Nat → MemEvs → Option WFor → Key → BitVec 64 → Nat → Nat → Line → Block → BitVec 8 × Block
  | fuel, evs, w, key, tk, keyId, addr, x, b =>
    let (maj, mnr) := lineCtr addr b
    if mnr < 127 then
      let b := putNode 0 (addr / 4096) (setMinor (bobLine 0 (addr / 4096) b) (addr / 64 % 64) (mnr + 1)) b
      (cOK, storeLine w key tk maj (mnr + 1) (stepAt addr b) addr x b)
    else if maj = 0xFFFFFFFFFFFFFFFF then
      match fuel with
      | 0 => (cHankRevoked, b)
      | k + 1 =>
        let b := stepHank evs (addr / hankBytes) b
        if (getHank (addr / hankBytes) b).st = .allocated && bobHas 0 (addr / 4096) b then
          writeCached k evs w key tk keyId addr x b
        else (cHankRevoked, b)
    else reencryptPage evs w w.isSome keyId addr x b

/-! ### Class E -/

/-- The bitmap words of a line's group (R114). -/
def wordsAt (addr : Nat) (b : Block) : WordPair := amGetD {} (addr / 16384) b.mem.words
def epochTag (e : BitVec 64) : BitVec 16 := e.setWidth 16
/-- The line's bit in the word tagged for an epoch. -/
def bitUnder (e : BitVec 64) (addr : Nat) (b : Block) : Bool :=
  let p := wordsAt addr b
  let i := addr / 64 % 256
  (p.tag0 == epochTag e && p.bits0.getLsbD i) || (p.tag1 == epochTag e && p.bits1.getLsbD i)

/-- A word of the line's group was lost to a double-bit error (R397). -/
def groupBad (addr : Nat) (b : Block) : Bool := (wordsAt addr b).bad0 || (wordsAt addr b).bad1

/-- Set the line's bit under the current epoch; a group without a current word gives it the word that is not the previous one
(R116). -/
def setBit (e : BitVec 64) (addr : Nat) (b : Block) : Block :=
  let p := wordsAt addr b
  let one : BitVec 256 := 1 <<< (addr / 64 % 256)
  let t := epochTag e
  let q : WordPair :=
    if p.tag0 = t then { p with bits0 := p.bits0 ||| one }
    else if p.tag1 = t then { p with bits1 := p.bits1 ||| one }
    else if p.tag0 = epochTag (e - 1) then { p with tag1 := t, bits1 := one }
    else { p with tag0 := t, bits0 := one }
  setMem (fun m => { m with words := amPut {} (addr / 16384) q m.words }) b

/-- What a class E access fixes at acceptance: epoch, generation and whether a bit is set (R111, R118). -/
def fixE (keyId addr : Nat) (b : Block) : BitVec 64 × Option KeyGen × Bool :=
  match amGet keyId b.mem.keys with
  | none => (0, none, false)
  | some e =>
    let r := amGet e.region b.mem.regions
    let ep := (r.map (·.epoch)).getD 1
    if bitUnder ep addr b then (ep, e.cur, true)
    else if bitUnder (ep - 1) addr b then (ep - 1, (match e.prev with | some p => some p | none => e.cur), true)
    else (ep, e.cur, false)

/-- Check a class E write and set its bit (R116); a second write in the epoch is refused and raises ACLASS 2 once. -/
def claimE (skein keyId addr : Nat) (b : Block) : BitVec 8 × Block :=
  match (amGet keyId b.mem.keys).bind fun e => (amGet e.region b.mem.regions).map fun r => (e.region, r) with
  | none => (cNotPermitted, b)
  | some (i, r) =>
    if groupBad addr b then (cEcc, b)
    else if bitUnder r.epoch addr b then
      let b := bumpSk skein 112 1 b
      if r.reuse then (cEpochReuse, b)
      else
        let b := setMem (fun m => { m with regions := amSet i { r with reuse := true } m.regions }) b
        (cEpochReuse, raiseViews { cls := 2, skein := some skein, cause := cEpochReuse, object := addr } b)
    else (cOK, setBit r.epoch addr b)

/-- Write a class E line under an epoch and key (R109, R110, R116). -/
def storeE (w : Option WFor) (plain : Bool) (key : Key) (epoch : BitVec 64) (region : Nat) (macEn : Bool) (addr : Nat) (x : Line)
    (b : Block) : Block :=
  let c : Ctr := .e epoch region
  let b := noteCopy addr (fun _ => .stored (cryptLine key c addr x)) b
  let b := memPut (dataPlace (addrTk addr b) addr b) fullMask (cryptLine key c addr x) w (if plain then some (addr, x) else none) false b
  if macEn then
    let (mk, j) := eMacPlace addr b
    let slot := putMacSlot 0 j (lineMac key c addr x)
    let b := noteCopy (eMacAddr addr b / 64 * 64) (fun m => match m with
      | some (.stored y) => .stored (mergeLine y slot (slotMask j))
      | _ => .stored slot) b
    memPut mk (slotMask j) slot w none true b
  else b

/-- Read a class E line under what was fixed for it, inside a step, as a unit of its skein (R118). -/
def readE (evs : MemEvs) (wk : Work) (skein keyId : Nat) (g : Option KeyGen) (epoch : BitVec 64) (region : Nat) (macEn : Bool) (addr : Nat)
    (b : Block) : LineRes × Block :=
  let blocks := if macEn then 5 else 4
  let b := submitWork wk skein true (genNum g) keyId addr blocks b
  let place := dataPlace (addrTk addr b) addr b
  let (d, b) := rawRead evs place false b
  let c : Ctr := .e epoch region
  let item := lineItem skein (genNum g) keyId addr blocks
  if macEn then
    let (mk, j) := eMacPlace addr b
    let (m, b) := rawRead evs mk true b
    verifyLine evs place item (genKey g) c addr j d (some m) b
  else verifyLine evs place item (genKey g) c addr 0 d none b

end Sys2Proof.Machine
end

