-- ==== Sys2Proof/Machine/Evict.lean ====
section
/-! DEFINITION. Write-back, re-authentication and eviction of the bobbin cache (R87, R88, R91, R98). Choices marked in the log:
DESIGN CHOICE 23, 129. -/

namespace Sys2Proof.Machine

/-- Give every child of a node a new counter (R98): the node's major advances and its minors become 0. No walk through the node meets
the change half done: a fetch whose lines it writes starts again (`nodeBack`). DESIGN CHOICE: after the path of R95 for a saturated major the
node has major 0 and every minor 1; the spec gives the counters of the hank's lines alone. -/
def reauthNode (evs : MemEvs) (level idx : Nat) (b : Block) : Block :=
  let c := level - 1
  let kids := ((List.range 64).map (64 * idx + ·)).filter fun i => (nodePlace c i 0 b).isSome
  -- uncached children that are not fresh are verified under their old counter first
  let (vals, b) := kids.foldl (fun (acc : List (Nat × Option Line) × Block) i =>
    match bobGet c i acc.2 with
    | some x => (acc.1 ++ [(i, some x)], acc.2)
    | none =>
      if nodeCtr c i acc.2 = (0, 0) then (acc.1 ++ [(i, some 0)], acc.2)
      else
        match readNode evs c i acc.2 with
        | (some x, _, b) => (acc.1 ++ [(i, some x)], b)
        | (none, v, b) => (acc.1 ++ [(i, none)], nodeError c i v b)) ([], b)
  let fresh := vals.filter fun e => nodeCtr c e.1 b == (0, 0)
  -- a saturated major takes a step for every hank the node covers
  let full := nodeMajor (bobLine level idx b) = 0xFFFFFFFFFFFFFFFF
  let b := if full then
      (hanksOf (idx * covers level) (covers level)).foldl (fun b h => if (amGet h b.mem.hanks).isSome then stepHank evs h b else b) b
    else b
  -- whose children are then new content under major 0 with minor 1, as the lines of R95: the model's choice
  let again := (List.range 64).foldl (fun x i => setMinor x i 1) (0 : Line)
  let b := putNode level idx (if full then again else setMajor 0 (nodeMajor (bobLine level idx b) + 1)) b
  vals.foldl (fun b e => match e.2 with
    | none => b
    | some x =>
      let mac := nodeMac c e.1 x b
      let b := submitNode c e.1 b
      let whole := decide (2 ≤ c) || fresh.any fun f => f.1 == e.1
      (List.range (if 2 ≤ c then 2 else 1)).foldl (fun b ply => match nodePlace c e.1 ply b with
        | some (k, mk, j) =>
          let b := if whole then memPut k fullMask x none none true b else b
          memPut mk (slotMask j) (putMacSlot 0 j mac) none none true b
        | none => b) b) b

/-- Advance a node's counter in its cached parent, or re-authenticate the parent's children where the minor would overflow
(R91, R98). -/
def advanceParent (evs : MemEvs) (level idx : Nat) (b : Block) : Block :=
  let p := bobLine (level + 1) (idx / 64) b
  let i := idx % 64
  if nodeMinor p i = 127 then reauthNode evs (level + 1) (idx / 64) b
  else putNode (level + 1) (idx / 64) (setMinor p i (nodeMinor p i + 1)) b

/-- Write a dirty counter block or node back: its parent is walked to, advanced, and the line written under the new counter
(R91). Where the walk meets a quarantined range the entry is lost with its range. -/
def writeBack (evs : MemEvs) (level idx : Nat) (b : Block) : Block :=
  match amGet (bobKey level idx) b.mem.bob with
  | none => b
  | some e =>
    if !e.dirty || level ≥ 4 then b
    else
      let (st, b) := ensure 5 evs (level + 1) (idx / 64) b
      if st != cOK then bobDel level idx b
      else
        let b := advanceParent evs level idx b
        let b := storeNode level idx b
        setMem (fun m => { m with bob := amMod (bobKey level idx) (fun e => { e with dirty := false }) m.bob }) b

/-- Entries that a partition holds (R87): a slot's, or the upper region's beside the pinned L4 nodes, every entry in two
copies. -/
def partCap (part : Option Nat) (b : Block) : Nat := match part with
  | some _ => b.row.pick 10240 5120 5120
  | none => b.row.pick 65520 32760 16380

/-- Evict by least-recent use until a partition fits (R87, R88). -/
def trimPart : Nat → MemEvs → Option Nat → Block → Block
  | 0, _, _, b => b
  | k + 1, evs, part, b =>
    let es := b.mem.bob.filter fun e => decide (e.2.part = part) && decide (e.1 / 2 ^ 40 ≠ 4)
    if es.length ≤ partCap part b then b
    else match argMin (fun e => e.2.use) es with
      | none => b
      | some e =>
        let lv := e.1 / 2 ^ 40
        let ix := e.1 % 2 ^ 40
        trimPart k evs part (bobDel lv ix (writeBack evs lv ix b))

/-- Evict what one command's fills have pushed out. -/
def trim (evs : MemEvs) (part : Option Nat) (b : Block) : Block :=
  let b := trimPart (b.mem.bob.length + 64) evs part b
  trimPart (b.mem.bob.length + 64) evs none b

/-- Write back and discard cached lines that a test picks, children before parents (R88). -/
def flushMeta (evs : MemEvs) (p : Nat → Bob → Bool) (b : Block) : Block :=
  ((b.mem.bob.filter fun e => p e.1 e.2 && e.1 / 2 ^ 40 != 4).map (·.1)).foldl
    (fun b k => bobDel (k / 2 ^ 40) (k % 2 ^ 40) (writeBack evs (k / 2 ^ 40) (k % 2 ^ 40) b)) b

/-- Counter blocks, L1 nodes and MAC lines that were fetched for no resident skein leave the upper region when the work that fetched them
ends (R88). -/
def flushLoose (evs : MemEvs) (b : Block) : Block :=
  flushMeta evs (fun k e => e.part.isNone && (k / 2 ^ 40 == 0 || k / 2 ^ 40 == 1 || k / 2 ^ 40 == 5)) b

/-- The counter blocks, L1 nodes and MAC lines of a hank among the cached lines. -/
def hankMeta (h : Nat) (k : Nat) : Bool :=
  let lv := k / 2 ^ 40
  (lv == 0 || lv == 1 || lv == 5) && k % 2 ^ 40 * covers lv / hankBytes == h

end Sys2Proof.Machine
end

