-- ==== Sys2Proof/Machine/Absorber.lean ====
section
/-! DEFINITION. Lines read and written by Frexis inside a step, and the hot-line absorber (R69, R77, R169 to R197). Choices marked
in the log: DEDUCED 37, 57, 143; DESIGN CHOICE 30. -/

namespace Sys2Proof.Machine

/-- The absorber entry that holds a line (R172); spilled accumulators hold none (R194). -/
def absHeld (line : Nat) (b : Block) : Option AbsEntry := b.mem.abs.find? fun e => e.line == line && !e.spilled
/-- The accumulators of an open line, held or spilled. -/
def absOpen (line : Nat) (b : Block) : Option AbsEntry := b.mem.abs.find? fun e => e.line == line && e.acc.isSome
/-- Absorber entries an entry takes (R192). -/
def AbsEntry.size (e : AbsEntry) : Nat := match e.acc with
  | some (fmt, _) => openEntries fmt
  | none => 1

def modAbs (line : Nat) (f : AbsEntry → AbsEntry) (b : Block) : Block :=
  setMem (fun m => { m with abs := m.abs.map fun e => if e.line = line then f e else e }) b
def delAbs (line : Nat) (b : Block) : Block :=
  setMem (fun m => { m with abs := m.abs.filter fun e => e.line != line, extents := m.extents.filter fun e => !e.owner.spillFor line }) b
/-- A read of an entry is a use of it (R192). -/
def useAbs (line : Nat) (b : Block) : Block :=
  modAbs line (fun e => { e with use := b.mem.useCount }) (setMem (fun m => { m with useCount := m.useCount + 1 }) b)

/-- Stack of a line's place. -/
def stackOf (line : Nat) (b : Block) : Nat := physLane (dataPlace (addrTk line b) line b) / 16

/-- An absorber entry or its spill is lost: its page is quarantined, and the record lists the line (R197). -/
def loseAbs (line keyId skein : Nat) (b : Block) : Block :=
  let b := quarantine (line / 4096 * 4096) 4096 7 false (stackOf line b) (delAbs line b)
  (dbeRecord 6 0 (unitCode 0x0A (stackOf line b)) line [skein] [{ entry := ledgerLine 0 keyId line, outcome := 1, skein := skein }] b).2

/-- A double-bit error in the entry that an operation reads fails it with INTERNAL_ECC (R197). -/
def absorberHit (evs : MemEvs) (line : Nat) (b : Block) : Option Block :=
  match absHeld line b, evs.any fun e => e.place = .absorber && e.key == line with
  | some e, true => some (loseAbs line e.keyId e.skein (bumpHealth 24 1 b))
  | _, _ => none

/-! ### Lines inside a step -/

/-- Write a whole class S line to memory: walk, then write (R89, R90). -/
def putLineS (evs : MemEvs) (wk : Work) (w : Option WFor) (keyId addr : Nat) (x : Line) (b : Block) : BitVec 8 × Block :=
  if (quarOf addr 64 b).isSome then (cTree, b)
  else
    let (st, b) := ensureLeaf evs addr b
    if st != cOK then (st, b)
    else
      let g := genAt keyId addr b
      let n := (getHank (addr / hankBytes) b).skein
      let (st, b) := writeCached 1 evs w (genKey g) (addrTk addr b) keyId addr x
        (submitWork wk n false (genNum g) keyId addr 5 b)
      (st, trim evs (partOf addr b) b)

/-- Read a class S line from memory: walk, then read and verify (R89, R90); the flag is the corrected-error mark. -/
def getLineS (evs : MemEvs) (wk : Work) (keyId addr : Nat) (b : Block) : Except (BitVec 8) Line × Bool × Block :=
  let n := (getHank (addr / hankBytes) b).skein
  if (quarOf addr 64 b).isSome then (.error cTree, false, b)
  else
    let (st, b) := ensureLeaf evs addr b
    if st != cOK then (.error st, false, b)
    else
      let (r, ce, b) := readUnder evs wk (genAt keyId addr b) keyId (stepAt addr b) addr b
      let b := trim evs (partOf addr b) b
      match r with
      | .ok x => (.ok x, ce, b)
      | r => (.error (r.status .S), false, lineFault .S n addr r b)

/-! ### Room and write-back -/

/-- Write an entry's value back as one class S write (R193); saturations are counted (R191). -/
def absWriteBack (evs : MemEvs) (e : AbsEntry) (b : Block) : Block :=
  let (x, b) := absRead true e b
  (putLineS evs {} none e.keyId e.line x b).2

/-- The 36 bytes of an accumulator with its state in a spill; the states that are no number take the least of the codes, the model's
choice (R194). -/
def accWord (a : Acc) : BitVec 288 := match a.st with
  | .fin => BitVec.ofInt 288 a.v
  | .nan => 1 <<< 287
  | .pinf => (1 <<< 287) + 1
  | .ninf => (1 <<< 287) + 2

/-- The 18 lines that hold the accumulators of an open line's `i`-th entry (R194). -/
def spillLines (as : List Acc) (i : Nat) : List Line :=
  let bs := ((as.drop (32 * i)).take 32).flatMap fun a => toBytes 36 (accWord a)
  toLines (bs ++ zeroBytes (1152 - bs.length))

/-- Spill extents, each with its entry in the absorber's own table of 8,192 (R194). -/
def spills (b : Block) : Nat := (b.mem.extents.filter fun e => e.owner.isSpill).length

/-- Write the spill extents of an open line, one for each of its entries (R194); none where the table or the carve-out has no room. -/
def spillOut (e : AbsEntry) (as : List Acc) (b : Block) : Option Block :=
  if 8192 < spills b + e.size then none
  else (List.range e.size).foldl (fun b i => b.bind (writeExtent (.spill (e.line + i)) (spillLines as i))) (some b)

/-- Absorber entries in use among some. -/
def absUsed (p : AbsEntry → Bool) (b : Block) : Nat :=
  sumNat ((b.mem.abs.filter fun e => !e.spilled && p e).map AbsEntry.size)

/-- Sample the absorber entries in use (R462). -/
def sampleAbs (b : Block) : Block :=
  if b.tel.monitors.any fun m => m.2.probe == 0x17 then sampleLevel 0x17 0 (absUsed (fun _ => true) b) b else b

/-- Evict an entry: a dirty one is written back, an open one is also spilled, and stays where its spill has no room (R193, R194). -/
def absEvict (evs : MemEvs) (e : AbsEntry) (b : Block) : Block :=
  let b := if e.dirty then absWriteBack evs e b else b
  match e.acc with
  | none => sampleAbs (delAbs e.line b)
  | some (_, _, _, _, as) => match spillOut e as b with
    | some b => modAbs e.line (fun e => { e with spilled := true, dirty := false, closeAt := none, idle := false }) b
    | none => modAbs e.line (fun e => { e with dirty := false, closeAt := none, idle := false }) b

/-- Entries kept for other resident skeins and not in use by them (R192). -/
def absKept (skein : Nat) (b : Block) : Nat :=
  sumNat ((b.skeins.filter fun s => s.2.slot.isSome && s.1 != skein).map fun s => 16 - absUsed (fun e => e.skein == s.1) b)

/-- The entry to evict among some: not open while any exist, least recently used (R192, R194). -/
def absVictim (p : AbsEntry → Bool) (b : Block) : Option AbsEntry :=
  argMin (fun e => b2n e.acc.isSome * 2 ^ 62 + e.use) (b.mem.abs.filter fun e => !e.spilled && p e)

/-- Make room for `need` entries of a skein (R192). -/
def absRoom : Nat → MemEvs → Nat → Nat → Nat → Block → Block
  | 0, _, _, _, _, b => b
  | k + 1, evs, skein, line, need, b =>
    let mine (e : AbsEntry) : Bool := e.skein == skein && e.line != line
    let rich (e : AbsEntry) : Bool := e.line != line && (e.skein == skein || decide (16 < absUsed (fun x => x.skein == e.skein) b))
    if 1024 < absUsed (fun e => e.skein == skein) b + need then
      match absVictim mine b with
      | some e => absRoom k evs skein line need (absEvict evs e b)
      | none => b
    else if b.row.absorberLines < absUsed (fun _ => true) b + absKept skein b + need then
      match absVictim rich b with
      | some e => absRoom k evs skein line need (absEvict evs e b)
      | none => b
    else b

/-- Enter a line in the absorber. -/
def absInsert (evs : MemEvs) (skein keyId line : Nat) (x : Line) (b : Block) : Block :=
  let b := absRoom 8 evs skein line 1 b
  sampleAbs <| setMem (fun m => { m with
    useCount := m.useCount + 1,
    abs := m.abs ++ [{ line := line, skein := skein, keyId := keyId, data := x, dirty := false, closeAt := none, idle := false,
                       acc := none, spilled := false, use := m.useCount }] }) b

/-- Ticks of an absorber window (R193, R521). -/
def plyTicks (b : Block) : Nat := bitField b.regs.plyWindow 6 0

/-- Change an entry: its window opens at the first change after its last write-back (R193). -/
def absChange (line : Nat) (f : AbsEntry → AbsEntry) (b : Block) : Block :=
  let due := b.tick + plyTicks b
  let b := setMem (fun m => { m with useCount := m.useCount + 1 }) b
  let u := b.mem.useCount
  modAbs line (fun e =>
    let keep := if e.idle then none else e.closeAt
    { f e with dirty := true, idle := false, use := u, closeAt := some (keep.getD due) }) b

/-! ### Ply operations on an entry -/

/-- Read an open line's spilled accumulators back (R194); a spill that fails loses the entry, and the operation fails with INTERNAL_ECC
(R197). -/
def readSpill (evs : MemEvs) (e : AbsEntry) (b : Block) : BitVec 8 × Block :=
  let (st, b) := (b.mem.extents.filter fun x => x.owner.spillFor e.line).foldl (fun (a : BitVec 8 × Block) x =>
    if a.1 != cOK then a
    else match readExtent evs x a.2 with
      | (.ok _, b) => (cOK, b)
      | (.error st, b) => (st, b)) (cOK, b)
  if st = cWhorlSuspect then (st, b)
  else if st != cOK then (cEcc, loseAbs e.line e.keyId e.skein b)
  else (cOK, b)

/-- Take an open line's accumulators into the absorber again: its spills are free. -/
def absHold (evs : MemEvs) (e : AbsEntry) (b : Block) : Block :=
  let b := absRoom 8 evs e.skein e.line e.size b
  dropExtents (fun o => o.spillFor e.line) (modAbs e.line (fun e => { e with spilled := false }) b)

/-- Restore an open line's spilled accumulators (R194). -/
def absRestore (evs : MemEvs) (e : AbsEntry) (b : Block) : BitVec 8 × Block :=
  let (st, b) := readSpill evs e b
  (st, if st = cOK then absHold evs e b else b)

/-- Entries of a skein's open lines, held or spilled (R195). -/
def openUsed (skein : Nat) (b : Block) : Nat :=
  sumNat ((b.mem.abs.filter fun e => e.skein == skein && e.acc.isSome).map AbsEntry.size)

/-- The elements that a byte mask selects. -/
def plySel (w : PlyWord) (mask : BitVec 64) (i : Nat) : Bool := isMx w.fmt || maskSel mask (elemBytes w.fmt) i

/-- Count an applied operation and its operand bytes (R455, R458). -/
def countPly (skein : Nat) (w : PlyWord) (b : Block) : Block :=
  bumpGlob 896 1 (bumpGlob 904 (if w.fetch then elemBytes w.fmt else 64) (bumpSk skein 80 1 b))

/-- An exact-mode ADD on a line that an entry holds (R182 to R184, R195). -/
def plyExact (skein : Nat) (w : PlyWord) (tag : BitVec 64) (mask : BitVec 64) (opnd : Line) (evs : MemEvs) (e : AbsEntry)
    (b : Block) : BitVec 8 × Block :=
  match ffmt w.fmt with
  | none => (cInvalid, b)
  | some g =>
    let add (as : List Acc) := accAdd (plySel w mask) as (g.values opnd)
    let put (as : List Acc) (b : Block) : Block :=
      absChange e.line (fun e => { e with acc := some (w.fmt, w.rnd, tag, w.srStep, as) }) b
    match e.acc with
    | some (f, r, t, s, as) =>
      if f != w.fmt || r != w.rnd || t != tag || s != w.srStep then (cNotPermitted, b)
      else
        let (as', ov) := add as
        (cOK, countPly skein w (put as' (if ov = 0 then b else bumpSk skein 96 ov b)))
    | none =>
      let lim := ((getSkein skein b).map (·.openLines)).getD 0
      if lim < openUsed skein b + openEntries w.fmt then (cQuota, b)
      else
        let b := absRoom 8 evs skein e.line (openEntries w.fmt - 1) b
        let (as', ov) := add (accOpen w.fmt e.data)
        (cOK, countPly skein w (put as' (if ov = 0 then b else bumpSk skein 96 ov b)))

/-- Apply a ply operation to a line held in the absorber: (status, old element in place, block) (R171, R176, R184, R479). -/
def plyOnEntry (evs : MemEvs) (skein : Nat) (w : PlyWord) (addr : Nat) (mask : BitVec 64) (tag : BitVec 64) (kr : Key) (opnd : Line)
    (b : Block) : BitVec 8 × Line × Block :=
  let line := addr / 64 * 64
  match absHeld line b with
  | none => (cNotPermitted, 0, b)
  | some e =>
    let b := submitRound skein e.keyId line w.fmt (if w.exact then 0 else w.rnd) b
    if w.exact then
      let off := addr % 64
      let eb := elemBytes w.fmt
      let (held, b) := if w.fetch then absRead false e b else (0, b)
      let old := elemRaw (8 * eb) held (off / eb)
      let (m, x) := if w.fetch then (BitVec.ofNat 64 ((2 ^ eb - 1) <<< off), putElem (8 * eb) 0 (off / eb) (elemRaw (8 * eb) opnd 0))
        else (mask, opnd)
      let (st, b) := plyExact skein w tag m x evs e b
      (st, if w.fetch && st == cOK then putAt 512 off eb old else 0, b)
    else
      let (old, b) := absRead false e b
      let rb := roundBits kr tag line w.srStep
      if w.fetch then
        let (x, a) := plyAtomic w rb (addr % 64) old opnd
        let b := absChange line (fun e => { e with acc := none, data := x }) b
        (cOK, putAt 512 (addr % 64) (elemBytes w.fmt) a, countPly skein w b)
      else
        let (x, sat) := plyReduce w rb mask old opnd
        let b := absChange line (fun e => { e with acc := none, data := x }) b
        (cOK, 0, countPly skein w (if sat = 0 then b else bumpSk skein 104 sat b))

/-- A plain write to a line held in the absorber changes the entry and closes an accumulation (R172, R184). -/
def absWrite (line : Nat) (x : Line) (mask : BitVec 64) (b : Block) : Block := match absHeld line b with
  | none => b
  | some e =>
    let (old, b) := absRead (mask != fullMask) e b
    absChange line (fun e => { e with acc := none, data := mergeLine old x mask }) b

/-- A window closes: the line is written back once; the entry is clean after one further window without change (R193). -/
def closeWindow (evs : MemEvs) (line : Nat) (b : Block) : Block := match absHeld line b with
  | none => b
  | some e => match e.closeAt with
    | none => b
    | some t =>
      if b.tick < t then b
      else if e.idle then modAbs line (fun e => { e with closeAt := none, idle := false, dirty := false }) b
      else modAbs line (fun e => { e with idle := true, closeAt := some (b.tick + plyTicks b) }) (absWriteBack evs e b)

/-! ### Lines of any class, for the operations that Frexis runs -/

/-- A descriptor's lines are tier-5 work that counts in the bucket of its LAYER and OPERATOR (R459). -/
def descWork (d : Line) : Work := { item := some (dLayer d, dOperator d) }

/-- Read a line of an ALLOCATED hank as its skein would (R77, R79, R100, R118, R172). -/
def getAny (evs : MemEvs) (wk : Work) (addr : Nat) (b : Block) : Except (BitVec 8) Line × Block :=
  let h := getHank (addr / hankBytes) b
  if (quarOf addr 64 b).isSome then (.error cTree, b)
  else if h.cls = .E then
    let e := amGet h.keyId b.mem.keys
    let (ep, g, hit) := fixE h.keyId addr b
    if groupBad addr b then (.error cEcc, b)
    else if !hit then (.ok 0, b)
    else
      let (r, b) := readE evs wk h.skein h.keyId g ep ((e.map (·.region)).getD 0) h.eblock.isSome addr b
      match r with
      | .ok x => (.ok x, b)
      | r => (.error (r.status .E), lineFault .E h.skein addr r b)
  else match absHeld addr b with
    | some e => match absorberHit evs addr b with
      | some b => (.error cEcc, b)
      | none => let (x, b) := absRead false e (useAbs addr b); (.ok x, b)
    | none =>
      let (r, _, b) := getLineS evs wk h.keyId addr b
      (r, b)

/-- Read a line, which counts for its work item (R458, R459). -/
def getLine (evs : MemEvs) (wk : Work) (addr : Nat) (b : Block) : Except (BitVec 8) Line × Block :=
  match getAny evs wk addr b with
  | (.ok x, b) => (.ok x, countLine wk.item (getHank (addr / hankBytes) b).skein false b)
  | r => r

/-- Write a line of an ALLOCATED hank under a byte mask as its skein would (R69, R100, R116, R117, R172). -/
def putAny (evs : MemEvs) (wk : Work) (addr : Nat) (x : Line) (mask : BitVec 64) (b : Block) : BitVec 8 × Block :=
  let h := getHank (addr / hankBytes) b
  if (quarOf addr 64 b).isSome then (cTree, b)
  else if h.cls = .E then
    match claimE h.skein h.keyId addr b with
    | (st, b) =>
      if st != cOK then (st, b)
      else
        let e := amGet h.keyId b.mem.keys
        let (ep, g, _) := fixE h.keyId addr b
        let b := submitWork wk h.skein true (genNum g) h.keyId addr (if h.eblock.isSome then 5 else 4) b
        (cOK, storeE none false (genKey g) ep ((e.map (·.region)).getD 0) h.eblock.isSome addr (mergeLine 0 x mask) b)
  else if (absHeld addr b).isSome then match absorberHit evs addr b with
    | some b => (cEcc, b)
    | none => (cOK, absWrite addr x mask b)
  else
    let b := if (absOpen addr b).isSome then delAbs addr b else b
    if mask = fullMask then putLineS evs wk none h.keyId addr x b
    else match getLineS evs wk h.keyId addr b with
      | (.ok old, _, b) => putLineS evs wk none h.keyId addr (mergeLine old x mask) b
      | (.error st, _, b) => (st, b)

/-- Write a line, which counts for its work item (R458, R459). -/
def putLine (evs : MemEvs) (wk : Work) (addr : Nat) (x : Line) (mask : BitVec 64) (b : Block) : BitVec 8 × Block :=
  let (st, b) := putAny evs wk addr x mask b
  (st, if st = cOK then countLine wk.item (getHank (addr / hankBytes) b).skein true b else b)

end Sys2Proof.Machine
end

