-- ==== Sys2Proof/Machine/Sealed.lean ====
section
/-! DEFINITION. Memory requests in flight: acceptance, walks, line reads and writes, ply operations and their answers (R19 to R23,
R69, R70, R89 to R93, R111, R119, R150, R161, R170 to R172, R384, R478 to R482). Choices marked in the log: DEDUCED 22, 25,
26, 57, 72; DESIGN CHOICE 21, 124, 130. -/

namespace Sys2Proof.Machine

def findTxn (id : Nat) (b : Block) : Option Txn := b.mem.txns.find? fun t => t.id = id
def setTxn (id : Nat) (f : Txn → Txn) (b : Block) : Block :=
  setMem (fun m => { m with txns := m.txns.map fun t => if t.id = id then f t else t }) b
def dropTxn (id : Nat) (b : Block) : Block := setMem (fun m => { m with txns := m.txns.filter fun t => t.id != id }) b

/-! ### Answers -/

/-- Answer on RSP (R479). -/
def rspTo (src : Src) (st : BitVec 8) (x : Line) (b : Block) : Block := match src with
  | .warp p tag => emit (.rsp p tag st true x) b
  | .peer inb line => setMem (fun m => { m with peerDone := m.peerDone ++ [(inb, line, st, x)] }) b

/-- Complete a request's fence (R384). -/
def fenceDone (skein : Nat) (fence : Option Nat) (st : BitVec 8) (b : Block) : Block := match fence with
  | none => b
  | some f =>
    let b := unrefFence (some skein) f b
    if st = cOK then
      if (getFence (some skein) f b).error then b
      else (signalFence (some skein) f ((getFence (some skein) f b).value.toNat + 1) b).2
    else errorFence (some skein) f st b

/-- Sample a probe of the stack that a request's line lies on (R462). -/
def sampleStack (probe : Nat) (t : Txn) (b : Block) : Block :=
  if b.tel.monitors.any fun m => m.2.probe == probe then sampleTime probe (physLane (dataPlace t.tk t.line b) / 16) b else b

/-- Sample the probes that a completed request meets (R462). -/
def sampleTxn (t : Txn) (b : Block) : Block := match t.kind with
  | .ply => sampleStack 0x16 t b
  | .read => if t.cls = .S then sampleStack 0x10 t b
    else if ((getSkein t.skein b).map (·.slotClass)).getD false then sampleTime 1 0 b else b
  | .write => if t.cls = .S then sampleStack 0x11 t b
    else if ((getSkein t.skein b).map (·.slotClass)).getD false then sampleTime 2 0 b else b

/-- Complete a request: its answer, its fence and its counts (R384, R458, R479, R480). -/
def finishTxn (t : Txn) (st : BitVec 8) (x : Line) (b : Block) : Block :=
  let b := sampleTxn t (dropTxn t.id b)
  let b := if st = cOK then b
    else if t.kind = .write then bumpSk t.skein 152 1 b else countFail t.skein st b
  let answer := match t.src, t.kind with
    | .peer _ _, _ => true
    | _, .write => t.respond
    | _, _ => true
  let b := if answer then rspTo t.src st (if st = cOK then x else 0) b else b
  progress t.skein (fenceDone t.skein t.fence st b)

/-! ### Order and holds -/

/-- An earlier request to the same line has not completed (R70, R171). -/
def lineBusy (t : Txn) (b : Block) : Bool :=
  (b.mem.txns.takeWhile fun u => u.id != t.id).any fun u => u.line == t.line

/-- The page waits for the writes of its re-encryption (R93). -/
def pageHeld (page : Nat) (b : Block) : Bool := b.mem.writes.any fun w => match w.purpose with
  | .page p | .own _ p => p == page
  | _ => false
/-- Another request of the page has its line's reads or writes outstanding. -/
def pageBusy (t : Txn) (b : Block) : Bool := b.mem.txns.any fun u =>
  u.id != t.id && u.line / 4096 == t.line / 4096 && (match u.phase with | .data | .accept _ => true | _ => false)

/-- The Reel holds a request: it came after the take of its window (R161). -/
def windowHeld (t : Txn) (b : Block) : Bool := match b.mem.reel.taken with
  | some w => decide (w ≤ t.line) && decide (t.line < w + 65536) && decide (b.mem.reel.takenId ≤ t.id)
  | none => false

/-- The skein is the slot-class skein, whose requests the Reel never holds (R120). -/
def isSlotClass (n : Nat) (b : Block) : Bool := ((getSkein n b).map (·.slotClass)).getD false

/-! ### Fetches -/

/-- Start reading a line with its MAC line; `mac` gives a cached MAC line (R90). -/
def startFetch (purpose : FetchFor) (key macKey : Nat) (mac : Option Line) (isMeta mismatch macUe : Bool) (b : Block) : Block :=
  let id := b.mem.nextId
  let f : Fetch :=
    { id := id, purpose := purpose, key := key, macKey := macKey, mac := mac.map fun x => { data := x, ue := false, ce := false },
      stale := b.mem.writes.any fun w => w.key == macKey, mismatch := mismatch, macUe := macUe }
  let b := setMem (fun m => { m with nextId := m.nextId + 1, fetches := m.fetches ++ [f] }) b
  let b := issueRead id false key isMeta b
  if mac.isSome then b else issueRead id true macKey true b

/-- Start fetching a node from a ply unless that is under way (R89, R103); its MAC is computed as a unit. -/
def startNode (level idx ply : Nat) (mismatch macUe : Bool) (b : Block) : Block :=
  let same (f : Fetch) : Bool := match f.purpose with
    | .node l i _ => l == level && i == idx
    | _ => false
  if ply = 0 && b.mem.fetches.any same then b
  else match nodePlace level idx ply b with
    | some (k, mk, _) => startFetch (.node level idx ply) k mk none true mismatch macUe (submitNode level idx b)
    | none => b

/-- Walk toward an address's counter block until it is cached or a node must be fetched (R83, R89); false: out of service. -/
def walk : Nat → Nat → Block → Bool × Block
  | 0, _, b => (true, b)
  | k + 1, addr, b =>
    let m := missing addr b
    if m = 0 then (true, bobUse 0 (addr / 4096) b)
    else
      let lv := m - 1
      let ix := nodeIdx addr lv
      if (quarOf (ix * covers lv) (covers lv) b).isSome then (false, b)
      else if nodeCtr lv ix b = (0, 0) then walk k addr (bobPut (partOf addr b) lv ix 0 false b)
      else (true, startNode lv ix 0 false false b)

/-! ### The access itself -/

/-- Count a request's data bytes (R458, R459). -/
def countData (t : Txn) (b : Block) : Block := countLine (some (t.layer, t.operator)) t.skein (t.kind == .write) b

/-- A request's units, which count in the bucket of its LAYER and OPERATOR (R459). -/
def Txn.work (t : Txn) : Work := { item := some (t.layer, t.operator) }

/-- The request has written its line: it waits for the controller (R480). -/
def awaitAccept (t : Txn) (b : Block) : Block :=
  let n := (b.mem.writes.filter fun w => match w.purpose with | .txn i | .own i _ => i == t.id | _ => false).length
  if n = 0 then finishTxn t cOK 0 b else setTxn t.id (fun t => { t with phase := .accept n }) b

/-- Write a class S line, whole or merged (R69, R90, R93); a page with accesses outstanding waits for its re-encryption, and a write whose
counter block has left the cache meanwhile walks again. -/
def writeS (evs : MemEvs) (t : Txn) (x : Line) (b : Block) : Block :=
  if !bobHas 0 (t.line / 4096) b || (lineCtr t.line b).2 = 127 && pageBusy t b then setTxn t.id (fun t => { t with phase := .blocked, mask := fullMask, data := x }) b
  else
    let b := if (absOpen t.line b).isSome then delAbs t.line b else b
    let b := submitWork t.work t.skein false t.gen t.keyId t.line 5 (countData t b)
    let (st, b) := writeCached 1 evs (some (.txn t.id)) t.key t.tk t.keyId t.line x b
    if st = cOK then awaitAccept t b else finishTxn t st 0 b

/-- Apply a ply request to the entry that holds its line (R171, R172). -/
def plyS (evs : MemEvs) (t : Txn) (b : Block) : Block :=
  let b := bumpBucket t.skein t.layer t.operator 40 1 b
  let (st, x, b) := plyOnEntry evs t.skein t.word t.addr t.mask t.srTag t.kr t.data b
  finishTxn t st x b

/-- Use a line's verified value for a request (R69, R90, R171). -/
def useLine (evs : MemEvs) (t : Txn) (x : Line) (b : Block) : Block := match t.kind with
  | .read => finishTxn t cOK x (countData t b)
  | .write => writeS evs t (mergeLine x t.data t.mask) b
  | .ply => plyS evs t (absInsert evs t.skein t.keyId t.line x b)

/-- Serve a class S request whose counter block is cached (R79, R90, R172). -/
def serveS (evs : MemEvs) (t : Txn) (b : Block) : Block := match absHeld t.line b with
  | some e => match absorberHit evs t.line b with
    | some b => finishTxn t cEcc 0 b
    | none => match t.kind with
      | .read => let (x, b) := absRead false e (useAbs t.line b); finishTxn t cOK x (countData t b)
      | .write => finishTxn t cOK 0 (absWrite t.line t.data t.mask (countData t b))
      | .ply => plyS evs t b
  | none =>
    let spilled := t.kind = .ply && t.word.exact && (absOpen t.line b).isSome
    if spilled then match absOpen t.line b with
      | some e => match absRestore evs e b with
        | (st, b) => if st = cOK then plyS evs t b else finishTxn t st 0 b
      | none => b
    else
      let b := if t.kind = .ply && (absOpen t.line b).isSome then delAbs t.line b else b
      if t.kind = .write && t.mask = fullMask then writeS evs t t.data b
      else
        let c := lineCtr t.line b
        if c.2 = 0 then useLine evs t 0 b
        else
          let st := stepAt t.line b
          let b := setTxn t.id (fun t => { t with phase := .data, ctr := c, step := st }) b
          let b := submitWork t.work t.skein false t.gen t.keyId t.line 5 b
          startFetch (.txn t.id) (dataPlace t.tk t.line b) (macPlace t.line b).1 (bobGet 5 (t.line / 512) b) false false false b

/-- Serve a class E request (R111, R116 to R119); its bit was set at acceptance. -/
def serveE (t : Txn) (b : Block) : Block := match t.kind with
  | .read =>
    if groupBad t.line b then finishTxn t cEcc 0 b
    else if !t.hasBit then finishTxn t cOK 0 (countData t b)
    else
      let b := submitWork t.work t.skein true t.gen t.keyId t.line (if t.macEn then 5 else 4) b
      let b := setTxn t.id (fun t => { t with phase := .data }) b
      let none' : Option Line := if t.macEn then none else some 0
      startFetch (.txn t.id) (dataPlace t.tk t.line b) (if t.macEn then (eMacPlace t.line b).1 else 0) none' false false false b
  | .write =>
    let b := submitWork t.work t.skein true t.gen t.keyId t.line (if t.macEn then 5 else 4) (countData t b)
    awaitAccept t (storeE (some (.txn t.id)) (isSlotClass t.skein b) t.key t.epoch t.region t.macEn t.line (mergeLine 0 t.data t.mask) b)
  | .ply => finishTxn t cNotPermitted 0 b

/-- The plaintext of a slot-class write that has not reached the controller (R119). -/
def plainOf (line : Nat) (b : Block) : Option Line :=
  (b.mem.writes.reverse.findSome? fun w => match w.plain with | some (a, x) => if a = line then some x else none | none => none)

/-- The plaintext that answers a slot-class read: that of the last write to its line accepted before it and not yet received by the
controller (R111, R119). -/
def plainFor (t : Txn) (b : Block) : Option Line :=
  let mine := (b.mem.txns.takeWhile fun u => u.id != t.id).filter fun u => u.line == t.line && u.kind == .write
  match mine.getLast? with
  | some u => some (mergeLine 0 u.data u.mask)
  | none => plainOf t.line b

/-- The hank has been revoked for want of a place in the quarantine table while the request waited (R102). -/
def revokedFull (t : Txn) (b : Block) : Bool :=
  let h := getHank (t.line / hankBytes) b
  h.reinit && h.st != .allocated && h.skein == t.skein

/-- Let a waiting request make what progress it can. -/
def advance (evs : MemEvs) (id : Nat) (b : Block) : Block := match findTxn id b with
  | none => b
  | some t =>
    let waiting := match t.phase with | .blocked | .walk => true | _ => false
    if !waiting then b
    else if t.cls = .E && t.kind = .read && isSlotClass t.skein b && t.hasBit && (plainFor t b).isSome then
      finishTxn t cOK ((plainFor t b).getD 0) (countData t b)
    else if lineBusy t b || (t.cls != .E && pageHeld (t.line / 4096) b) ||
        (windowHeld t b && !isSlotClass t.skein b) then setTxn id (fun t => { t with phase := .blocked }) b
    else if revokedFull t b then finishTxn t cHankRevoked 0 b
    else if (quarOf t.line 64 b).isSome then finishTxn t cTree 0 b
    else if t.cls = .E then serveE t b
    else match walk 5 t.line b with
      | (false, b) => finishTxn t cTree 0 b
      | (true, b) => if bobHas 0 (t.line / 4096) b then serveS evs t b else setTxn id (fun t => { t with phase := .walk }) b

/-- Let every waiting request advance, in order of acceptance, until none moves. -/
def pump : Nat → MemEvs → Block → Block
  | 0, _, b => b
  | k + 1, evs, b =>
    let n := b.mem.txns.length
    let b := (b.mem.txns.map (·.id)).foldl (fun b i => advance evs i b) b
    if b.mem.txns.length < n then pump k evs b else b

/-! ### What a catch leaves to do (R400, R404) -/

/-- Forget what the services hold for descriptors that have completed. -/
def dropStale (b : Block) : Block :=
  let live (i : Nat) : Bool := (findDesc i b).isSome
  setSrv (fun v => { v with aead := v.aead.filter fun m => live m.desc, seals := v.seals.filter fun s => live s.desc })
    { b with ladder := { b.ladder with fwWait := b.ladder.fwWait.filter live } }

/-- The entry names a message segment of a descriptor. -/
def segmentOf (x : Desc) (e : BitVec 64) (b : Block) : Bool :=
  let v := e.toNat
  v / 2 ^ 62 == 2 && v / 2 ^ 40 % 65536 == x.index.toNat &&
    (match slotSkein (v / 2 ^ 56 % 64) b with | some (n, _) => x.ring == .skein n | none => false)

/-- Step 4 of R400: descriptors and fenced requests whose units are suspect complete with WHORL_SUSPECT. -/
def failSuspects (es : List (BitVec 64)) (b : Block) : Block :=
  let ds := b.descs.filter fun x => es.any fun e => segmentOf x e b
  let b := dropStale (ds.foldl (fun b x => finish x cWhorlSuspect b) b)
  let lines := (es.filter fun e => decide (e.toNat / 2 ^ 62 = 0)).map fun e => e.toNat % 2 ^ 46 * 64
  (b.mem.txns.filter fun t => t.fence.isSome && lines.contains t.line).foldl (fun b t => finishTxn t cWhorlSuspect 0 b) b

def modFth (f : Nat) (g : FthStream → FthStream) (b : Block) : Block :=
  { b with host := { b.host with fth := amPut {} f (g (amGetD {} f b.host.fth)) b.host.fth } }

/-- Drop a frame whole and count it by reason (R262, R454). -/
def fthDrop (f reason : Nat) (b : Block) : Block :=
  bumpHealth 72 1 (modFth f (fun s => { s with drops := amPut 0 reason (amGetD 0 reason s.drops + 1) s.drops }) b)

/-- A slot unit is lost with its whorl (R404): a frame is dropped, a read answered WHORL_SUSPECT, and a write's bit cleared. -/
def loseSlotUnit (u : WUnit) (b : Block) : Block :=
  let v := u.entry.toNat
  let b := bumpHealth 64 1 b
  if v / 2 ^ 62 = 1 then
    let port := v / 2 ^ 57 % 32
    if 20 ≤ port && port < 28 then fthDrop (port - 20) 1 b else b
  else
    let line := v % 2 ^ 46 * 64
    match b.mem.txns.find? fun t => t.line == line && t.kind == .read with
    | some t => finishTxn t cWhorlSuspect 0 b
    | none =>
      let h := getHank (line / hankBytes) b
      if h.st != .allocated || h.cls != .E then b
      else
        let ep := (fixE h.keyId line b).1
        let p := wordsAt line b
        let one : BitVec 256 := ~~~(1 <<< (line / 64 % 256))
        let q : WordPair := if p.tag0 = epochTag ep then { p with bits0 := p.bits0 &&& one } else { p with bits1 := p.bits1 &&& one }
        setMem (fun m => { m with words := amPut {} (line / 16384) q m.words }) b

/-- Complete what the catches of this step have made suspect, and lose their slot units (R400, R404). -/
def settleSuspects (b : Block) : Block :=
  if b.suspects.isEmpty && b.lostUnits.isEmpty then b
  else
    let es := b.suspects
    let us := b.lostUnits
    us.foldl (fun b u => loseSlotUnit u b) (failSuspects es { b with suspects := [], lostUnits := [] })

def pumpAll (evs : MemEvs) (b : Block) : Block :=
  let b := pump (b.mem.txns.length + 1) evs b
  settleSuspects (trim evs none b)

/-! ### Returns and acceptances -/

/-- The requests whose walks go through a node fail with WHORL_SUSPECT: no recomputation of its MAC was to be trusted (R398). -/
def failWalks (level idx : Nat) (b : Block) : Block :=
  (b.mem.txns.filter fun t => t.phase == .walk && t.line / covers level == idx).foldl (fun b t => finishTxn t cWhorlSuspect 0 b) b

/-- A node's two lines have come back (R99, R103). Where one was written meanwhile, or the parent has left the cache, the waiting walks
start again (R89, R98). -/
def nodeBack (evs : MemEvs) (f : Fetch) (level idx ply : Nat) (d m : Ret) (b : Block) : Block :=
  let slot := match nodePlace level idx ply b with | some p => p.2.2 | none => 0
  if bobHas level idx b || (quarOf (idx * covers level) (covers level) b).isSome || f.stale || !bobHas (level + 1) (idx / 64) b then b
  else
  let (v, b) := judgeNode evs level idx f.key slot d m b
  if v.suspect then failWalks level idx b
  else if v.ok then
    let b := bobPut (partOf (idx * covers level) b) level idx d.data false b
    let b := if ply = 1 then repairPly level idx 0 d.data f.mismatch b else b
    trim evs (partOf (idx * covers level) b) b
  else if 2 ≤ level && ply = 0 then startNode level idx 1 v.mismatch v.macUe b
  else nodeError level idx { v with mismatch := v.mismatch || f.mismatch, macUe := v.macUe && (level ≤ 1 || f.macUe) } b

/-- A request's line and MAC line have come back (R77, R90, R118). DESIGN CHOICE: where its range was quarantined after its reads were
issued, its walk had passed verification, so that it counts among the requests that complete normally (R101). -/
def lineBack (evs : MemEvs) (f : Fetch) (id : Nat) (d m : Ret) (b : Block) : Block := match findTxn id b with
  | none => b
  | some t =>
    if t.cls = .E then
      let item := lineItem t.skein t.gen t.keyId t.line (if t.macEn then 5 else 4)
      let (r, b) := verifyLine evs f.key item t.key (.e t.epoch t.region) t.line (eMacPlace t.line b).2 d (if t.macEn then some m else none) b
      match r with
      | .ok x => useLine evs t x b
      | r => finishTxn t (r.status .E) 0 (lineFault .E t.skein t.line r b)
    else
      let (r, b) := verifyLine evs f.key (lineItem t.skein t.gen t.keyId t.line 5) t.key (.s t.ctr.1 t.ctr.2 t.step) t.line
        (t.line / 64 % 8) d (some m) b
      match r with
      | .ok x =>
        let b := if f.stale || bobHas 5 (t.line / 512) b || (quarOf t.line 64 b).isSome then b else bobPut (partOf t.line b) 5 (t.line / 512) m.data false b
        useLine evs t x b
      | r => finishTxn t (r.status .S) 0 (lineFault .S t.skein t.line r (bobDel 5 (t.line / 512) b))

/-- A fetch whose lines are all back is used. -/
def fetchDone (evs : MemEvs) (f : Fetch) (b : Block) : Block := match f.data, f.mac with
  | some d, some m =>
    let b := setMem (fun x => { x with fetches := x.fetches.filter fun g => g.id != f.id }) b
    match f.purpose with
    | .node l i p => nodeBack evs f l i p d m b
    | .txn id => lineBack evs f id d m b
  | _, _ => b

/-- MEMORY_READ_RETURN: a controller returns the read with a tag of its lane (R481, R482). -/
def doReadReturn (lane mtag : Nat) (data : Line) (ue ce : Bool) (evs : MemEvs) (b : Block) : Block :=
  match b.mem.reads.find? fun r => physLane r.key == lane && r.mtag == mtag && decide (mtag < 256) with
  | none => b
  | some r =>
    let b := issueWaiting lane (setMem (fun m => { m with reads := m.reads.erase r }) b)
    let ret : Ret := { data := data, ue := ue, ce := ce }
    let upd (f : Fetch) : Fetch := if f.id = r.fetch then (if r.isMac then { f with mac := some ret } else { f with data := some ret }) else f
    let b := setMem (fun m => { m with fetches := m.fetches.map upd }) b
    match b.mem.fetches.find? fun f => f.id = r.fetch with
    | none => b
    | some f => pumpAll evs (fetchDone evs f b)

/-- MEMORY_WRITE_ACCEPT: a controller takes the oldest write of its lane that a request or a page waits on (R480, R482). -/
def doWriteAccept (lane : Nat) (b : Block) : Block :=
  match b.mem.writes.find? fun w => physLane w.key == lane with
  | none => b
  | some w =>
    let b := setMem (fun m => { m with writes := m.writes.erase w }) b
    let b := match w.purpose with
      | .txn id | .own id _ => match findTxn id b with
        | some t => awaitAccept t b
        | none => b
      | _ => b
    pumpAll [] b

/-! ### Acceptance -/

/-- What the front end finds for a request of a resident skein (R20, R150, R290, R305): the status that refuses it, and
whether the refusal raises ACLASS 4. What was lost to a double-bit error answers INTERNAL_ECC (R397). -/
def frontEnd (n keyId addr : Nat) (b : Block) : Option (BitVec 8 × Bool) :=
  match getSkein n b with
  | none => some (cNotPermitted, true)
  | some s =>
    let h := getHank (addr / hankBytes) b
    if s.st = .destroying then some (cKeyRetired, false)
    else if s.st = .resetting then some (cResetting, false)
    else
      let retiring := match amGet keyId b.mem.keys with
        | some e => if e.skein == n && e.st == KeySt.retiring then some (if e.lost then cEcc else cKeyRetired) else none
        | none => none
      let revoked := decide (h.st = .revoked) || ((decide (h.st = .zeroing) || decide (h.st = .retired) || decide (h.st = .quarHeld)) && h.revokedMark)
      if retiring.isSome then some (retiring.getD cKeyRetired, false)
      else if h.lost && h.skein == n then some (cEcc, false)
      else if revoked then some (cHankRevoked, false)
      else match amGet keyId b.mem.keys with
      | none => some (cNotPermitted, true)
      | some e =>
        if e.skein != n || e.st != KeySt.valid then some (cNotPermitted, true)
        else if h.st != HankSt.allocated || h.holds == 0 || h.skein != n || h.keyId != keyId then some (cNotPermitted, true)
        else none

/-- Count a straggler of a skein being destroyed: a write is dropped, any other request refused (R290, R291). -/
def countStraggler (n : Nat) (dropped : Bool) (b : Block) : Block :=
  modSkein n (fun s => { s with counts :=
    if dropped then { s.counts with dropped := s.counts.dropped + 1 } else { s.counts with refused := s.counts.refused + 1 } }) b

/-- Refuse a request: counted, and ACLASS 4 where the rule has it (R20, R150). -/
def refuseReq (n : Nat) (st : BitVec 8) (raise isWrite : Bool) (b : Block) : Block :=
  let b := bumpSk n 144 1 b
  let b := if isWrite then bumpSk n 152 1 b else b
  let b := if (getSkein n b).map (·.st) = some .destroying then countStraggler n isWrite b else b
  if raise then raiseViews { cls := 4, skein := some n, cause := st } b else b

/-- One memory request, and one ply operation, in 1,024 enters the spool with its address (R465). -/
def sampleAccess (t : Txn) (b : Block) : Block :=
  let ra := t.keyId * 2 ^ 52 + t.addr
  let s := b.tel.spool
  let b := setSpool (fun s => { s with memCount := s.memCount + 1, plyCount := s.plyCount + b2n (t.kind == .ply) }) b
  let b := if s.memCount % 1024 = 0 then spoolFree 5 13 t.skein ra 0 b else b
  if t.kind = .ply && s.plyCount % 1024 = 0 then spoolFree 5 14 t.skein ra (t.word.op + 16 * b2n t.word.fetch + 32 * b2n t.word.exact + 64 * t.word.rnd + 256 * t.word.fmt + 65536 * t.word.srStep) b else b

/-- Accept one line request of a skein and start it (R22, R111, R384). -/
def acceptLine (src : Src) (kind : TxnKind) (n keyId addr : Nat) (mask : BitVec 64) (data : Line) (word : PlyWord) (srTag : BitVec 64)
    (fence : Option Nat) (respond : Bool) (layer operator : Nat) (evs : MemEvs) (b : Block) : Block :=
  let line := addr / 64 * 64
  let h := getHank (addr / hankBytes) b
  let s := getSkein n b
  let e := amGet keyId b.mem.keys
  let isE := h.cls = .E
  let (claim, b) := if isE && kind = .write then claimE n keyId line b else (cOK, b)
  let (ep, g, hit) := if isE then fixE keyId line b else (0, genAt keyId line b, false)
  let b := match fence with
    | some f => modFence (some n) f (fun x => { x with refs := x.refs + 1 }) b
    | none => b
  let id := b.mem.nextId
  let t : Txn :=
    { id := id, src := src, kind := kind, skein := n, slot := (s.bind (·.slot)).getD 0, keyId := keyId, cls := h.cls, line := line,
      addr := addr, mask := mask, data := data, word := word, srTag := srTag, gen := genNum g, key := genKey g, tk := addrTk line b,
      kr := (e.map (·.kr)).getD 0, region := (e.map (·.region)).getD 0, epoch := ep, hasBit := hit, macEn := h.eblock.isSome,
      fence := fence, respond := respond, layer := layer, operator := operator, phase := .blocked }
  let b := setMem (fun m => { m with nextId := m.nextId + 1 }) b
  let b := if isE then b else countWalk n line b
  let b := sampleAccess t (setMem (fun m => { m with txns := m.txns ++ [t] }) b)
  if claim != cOK then finishTxn t claim 0 b
  else if isE then pumpAll evs b
  else match bobbinHit evs line b with
    | some b => finishTxn t cEcc 0 b
    | none => pumpAll evs b

/-- The word of a request that is no ply operation. -/
def noPly : PlyWord := plyWord 0

/-- The checks of R478 on a request's own fields, for CMD 0, 1 and 2. -/
def reqMalformed (q : WarpReq) (cmd : Nat) : Bool :=
  q.rsvd || (!q.peerV && q.len != 0) || (q.peerV && q.peer.getLsbD 14) || (cmd != 1 && q.peerV && q.peer.getLsbD 15) ||
    (q.peerV && q.peer.getLsbD 15 && q.peer &&& 0x7000 != 0) ||
    (cmd != 2 && (q.plyop != 0 || q.srtag != 0)) || (cmd != 0 && q.len != 0)

/-- Answer a refused or malformed request where it is answered at all (R20, R479, R480). -/
def rspFail (q : WarpReq) (isWrite : Bool) (st : BitVec 8) (b : Block) : Block :=
  if !isWrite || q.ack || q.fenceV || q.peerV then emit (.rsp q.port q.tag st true 0) b else b

/-- Complete a request at its acceptance, with its fence (R384). -/
def failReq (q : WarpReq) (n : Nat) (isWrite : Bool) (st : BitVec 8) (b : Block) : Block :=
  let b := rspFail q isWrite st b
  if q.fenceV then errorFence (some n) q.fence.toNat st b else b

/-- Accept a request of a warp port to the block's own memory. DESIGN CHOICE: a request that is both malformed (R478) and to be refused (R20,
R150) is malformed first and is answered DESCRIPTOR_INVALID, uncounted and with no event, except that the tag of an empty slot is
refused before all else; the spec gives the two no order. -/
def doLocal (kind : TxnKind) (q : WarpReq) (evs : MemEvs) (b : Block) : Block :=
  let isWrite := decide (kind = .write)
  match slotSkein q.skeinTag.toNat b with
  | none =>
    rspFail q isWrite cNotPermitted (raiseViews { cls := 4, noView := true, cause := cNotPermitted } (bumpRefused b))
  | some (n, _) =>
    let keyId := reqKeyId q
    let addr := reqAddr q
    let cmd := match kind with | .read => 0 | .write => 1 | .ply => 2
    if reqMalformed q cmd then failReq q n isWrite cInvalid b
    else match frontEnd n keyId addr b with
      | some (st, raise) => failReq q n isWrite st (refuseReq n st raise isWrite b)
      | none =>
        if kind = .ply && (getHank (addr / hankBytes) b).cls != .S then failReq q n isWrite cNotPermitted b
        else if kind = .ply && !plyValid (plyWord q.plyop) addr q.mask q.srtag then failReq q n isWrite cInvalid b
        else
          let fence := if q.fenceV then some q.fence.toNat else none
          acceptLine (.warp q.port q.tag) kind n keyId addr q.mask q.data (plyWord q.plyop) q.srtag fence
            (q.ack || q.fenceV) q.layer.toNat q.operator.toNat evs b

/-- In REST and OFF the synchroniser answers warp requests itself, with ABORTED (R437). -/
def onWarp (q : WarpReq) (f : Block → Block) (s : State) : Out :=
  onSettled (fun b => if closed b then bumpRefused (emit (.rsp q.port q.tag cAborted true 0) b) else f b) s

end Sys2Proof.Machine
end

