-- ==== Sys2Proof/Machine/KeyOps.lean ====
section
/-! DEFINITION. Key generations: derivation, installation, erasure (R24, R113, R158, R159, R299, R305, R306, R317). Choices marked
in the log: DEDUCED 120; DESIGN CHOICE 55. -/

namespace Sys2Proof.Machine

/-- A generation from its material (R299, R306). -/
def mkGen (keyId num : Nat) (mat : Key) (b : Block) : KeyGen :=
  { num := num % 16, mat := mat,
    key := kdf (keyBytes mat) "frexis mem" (keyBytes b.dataRoot ++ keyBytes b.nStart ++ leBytes 2 keyId ++ leBytes 1 (num % 16)) }

/-- The rounding key of the material first installed (R299, R306). -/
def mkKr (mat : Key) : Key := kdf (keyBytes mat) "frexis round" []

/-- Rotated material without a blob (R317). -/
def rotated (g : KeyGen) : Key := kdf (keyBytes g.mat) "frexis rotate" (leBytes 1 g.num)

def modKey (k : Nat) (f : KeyEntry → KeyEntry) (b : Block) : Block := setMem (fun m => { m with keys := amMod k f m.keys }) b
def getKey (k : Nat) (b : Block) : Option KeyEntry := amGet k b.mem.keys

/-- Install the next generation; the one before it becomes the previous one (R113, R158). -/
def installGen (k : Nat) (mat : Option Key) (b : Block) : Block :=
  modKey k (fun e => match e.cur with
    | some g => { e with prev := some g, cur := some (mkGen k (g.num + 1) (mat.getD (rotated g)) b) }
    | none => e) b

/-- Entries RETIRING return to FREE once no hank bound to them remains outside FREE, a class E one with its region (R24, R107, R289). -/
def freeKeys (b : Block) : Block :=
  let gone := (b.mem.keys.filter fun e => e.2.st == .retiring &&
    !(b.mem.hanks.any fun h => h.2.keyId == e.1 && h.2.st != .free)).map (·.1)
  let regs := gone.filterMap fun k => (getKey k b).bind fun e => if e.cls = .E then some e.region else none
  setSrv (fun v => { v with resumes := v.resumes.filter fun y => !regs.contains y.region }) (setMem (fun m => { m with
    keys := m.keys.filter fun e => !gone.contains e.1,
    regions := m.regions.filter fun r => !regs.contains r.1 }) b)

/-- The keys a skein holds. -/
def keysOf (n : Nat) (b : Block) : List Nat := (b.mem.keys.filter fun e => e.2.skein == n).map (·.1)

end Sys2Proof.Machine
end

