-- ==== Sys2Proof/Machine/Reel.lean ====
section
/-! DEFINITION. The Reel, zeroing, re-initialisation, the bitmap sweeper and the skew monitor (R97, R104, R115, R156 to R168,
R525). Choices marked in the log: DEDUCED 26, 27, 28, 91; DESIGN CHOICE 4, 20, 44, 135. -/

namespace Sys2Proof.Machine

/-! ### Scope -/

/-- A retwist of the zone is in the pass. -/
def retwisting (zone : Nat) (b : Block) : Bool := b.mem.reel.pass.any fun c => match c with
  | .retwist z _ _ => z == zone
  | _ => false

/-- A hank's lines are in the pass's scope: its key rotates, or its zone is retwisted; a skein's hanks leave it with its destroy (R156,
R165). -/
def hankInScope (h : Nat) (b : Block) : Bool :=
  let x := getHank h b
  x.st == .allocated && (getSkein x.skein b).map (·.st) != some SkSt.destroying && ((x.cls == .S && rotating x.keyId b) ||
    (match b.mem.lay.zoneOfHank h with | some m => retwisting m.zone b | none => false))

/-- The ranges in the pass's scope as (base, bytes): hanks, the boot carve-out, and the epoch MAC blocks in use (R156). -/
def scopeRanges (b : Block) : List (Nat × Nat) :=
  let hs := (b.mem.hanks.filter fun e => hankInScope e.1 b).map fun e => (e.1 * hankBytes, hankBytes)
  let l := b.mem.lay
  let boot := match l.zoneOfHank l.bootBase with
    | some m => if retwisting m.zone b then [(l.bootBase * hankBytes, l.bootHanks * hankBytes)] else []
    | none => []
  let blocks := b.mem.hanks.filterMap fun e => match e.2.eblock, l.zoneOfHank e.1 with
    | some k, some m => if e.2.st = .allocated && retwisting m.zone b then
        some ((m.baseHank + m.hanks - m.eblocks + k % 1024 / 8) * hankBytes + k % 8 * 262144, 262144) else none
    | _, _ => none
  hs ++ boot ++ blocks

/-- The windows with a line in scope at or above an address (R161). -/
def windowFrom (at' : Nat) (b : Block) : Option Nat :=
  argMin id ((scopeRanges b).filterMap fun r =>
    let w := max r.1 (at' / 65536 * 65536)
    let w := if w < at' then w + 65536 else w
    if w < r.1 + r.2 then some w else none)

/-- The next window with a line in scope at or above the mark. -/
def nextWindow (b : Block) : Option Nat := windowFrom b.mem.reel.mark b

/-- A window has lines in scope (R156, R165). -/
def inScope (w : Nat) (b : Block) : Bool := (scopeRanges b).any fun r => decide (r.1 ≤ w) && decide (w < r.1 + r.2)

/-! ### Passes -/

/-- The queued changes that a pass may take: those not deferred (R157, R159). -/
def passChanges (b : Block) : List RChange := (b.mem.reel.queue.filter fun q => !q.deferred).map (·.change)

/-- The rate of a pass: the least of its changes', at most the ceiling (R157). -/
def passRate (b : Block) : Nat :=
  let rates := (passChanges b).map fun c => match c with | .retwist _ rate _ => rate | .rotate _ _ => bitField b.regs.reelRotRate 9 0
  min ((argMin id rates).getD b.row.reelCeiling) b.row.reelCeiling

/-- The zones that the queued changes retwist. -/
def passZones (b : Block) : List Nat :=
  ((passChanges b).filterMap fun c => match c with | .retwist z _ _ => some z | _ => none).eraseDups

/-- A retwisted zone draws its new twist key (R156). -/
def drawTk (b : Block) (z : Nat) : Block :=
  let (t, b) := draw 64 b
  setMem (fun m => { m with reel := { m.reel with newTk := amSet z t m.reel.newTk } }) b

/-- REEL_PASS_START: the pass merges every change queued and not deferred (R157); a retwisted zone draws its new key. -/
def doPassStart (b : Block) : Block :=
  if !b.mem.reel.pass.isEmpty || b.mem.reel.taken.isSome || (passChanges b).isEmpty then b
  else (passZones b).foldl drawTk (setMem (fun m => { m with reel := { m.reel with
    pass := passChanges b, queue := m.reel.queue.filter (·.deferred), mark := 0, rate := passRate b } }) b)

/-- An absorber entry holds a change that is not written back (R193). -/
def unwritten (e : AbsEntry) : Bool := !e.spilled && e.dirty && !e.idle

/-- Write back the absorber entries of a window that hold changes, and keep them (R196). -/
def writeBackWindow (evs : MemEvs) (w : Nat) (b : Block) : Block :=
  (b.mem.abs.filter fun e => unwritten e && decide (w ≤ e.line) && decide (e.line < w + 65536)).foldl (fun b e =>
    modAbs e.line (fun e => { e with idle := true, closeAt := some (b.tick + plyTicks b) }) (absWriteBack evs e b)) b

/-- Bring in the counter blocks of a class S window (R161). -/
def windowCounters (evs : MemEvs) (w : Nat) (b : Block) : Block :=
  let x := getHank (w / hankBytes) b
  if x.st != .allocated || x.cls != .S then b
  else (List.range 16).foldl (fun b i => (ensure 5 evs 0 (w / 4096 + i) b).2) b

/-- A class S line has a counter of its own. -/
def lineWritten (a : Nat) (b : Block) : Bool := bobHas 0 (a / 4096) b && (lineCtr a b).2 != 0

/-- The lines of a window that hold content (R118, R156, R161): class S lines with a minor, class E lines with a bit, class B lines of a
live extent, and those of epoch MAC blocks; quarantined ranges are passed over (R164). -/
def contentLines (w : Nat) (b : Block) : List Nat :=
  let h := w / hankBytes
  let x := getHank h b
  let boot := decide (b.mem.lay.bootBase ≤ h) && decide (h < b.mem.lay.bootBase + b.mem.lay.bootHanks)
  ((List.range 1024).map (w + 64 * ·)).filter fun a => (quarOf a 64 b).isNone &&
    (if x.st = .allocated then (if x.cls = .S then lineWritten a b else (fixE x.keyId a b).2.2)
     else if boot then b.mem.extents.any fun e => decide (e.base ≤ a) && decide (a < e.base + 64 * e.lines)
     else true)

/-- Read a line for the Reel under its current placement and generation, and verify it: class S in plaintext; class E and B, and a line
that fails, as stored (R161, R164). -/
def readCopy (evs : MemEvs) (wk : Work) (a : Nat) (b : Block) : Moved × Block :=
  let h := getHank (a / hankBytes) b
  let raw := (rawRead evs (dataPlace (addrTk a b) a b) false b).1.data
  if h.st = .allocated then
    if h.cls = .S then
      match readUnder evs wk (genAt h.keyId a b) h.keyId (stepAt a b) a b with
      | (.ok x, _, b) => (.plain x, b)
      | (r, _, b) => (.stored raw, lineFault .S h.skein a r b)
    else
      let (ep, g, _) := fixE h.keyId a b
      let region := ((amGet h.keyId b.mem.keys).map (·.region)).getD 0
      match readE evs wk h.skein h.keyId g ep region h.eblock.isSome a b with
      | (.ok _, b) => (.stored raw, b)
      | (r, b) => (.stored raw, lineFault .E h.skein a r b)
  else match b.mem.extents.find? fun e => decide (e.base ≤ a) && decide (a < e.base + 64 * e.lines) with
    | some e => (.stored raw, (readLineB wk evs e.count a b).2)
    | none => (.stored raw, (rawRead evs (dataPlace (addrTk a b) a b) false b).2)

def setReel (f : Reel → Reel) (b : Block) : Block := setMem (fun m => { m with reel := f m.reel }) b

/-- Pre-read a window that has not been read: the Reel keeps a copy of each line with content, which later writes replace (R161). -/
def preRead (evs : MemEvs) (w : Nat) (b : Block) : Block :=
  if b.mem.reel.ahead.contains w then b
  else
    let b := setReel (fun r => { r with ahead := r.ahead ++ [w] }) (windowCounters evs w b)
    (contentLines w b).foldl (fun b a =>
      let (m, b) := readCopy evs { tier := 6 } a b
      setReel (fun r => { r with copies := amSet a m r.copies }) b) b

/-- Pre-read up to `k` windows in scope from an address on. -/
def preReadFrom : Nat → MemEvs → Nat → Block → Block
  | 0, _, _, b => b
  | k + 1, evs, at', b => match windowFrom at' b with
    | some w => preReadFrom k evs (w + 65536) (preRead evs w b)
    | none => b

/-- A pass enters a hank whose counter blocks it reads: where some page's major cannot advance, the pass takes a step of the hank with it,
and past step 15 the hank leaves service (R96, R163). -/
def enterHank (evs : MemEvs) (w : Nat) (b : Block) : Block :=
  let h := w / hankBytes
  let x := getHank h b
  if w % hankBytes != 0 || x.st != .allocated || x.cls != .S || (amGet h b.mem.reel.steps).isSome then b
  else
    let b := (List.range 512).foldl (fun b i => (ensure 5 evs 0 (512 * h + i) b).2) b
    if (List.range 512).any fun i => nodeMajor (bobLine 0 (512 * h + i) b) == 0xFFFFFFFFFFFFFFFF then
      if 15 ≤ x.step then exhaustHank h b else setReel (fun r => { r with steps := amSet h w r.steps }) b
    else b

/-- Hold a window, write its absorber entries back, and pre-read up to four windows ahead of it (R161, R196). DESIGN CHOICE: the spec says
that the Reel reads ahead and not when; here it does so at each take. -/
def takeWindow (evs : MemEvs) (w : Nat) (b : Block) : Block :=
  let b := preRead evs w b
  let b := setMem (fun m => { m with reel := { m.reel with mark := w, taken := some w, takenId := m.nextId } }) (spoolFree 1 8 ownBlock w 0 b)
  let b := preReadFrom 4 evs (w + 65536) (writeBackWindow evs w b)
  pumpAll evs (trim evs (partOf w b) b)

/-- Tier 6 is cut to zero: a higher tier is short (R49). -/
def reelCut (b : Block) : Bool := shortfall b

/-- REEL_WINDOW_TAKE (R53, R161, R163, R196): the mark passes windows with no line in scope; the next one is held. -/
def doWindowTake (evs : MemEvs) (b : Block) : Block :=
  if b.mem.reel.pass.isEmpty || b.mem.reel.taken.isSome || reelCut b then b
  else match nextWindow b with
    | none => b
    | some w =>
      let b := enterHank evs w b
      if inScope w b then takeWindow evs w b else b

/-- The twist key that the pass gives a zone. -/
def passTk (addr : Nat) (b : Block) : BitVec 64 := match b.mem.lay.zoneOfHank (addr / hankBytes) with
  | some m => amGetD (amGetD 0 m.zone b.mem.tk) m.zone b.mem.reel.newTk
  | none => 0

/-- The generation that the pass gives a key's lines: the new one where the key rotates (R160). -/
def passGen (keyId : Nat) (b : Block) : Option KeyGen := match getKey keyId b with
  | some e => if rotating keyId b then e.cur else (match e.prev with | some p => some p | none => e.cur)
  | none => none

/-- The lines of a window with content, each with its copy, read now where there is none. -/
def windowCopies (evs : MemEvs) (w : Nat) (b : Block) : List (Nat × Moved) × Block :=
  (contentLines w b).foldl (fun (acc : List (Nat × Moved) × Block) a => match amGet a acc.2.mem.reel.copies with
    | some m => (acc.1 ++ [(a, m)], acc.2)
    | none =>
      let (m, b) := readCopy evs { tier := 4 } a acc.2
      (acc.1 ++ [(a, m)], b)) ([], b)

/-- The counters of a class S page in a window: the major advances by one, or is 0 under a new step; written lines have minor 1 (R161,
R163). A page without content is rewritten for a new step alone. -/
def writePage (step : Bool) (b : Block) (p : Nat) : Block :=
  let cb := bobLine 0 p b
  let full := (List.range 64).any fun i => nodeMinor cb i != 0
  if !bobHas 0 p b || (quarOf (4096 * p) 4096 b).isSome || !(full || (step && (nodeCtr 0 p b != (0, 0) || cb != 0))) then b
  else
    let maj := if step then 0 else nodeMajor cb + 1
    putNode 0 p ((List.range 64).foldl (fun y i => if nodeMinor cb i = 0 then y else setMinor y i 1) (setMajor 0 maj)) b

/-- The hank mark passes a window: the L1 node that ends there is new content, and past the hank's end its step is whole (R163). -/
def markStep (w : Nat) (b : Block) : Block :=
  let h := w / hankBytes
  let top := w + 65536
  let ix := w / covers 1
  let b := setReel (fun r => { r with steps := amSet h top r.steps }) b
  let b := if top % covers 1 = 0 && bobHas 1 ix b then putNode 1 ix (bobLine 1 ix b) b else b
  if top % hankBytes = 0 then endStep h b else b

/-- Write one line of a window under the pass's placement, generation and counters (R161 step 3). -/
def writeMoved (h : Hank) (g : Option KeyGen) (step : Nat) (b : Block) (e : Nat × Moved) : Block :=
  if (quarOf e.1 64 b).isSome then b
  else match e.2 with
    | .plain x =>
      let (maj, mnr) := lineCtr e.1 b
      storeLine none (genKey g) (passTk e.1 b) maj mnr step e.1 x (submitLine (some h.skein) false (genNum g) h.keyId e.1 4 5 b)
    | .stored x => memPut (dataPlace (passTk e.1 b) e.1 b) fullMask x none none false b

/-- A window is rewritten (R161, R163); what left the scope since the take is passed by (R165). A page whose major has come to its end since
the pass entered the hank takes the step of R95 first. -/
def rewriteWindow (evs : MemEvs) (w : Nat) (b : Block) : Block :=
  if !inScope w b then b
  else
    let h := w / hankBytes
    let b := windowCounters evs w b
    let (ms, b) := windowCopies evs w b
    let x := getHank h b
    let isS := x.st == .allocated && x.cls == .S
    let stepping := isS && (amGet h b.mem.reel.steps).isSome
    let pages := (List.range 16).map (w / 4096 + ·)
    let last := isS && !stepping && pages.any fun p => nodeMajor (bobLine 0 p b) == 0xFFFFFFFFFFFFFFFF
    let b := if last then stepHank evs h b else b
    let step := (getHank h b).step + b2n stepping
    let b := if isS then pages.foldl (writePage stepping) b else b
    let b := ms.foldl (writeMoved x (passGen x.keyId b) step) b
    bumpGlob 912 (64 * ms.length) (if stepping then markStep w b else b)

/-- Requests accepted into the window before the take are complete (R161). -/
def windowDrained (w : Nat) (b : Block) : Bool :=
  !(b.mem.txns.any fun t => decide (w ≤ t.line) && decide (t.line < w + 65536) && !windowHeld t b) &&
    !(b.mem.writes.any fun x => match x.purpose with
      | .page p | .own _ p => decide (w ≤ 4096 * p) && decide (4096 * p < w + 65536)
      | _ => false)

/-- Fix the generation and twist key of requests that the window held (R160, R161). -/
def refix (w : Nat) (b : Block) : Block :=
  let f (t : Txn) : Txn :=
    if w ≤ t.line && t.line < w + 65536 && t.cls != .E then
      let g := genAt t.keyId t.line b
      { t with gen := genNum g, key := genKey g, tk := addrTk t.line b }
    else if w ≤ t.line && t.line < w + 65536 then { t with tk := addrTk t.line b }
    else t
  setMem (fun m => { m with txns := m.txns.map f }) b

/-- Complete the descriptor of a change. -/
def changeDone (st : BitVec 8) (c : RChange) (b : Block) : Block :=
  let id := match c with | .rotate _ d => d | .retwist _ _ d => d
  match id.bind fun i => findDesc i b with
  | some x => finish x st b
  | none => b

/-- The running pass drops a key; its rotation completes with a status (R165). -/
def passDrop (k : Nat) (st : BitVec 8) (b : Block) : Block :=
  let isK (c : RChange) : Bool := match c with | .rotate j _ => j == k | _ => false
  let gone := b.mem.reel.pass.filter isK
  gone.foldl (fun b c => changeDone st c b) (setReel (fun r => { r with pass := r.pass.filter fun c => !isK c }) b)

/-- Drop the changes of a key that is retired: those queued at once, the pass's at its next window boundary (R159, R165). -/
def reelDropKey (k : Nat) (st : BitVec 8) (b : Block) : Block :=
  let isK (c : RChange) : Bool := match c with | .rotate j _ => j == k | _ => false
  let gone := (b.mem.reel.queue.map (·.change)).filter isK
  let b := setReel (fun r => { r with queue := r.queue.filter fun q => !isK q.change }) b
  let b := gone.foldl (fun b c => changeDone st c b) b
  if b.mem.reel.taken.isSome then setReel (fun r => { r with drops := r.drops ++ [(k, st)] }) b else passDrop k st b

/-- The mark passes a held window, and the requests that it held go on (R88, R161). -/
def releaseWindow (evs : MemEvs) (w : Nat) (b : Block) : Block :=
  let held := b.mem.txns.filter fun t => windowHeld t b && !isSlotClass t.skein b
  let b := setReel (fun r => { r with
    mark := w + 65536, taken := none, ahead := r.ahead.filter (· != w), drops := [],
    copies := r.copies.filter fun e => e.1 / 65536 * 65536 != w }) (spoolFree 1 8 ownBlock w 1
      (b.mem.reel.drops.foldl (fun b d => passDrop d.1 d.2 b) b))
  pumpAll evs (refix w (flushLoose evs (trim evs (partOf w b) (held.foldl (fun b _ => sampleTime 0x15 0 b) b))))

/-- REEL_WINDOW_RELEASE: the drained window is rewritten, the mark advances and held requests go on (R161, R196). -/
def doWindowRelease (evs : MemEvs) (b : Block) : Block := match b.mem.reel.taken with
  | none => b
  | some w => if !windowDrained w b then b else releaseWindow evs w (rewriteWindow evs w (writeBackWindow evs w b))

/-- Install the oldest deferred rotation of a key and queue its pass (R159). -/
def undefer (k : Nat) (b : Block) : Block :=
  let isK (q : RQueue) : Bool := q.deferred && (match q.change with | .rotate j _ => j == k | _ => false)
  match b.mem.reel.queue.find? isK with
  | none => b
  | some q =>
    let b := installGen k q.mat b
    let upd (x : RQueue) : RQueue := if x = q then { x with deferred := false, mat := none } else x
    setMem (fun m => { m with reel := { m.reel with queue := m.reel.queue.map upd } }) b

/-- What a completed change leaves: the old generation is erased, or the zone's twist key is the new one (R158, R161). -/
def settleChange (b : Block) : RChange → Block
  | .rotate k _ => modKey k (fun e => { e with prev := none }) b
  | .retwist z _ _ => match amGet z b.mem.reel.newTk with
    | some t => setMem (fun m => { m with tk := amSet z t m.tk }) b
    | none => b

/-- The next rotation of a key that the pass rotated is no longer deferred (R159). -/
def undeferChange (b : Block) : RChange → Block
  | .rotate k _ => undefer k b
  | .retwist _ _ _ => b

/-- The pass is over: its changes are whole and their descriptors complete with OK (R157 to R159). -/
def endPass (pass : List RChange) (b : Block) : Block :=
  let b := setMem (fun m => { m with reel := { m.reel with pass := [], mark := 0, newTk := [], ahead := [], copies := [], passes := m.reel.passes + 1 } })
    (pass.foldl settleChange b)
  pass.foldl (fun b c => changeDone cOK c b) (pass.foldl undeferChange b)

/-- REEL_PASS_END: old generations and twist keys are erased and the descriptors complete (R157 to R159). -/
def doPassEnd (b : Block) : Block :=
  if b.mem.reel.pass.isEmpty || b.mem.reel.taken.isSome || (nextWindow b).isSome then b else endPass b.mem.reel.pass b

/-- The Reel's 64 places are taken (R157). -/
def reelFull (b : Block) : Bool := decide (64 ≤ b.mem.reel.queue.length)

/-! ### Zeroing and re-initialisation -/

/-- The hank's lines leave the absorber. -/
def absDropHank (h : Nat) (b : Block) : Block :=
  setMem (fun m => { m with abs := m.abs.filter fun e => e.line / hankBytes != h, extents := m.extents.filter fun e => !e.owner.spillOf h }) b

/-- A hank becomes FREE with its step kept; class E gives back its epoch MAC block and its bitmap words (R107, R149). -/
def freeHank (h : Nat) (b : Block) : Block :=
  let x := getHank h b
  let b := setMem (fun m => { m with
    eblocks := match x.eblock with | some k => m.eblocks.erase k | none => m.eblocks,
    words := if x.cls = .E then m.words.filter fun e => e.1 / 128 != h else m.words }) b
  freeKeys (setHank h { step := x.step } (absDropHank h b))

/-- Initialise a page that is not fresh for reuse: every minor 0, the major advanced (R97). -/
def zeroPage (evs : MemEvs) (p : Nat) (b : Block) : Block :=
  match ensure 5 evs 1 (p / 64) b with
  | (st, b) =>
    let changed := ((amGet (bobKey 0 p) b.mem.bob).map (·.dirty)).getD false
    if st != cOK || nodeCtr 0 p b = (0, 0) && !changed then b
    else match ensure 5 evs 0 p b with
      | (st, b) =>
        if st != cOK then b
        else
          let b := if nodeMajor (bobLine 0 p b) = 0xFFFFFFFFFFFFFFFF then stepHank evs (p / 512) b else b
          putNode 0 p (setMajor 0 (nodeMajor (bobLine 0 p b) + 1)) b

/-- The hank that entered ZEROING first. -/
def firstZeroing (b : Block) : Option (Nat × Hank) := argMin (fun e => e.2.order) (b.mem.hanks.filter fun e => e.2.st == .zeroing)

/-- A step that a pass had begun in a hank ends with its zeroing: its counter blocks have changed, and its L1 nodes are new content. -/
def zeroStep (h : Nat) (b : Block) : Block :=
  if (amGet h b.mem.reel.steps).isNone then b
  else endStep h (((List.range 8).map (8 * h + ·)).foldl (fun b i => if bobHas 1 i b && nodeCtr 1 i b != (0, 0) then putNode 1 i (bobLine 1 i b) b else b) b)

/-- A hank's content is zeroed: its absorber lines go, and each class S page is initialised for reuse (R88, R97). -/
def zeroHank (evs : MemEvs) (h : Nat) (cls : MemClass) (b : Block) : Block :=
  let b := absDropHank h b
  let b := if cls = .S then zeroStep h ((List.range 512).foldl (fun b i => zeroPage evs (512 * h + i) b) b) else b
  flushLoose evs (flushMeta evs (fun k _ => hankMeta h k) b)

/-- The hanks that a quarantined range lies in or that lie in it. -/
def quarHanks (q : Quar) : List Nat := hanksOf q.base q.size

/-- Rewrite a node as 64 zero bytes under an advanced parent counter (R104). -/
def zeroNode (evs : MemEvs) (level idx : Nat) (b : Block) : Block :=
  match ensure 5 evs (level + 1) (idx / 64) b with
  | (st, b) =>
    if st != cOK then b
    else if level = 4 then putNode 4 idx 0 b
    else bobDel level idx (writeBack evs level idx (bobPut none level idx 0 true b))

/-- The re-initialisation work of a hank's ranges: the hanks and the nodes rewritten (R104). -/
def reinitWork (h : Nat) (b : Block) : List Nat × List (Nat × Nat) :=
  let qs := b.mem.quar.filter fun q => (quarHanks q).contains h
  let hs := (h :: qs.flatMap quarHanks).eraseDups
  let upper := qs.filter fun q => 2 ≤ q.level && q.level ≤ 4
  let nodes := (upper.flatMap fun q => (List.range (q.size / covers q.level)).map fun i => (q.level, q.base / covers q.level + i)).filter
    fun n => (nodePlace n.1 n.2 0 b).isSome
  if nodes = [] then (hs, (List.range 8).map fun i => (1, 8 * h + i)) else (hs, nodes)

/-- When a hank's ranges became re-initialisable: when the last of their hanks was released (R104, R525). -/
def reinitOrder (h : Nat) (b : Block) : Nat := (reinitWork h b).1.foldl (fun m i => max m (getHank i b).order) 0

/-- The released hank whose quarantined ranges became re-initialisable first: none of their hanks is in use (R104). -/
def firstReinit (b : Block) : Option (Nat × Hank) :=
  let free (h : Nat) : Bool := match (getHank h b).st with | .allocated | .revoked | .zeroing => false | _ => true
  argMin (fun e => reinitOrder e.1 b) (b.mem.hanks.filter fun e => e.2.st == .quarHeld && (reinitWork e.1 b).1.all free)

/-- The Reel's zeroing and re-initialisation may go on: between windows, and while tier 6 is not cut (R525). -/
def reelWorks (b : Block) : Bool := b.mem.reel.taken.isNone && !reelCut b

/-- HANK_ZEROING: the Reel zeroes the hank that entered ZEROING first, unless a re-initialisation is ahead of it (R97, R525). -/
def doHankZeroing (evs : MemEvs) (b : Block) : Block :=
  if !reelWorks b then b
  else match firstZeroing b with
    | none => b
    | some (h, x) =>
      if (firstReinit b).any fun r => decide (reinitOrder r.1 b < x.order) then b
      else
        let b := zeroHank evs h x.cls b
        if (getHank h b).st = .retired then b
        else if hankQuarantined h b then setHank h { getHank h b with st := .quarHeld } b
        else retryCells (freeHank h b)

/-- Advance the step of a hank that is re-initialised, past one that a pass had begun; a step past 15 takes it out of service (R96, R104). -/
def reinitStep (b : Block) (h : Nat) : Block :=
  let x := getHank h b
  let s := x.step + 1 + b2n (amGet h b.mem.reel.steps).isSome
  let b := setReel (fun r => { r with steps := amDel h r.steps }) b
  if x.st = .retired then b
  else if 15 < s then raiseViews { cls := 3, object := h * hankBytes } (setHank h { x with st := .retired } b)
  else setHank h { x with step := s, reinit := false } b

/-- Re-initialise hanks with the quarantined ranges that lie there: their steps advance, the nodes are rewritten, and they become FREE
(R104). -/
def reinit (evs : MemEvs) (hs : List Nat) (nodes : List (Nat × Nat)) (b : Block) : Block :=
  let b := hs.foldl (fun b h => setMem (fun m => { m with bob := m.bob.filter fun e => !hankMeta h e.1 }) (absDropHank h b)) b
  let b := setMem (fun m => { m with quar := m.quar.filter fun q => !(quarHanks q).any hs.contains }) b
  let b := nodes.foldl (fun b n => zeroNode evs n.1 n.2 b) (hs.foldl reinitStep b)
  flushLoose evs (hs.foldl (fun b h => if (getHank h b).st = .retired then b else freeHank h b) b)

/-- QUARANTINE_REINIT: the hank whose ranges became re-initialisable first is re-initialised with them, unless a zeroing is ahead of it
(R104, R525). -/
def doQuarReinit (evs : MemEvs) (b : Block) : Block :=
  if !reelWorks b then b
  else match firstReinit b with
    | none => b
    | some (h, _) =>
      if (firstZeroing b).any fun z => decide (z.2.order < reinitOrder h b) then b
      else retryCells (reinit evs (reinitWork h b).1 (reinitWork h b).2 b)

/-! ### The sweepers -/

/-- A word pair after the sweep at a region's epoch: a word tagged with neither the current nor the previous epoch is cleared and
re-tagged; the tag given is that of the epoch before the previous (R115). -/
def sweepPair (epoch : BitVec 64) (p : WordPair) : WordPair :=
  let live (t : BitVec 16) : Bool := t == epochTag epoch || t == epochTag (epoch - 1)
  let old := epochTag (epoch - 2)
  let p := if live p.tag0 then p else { p with tag0 := old, bits0 := 0, bad0 := false }
  if live p.tag1 then p else { p with tag1 := old, bits1 := 0, bad1 := false }

/-- The region of a bitmap word's hank. -/
def wordRegion (place : Nat) (b : Block) : Option Region :=
  (getKey (getHank (place / 128) b).keyId b).bind fun k => amGet k.region b.mem.regions

/-- BITMAP_SWEEP: every empty word is cleared and re-tagged (R115). -/
def doBitmapSweep (b : Block) : Block :=
  let fix (e : Nat × WordPair) : Nat × WordPair := match wordRegion e.1 b with
    | none => e
    | some r => (e.1, sweepPair r.epoch e.2)
  setMem (fun m => { m with words := (m.words.map fix).filter fun e => decide (e.2 ≠ {}) }) b

/-- Occupancy of a lane over an interval, 0 to 255. -/
def laneOcc (occ : List (BitVec 8)) (lane : Nat) : Nat := (occ.getD lane 0).toNat

/-- An interval's occupancy of a lane is counted in its bin (R167, R455). -/
def binLane (occ : List (BitVec 8)) (b : Block) (l : Nat) : Block :=
  let off := 4096 + 32 * l + 4 * (laneOcc occ l / 32)
  { b with glob := amPut 0 off (satAdd 32 (amGetD 0 off b.glob) 1) b.glob }

/-- An interval is skewed for a zone: its fullest lane is at HOT or above, and at RATIO times the mean or above (R167). -/
def zoneSkewed (occ : List (BitVec 8)) (m : ZoneMap) (b : Block) : Bool :=
  let best := laneOcc occ ((argMax (laneOcc occ) m.lanes).getD 0)
  decide (bitField b.regs.skewNow 7 0 ≤ best) &&
    decide (bitField b.regs.skewNow 11 8 * sumNat (m.lanes.map (laneOcc occ)) ≤ best * m.lanes.length)

/-- A zone's skew count after an interval, and the skew record where it reaches COUNT (R167). -/
def skewZone (occ : List (BitVec 8)) (b : Block) (m : ZoneMap) : Block :=
  let best := (argMax (laneOcc occ) m.lanes).getD 0
  let c := amGetD 0 m.zone b.mem.skew
  let c := if zoneSkewed occ m b then c + 1 else c - 1
  if bitField b.regs.skewNow 31 16 ≤ c then
    let b := setMem (fun x => { x with skew := amPut 0 m.zone 0 x.skew }) b
    postRecord .mgr
      { opcode := 0, status := 0, ringIndex := 0, kind := 4,
        result := resAt 12 1 m.zone ||| resAt 13 1 (best / 16) ||| resAt 14 1 (best % 16) ||| resAt 15 1 (laneOcc occ best) |||
          resAt 16 1 (sumNat (m.lanes.map (laneOcc occ)) / max m.lanes.length 1) } b
  else setMem (fun x => { x with skew := amPut 0 m.zone c x.skew }) b

/-- SKEW_INTERVAL: after 1,000 ticks the lanes' occupancies are binned and the tenant zones' skew counts move; a TWS_SKEW written meanwhile
applies to the interval that begins then (R167, R523). -/
def doSkewInterval (occ : List (BitVec 8)) (b : Block) : Block :=
  if b.tick < b.mem.skewSince + 1000 then b else
  let b := setMem (fun m => { m with skewSince := b.tick }) b
  let b := (List.range (16 * b.row.stackCount)).foldl (binLane occ) b
  let b := (b.mem.lay.zones.filter fun m => !m.dedicated).foldl (skewZone occ) b
  setRegs (fun r => { r with skewNow := r.twsSkew }) b

/-! ### RETWIST -/

def retwistChecks (d : Line) (b : Block) : Checks :=
  let z := b.mem.lay.zones.find? fun m => m.zone == fieldAt d 16 1
  { c4 := bodyReserved d [(16, 1), (18, 2)] || decide (1000 < fieldAt d 18 2) || z.isNone,
    c6 := (z.map (·.dedicated)).getD false && (slotClassSkein b).isSome }

/-- RETWIST queues its pass (R156, R157); a zone it names is retwisted unless it is dedicated while the slot class is in
service (R120). -/
def startRetwist (x : Desc) (b : Block) : Block :=
  let rate := if fieldAt x.raw 18 2 = 0 then b.row.reelCeiling else fieldAt x.raw 18 2
  let q : RQueue := { change := .retwist (fieldAt x.raw 16 1) rate (some x.id), deferred := false, mat := none }
  setPhase x.id .effected (setMem (fun m => { m with reel := { m.reel with queue := m.reel.queue ++ [q] } }) b)

/-- A RETWIST that finds the queue full waits on its ring (R157). -/
def doRetwist (r : Ring) (d : Line) (b : Block) : Block :=
  if reelFull b then b
  else fetch r d 0x50 (.retwist r d) (retwistChecks d) (fun _ => []) startRetwist b

def execReelPassStart (s : State) : Out := onSettled doPassStart s
def execReelPassEnd (s : State) : Out := onSettled doPassEnd s
def execHankZeroing (evs : MemEvs) (s : State) : Out := onSettled (doHankZeroing evs) s
def execQuarantineReinit (evs : MemEvs) (s : State) : Out := onSettled (doQuarReinit evs) s
def execBitmapSweep (s : State) : Out := onSettled doBitmapSweep s
def execSkewInterval (occ : List (BitVec 8)) (s : State) : Out := onSettled (doSkewInterval occ) s
def execRetwist (r : Ring) (d : Line) (s : State) : Out := onSettled (doRetwist r d) s

end Sys2Proof.Machine
end

