-- ==== Sys2Proof/Machine/Frames.lean ====
section
/-! DEFINITION. Weft and federation frames, sessions and their keys (R208 to R220, R226, R233, R234). Choices marked in the log:
DEDUCED 97, 123, 141; DESIGN CHOICE 12, 13, 49, 128. -/

namespace Sys2Proof.Machine

def setFab (f : Fabric → Fabric) (b : Block) : Block := { b with fab := f b.fab }
def getSess (i : Nat) (b : Block) : Option Session := amGet i b.fab.sessions
def modSess (i : Nat) (f : Session → Session) (b : Block) : Block := setFab (fun x => { x with sessions := amMod i f x.sessions }) b
def putSess (i : Nat) (s : Session) (b : Block) : Block := setFab (fun x => { x with sessions := amSet i s x.sessions }) b
def dropSess (i : Nat) (b : Block) : Block := setFab (fun x => { x with sessions := amDel i x.sessions }) b
/-- Why a frame is dropped (R211, R214). -/
inductive Drop where
  | form | tag | stale | replay | unmatched
deriving DecidableEq, Repr

/-- A frame dropped and counted (R211, R214). -/
def dropFrame (why : Drop) (b : Block) : Block := setFab (fun x => match why with
  | .form => { x with dropped := x.dropped + 1 }
  | .tag => { x with badTags := x.badTags + 1 }
  | .stale => { x with stales := x.stales + 1 }
  | .replay => { x with replays := x.replays + 1 }
  | .unmatched => { x with unmatched := x.unmatched + 1 }) b

/-- Whether a port number is a federation port's (28, 29). -/
def isFedPort (p : Nat) : Bool := p == 28 || p == 29

/-- A skein that is being destroyed or reset: Frexis opens and closes nothing toward its peers and sends no request that has not gone out
(R227). -/
def silent (n : Nat) (b : Block) : Bool := match getSkein n b with
  | some s => s.st == .destroying || s.st == .resetting
  | none => true

/-- REQ_TICKS and the session-loss interval as they now stand: what a timeout is armed with (R223, R523). -/
def reqTicks (b : Block) : Nat := bitField b.regs.wftTimeout 15 0
def lossTicks (b : Block) : Nat := bitField b.regs.wftTimeout 23 16 * reqTicks b

/-! ### Frames -/

/-- The header of R210. -/
structure Header where
  kind : Nat
  /-- KIND bits [7:6]: destination die on federation. -/
  die : Nat := 0
  flits : Nat
  rgen : Nat := 0
  ns : Bool := false
  session : Nat := 0
  param : Nat := 0
  addr : BitVec 64 := 0
  nonce : Nat := 0
  extra : Nat := 0

def Header.bytes (h : Header) : Bytes :=
  leBytes 1 (h.kind % 64 + 64 * (h.die % 4)) ++ leBytes 1 (h.flits % 16 + 16 * (h.rgen % 4) + 64 * b2n h.ns) ++ leBytes 2 h.session ++
    leBytes 4 h.param ++ toBytes 8 h.addr ++ leBytes 8 h.nonce ++ leBytes 8 h.extra

/-- Read a header; none where a bit that is always zero is set (R210). -/
def parseHeader (f : Bytes) : Option Header :=
  let k := leField f 0 1
  let x := leField f 1 1
  if 128 ≤ x || 8 < x % 16 || f.length != 48 + 32 * (x % 16) then none
  else some { kind := k % 64, die := k / 64, flits := x % 16, rgen := x / 16 % 4, ns := x / 64 % 2 == 1, session := leField f 2 2,
              param := leField f 4 4, addr := BitVec.ofNat 64 (leField f 8 8), nonce := leField f 16 8, extra := leField f 24 8 }

/-- The AES block of R212. -/
def frameBlk (n : Nat) (ns : Bool) (origin kind i : Nat) : Block128 :=
  BitVec.ofNat 128 ((n % 2 ^ 64) <<< 64 + (b2n ns) <<< 63 + (origin % 32768) <<< 48 + kind <<< 40 + i)

/-- Encipher or decipher a payload (R212). -/
def frameCrypt (k : Key) (h : Header) (origin : Nat) (p : Bytes) : Bytes :=
  let ks := (List.range ((p.length + 15) / 16)).flatMap fun i => toBytes 16 (aes256 k (frameBlk h.nonce h.ns origin h.kind i))
  xorBytes p ks

/-- The tag over header and ciphertext (R212). -/
def frameTag (k : Key) (h : Header) (origin : Nat) (hdr ct : Bytes) : Block128 :=
  let key := aes256 k (frameBlk 0 false 0 0 31)
  let all := hdr ++ ct
  let t := (List.range (all.length / 16)).foldl (fun t i => gmul (t ^^^ ofBytes 128 (sliceBytes all (16 * i) 16)) key) (0 : Block128)
  gmul (t ^^^ BitVec.ofNat 128 (32 * h.flits)) key ^^^ aes256 k (frameBlk h.nonce h.ns origin h.kind 16)

/-- A whole frame: header, ciphertext, trailer (R210, R212). -/
def sealFrame (k : Key) (h : Header) (origin : Nat) (p : Bytes) : Bytes :=
  let ct := frameCrypt k h origin p
  h.bytes ++ ct ++ toBytes 16 (frameTag k h origin h.bytes ct)

/-- Payload of a frame whose tag verifies under a key (R214). -/
def openFrame (k : Key) (h : Header) (origin : Nat) (f : Bytes) : Option Bytes :=
  let ct := sliceBytes f 32 (32 * h.flits)
  if toBytes 16 (frameTag k h origin (f.take 32) ct) = f.drop (32 + 32 * h.flits) then some (frameCrypt k h origin ct) else none

/-- Fill a payload to whole flits. -/
def padFlits (p : Bytes) : Bytes := p ++ zeroBytes ((32 - p.length % 32) % 32)

/-! ### Keys of a direction -/

/-- The ratchet (R219). -/
def ratchet (k : Key) : Key := kdf (keyBytes k) "frexis ratchet" []

/-- The sender's key for its next frame number; the key ratchets at each multiple of 2^32 (R218, R219). -/
def DirKey.next (d : DirKey) : DirKey :=
  if d.num % 2 ^ 32 = 0 && d.num != 0 && d.num / 2 ^ 32 != d.gen then
    { d with prev := some d.key, key := ratchet d.key, gen := d.gen + 1 }
  else d

/-- The receiver's key for a frame's RGEN: current, previous, or the next at a frame number that reaches it (R219). -/
def DirKey.pick (d : DirKey) (h : Header) : Option Key :=
  if h.rgen = d.gen % 4 then some d.key
  else if h.rgen = (d.gen + 3) % 4 && d.prev.isSome then d.prev
  else if h.rgen = (d.gen + 1) % 4 && (h.ns || h.nonce / 2 ^ 32 == d.gen + 1) then some (ratchet d.key)
  else none

/-- A windowed frame number is a replay (R214, R218). -/
def DirKey.replay (d : DirKey) (n : Nat) : Bool := decide (n + 1024 ≤ d.num) || d.marks.contains n || n == 0

/-- Accept a verified frame: its key's generation, and its number where it is windowed; the previous key goes once a frame under the
current one has come and the window holds no frame before it (R218, R219). -/
def DirKey.accept (d : DirKey) (h : Header) (windowed : Bool) : DirKey :=
  let d := if h.rgen = (d.gen + 1) % 4 && h.rgen != (d.gen + 3) % 4 then { d with prev := some d.key, key := ratchet d.key, gen := d.gen + 1 } else d
  let d := if windowed then
      let top := max d.num h.nonce
      { d with num := top, marks := (h.nonce :: d.marks).filter fun n => decide (top < n + 1024) }
    else d
  if h.rgen = d.gen % 4 && d.marks.all (fun n => decide (d.gen * 2 ^ 32 ≤ n)) then { d with prev := none } else d

/-! ### Sending -/

/-- The weft ports reported up. -/
def upPorts (b : Block) : List Nat := (List.range b.row.weftPorts).filter fun p => b.fab.up.contains p

/-- Send a frame of a session on a port that the hash picks among those up (R209, R226). -/
def emitWeft (si nonce : Nat) (f : Bytes) (payload : Nat) (skein : Nat) (b : Block) : Block := match upPorts b with
  | [] => b
  | p :: ps =>
    let port := (p :: ps).getD (Config.pathHash si nonce % (ps.length + 1)) p
    let b := bumpGlob (400 + 8 * port) payload (bumpSk skein 56 payload b)
    emit (.frame port f) (submitLink false (ledgerLink port si nonce) (unitSlot (some skein) b) 5 (2 * (payload / 32) + 1) b)

/-- Send one frame on a live session; the frame number it took, or the SEQ given (R212, R218). -/
def sendOn (si : Nat) (kind : Nat) (seq : Option Nat) (param : Nat) (addr : BitVec 64) (extra : Nat) (payload : Bytes) (b : Block) :
    Nat × Block :=
  match getSess si b with
  | none => (0, b)
  | some s =>
    let p := padFlits payload
    let tx := if seq.isNone then s.tx.next else s.tx
    let n := seq.getD tx.num
    let h : Header :=
      { kind := kind, flits := p.length / 32, rgen := tx.gen % 4, ns := seq.isSome, session := if s.kind = 2 then si else s.peer.index,
        param := param, addr := addr, nonce := n, extra := extra }
    let b := modSess si (fun s => { s with tx := if seq.isNone then { tx with num := tx.num + 1 } else tx, lastFrame := b.tick }) b
    (n, emitWeft si n (sealFrame tx.key h 0 p) p.length s.skein b)

/-- Own identity of a skein on this instance for an OPEN (R217). -/
def selfMember (sk : Skein) (b : Block) : Option (Nat × Member) := sk.members.find? fun m => m.2.device == b.regs.deviceId

/-- The secret of a session kind: W, or C for combine sessions (R215). -/
def secretOf (kind : Nat) (sk : Skein) : Option Secret := if kind = 1 then sk.combine else sk.weft

/-- The payload bytes of an OPEN or ACCEPT. -/
def openFBytes (o : OpenF) : Bytes :=
  Config.openBytes [o.kind, o.gen, o.index, o.member, o.pod, o.endpoint, o.channel, o.bind, o.device.toNat, o.rand.toNat]

/-- The key of a direction: 0 from opener to receiver (R217, R299). -/
def sessKey (secret : Key) (o a : OpenF) (dir : Nat) : Key :=
  kdf (keyBytes secret) "frexis weft" (leBytes 1 o.kind ++ openFBytes o ++ openFBytes a ++ leBytes 1 dir)

/-- Entries of the session table that pair and combine sessions, or groups, may take and that are free. -/
def freeSess (group : Bool) (b : Block) : List Nat :=
  (if group then (List.range 128).map (· + 3968) else List.range 3968).filter fun i => (getSess i b).isNone

/-- Something is outstanding on a session: requests, half-open state, replies waiting. -/
def sessBusy (i : Nat) (s : Session) (b : Block) : Bool :=
  s.st != .live || (b.fab.out.any fun r => r.session == some i) || (b.fab.inbound.any fun r => r.session == some i) || !s.queue.isEmpty

/-- A free entry, reclaiming the least recently used with nothing outstanding, with CLOSE (R220). -/
def takeSess (b : Block) : Option Nat × Block := match freeSess false b with
  | f :: fs =>
    let (c, b) := choose (fs.length + 1) b
    (some ((f :: fs).getD c f), b)
  | [] =>
    match argMin (fun e => e.2.lastFrame) (b.fab.sessions.filter fun e => decide (e.1 < 3968) && !sessBusy e.1 e.2 b) with
    | none => (none, b)
    | some (i, s) => (some i, dropSess i (if silent s.skein b then b else (sendOn i 0x22 none 0 0 0 [] b).2))

/-- Entries of the session table that a skein holds: at most 1,024 (R215). -/
def heldSess (n : Nat) (b : Block) : Nat := (b.fab.sessions.filter fun e => e.2.skein == n).length

/-- A member's entry is read from the skein's class B extent, unless it is cached with a live session (R126, R216, R397): INTERNAL_ECC where the
extent is lost, INTEGRITY_FAIL where a line of it fails. -/
def readMember (evs : MemEvs) (n m : Nat) (b : Block) : BitVec 8 × Block :=
  if b.fab.sessions.any fun e => e.2.skein == n && e.2.st == .live && e.2.kind != 2 && e.2.peer.member == m then (cOK, b)
  else match findExtent (.members n) b, getSkein n b with
    | some e, some s =>
      if e.lost then (cEcc, b)
      else
        let at' := 24 * (s.members.findIdx fun x => x.1 == m)
        ((List.range e.lines).filter fun i => decide (at' / 64 ≤ i) && decide (i ≤ (at' + 23) / 64)).foldl (fun (a : BitVec 8 × Block) i =>
          if a.1 != cOK then a
          else match readLineB {} evs e.count (e.base + 64 * i) a.2 with
            | (.ok _, b) => (cOK, b)
            | (.error st, b) => (st, b)) (cOK, b)
    | _, _ => (cEcc, b)

/-- Own fields for an OPEN or ACCEPT. -/
def ownFields (kind index : Nat) (n : Nat) (b : Block) : Option (OpenF × Block) :=
  match getSkein n b with
  | none => none
  | some sk => match selfMember sk b, secretOf kind sk with
    | some (m, e), some sec =>
      let (r, b) := draw 64 b
      let ch := sk.slot.getD 0
      some ({ kind := kind, gen := sec.gen, index := index, member := m, pod := e.pod, endpoint := e.endpoint, channel := ch,
              bind := amGetD 1 ch b.fab.binds, device := b.regs.deviceId, rand := r }, b)
    | _, _ => none

/-- Open a session with a member (R217): the OPEN goes out in the clear with a zero trailer. -/
def openSess (kind n member : Nat) (b : Block) : Option Nat × Block :=
  if 1024 ≤ heldSess n b then (none, b)
  else match takeSess b with
    | (none, b) => (none, b)
    | (some i, b) => match ownFields kind i n b with
      | none => (none, b)
      | some (o, b) =>
        let dev := (((getSkein n b).bind fun k => amGet member k.members).map (·.device)).getD 0
        let blank : OpenF := { kind := kind, gen := 0, index := 0, member := member, pod := 0, endpoint := 0, channel := 0, bind := 0, device := dev, rand := 0 }
        let s : Session :=
          { st := .opening, kind := kind, skein := n, opener := true, peer := blank, self := o, since := b.tick,
            limit := reqTicks b, lastFrame := b.tick, lastRx := b.tick, loss := lossTicks b }
        let h : Header := { kind := 0x20, flits := 1 }
        (some i, emitWeft i 0 (h.bytes ++ openFBytes o ++ zeroBytes 16) 32 n (putSess i s b))

/-- A session with a member that is not closing under an old secret. -/
def findSess (kind n member : Nat) (b : Block) : Option (Nat × Session) :=
  b.fab.sessions.find? fun e => e.2.kind == kind && e.2.skein == n && e.2.peer.member == member && e.2.st != .half && e.2.closeBy.isNone

/-- The next frame number of a session would reach 2^44 (R220). -/
def spent (s : Session) : Bool := decide (2 ^ 44 ≤ s.tx.num + 1)

/-- A session's numbers are used up: its CLOSE goes out and its requests are carried to a new session (R220). -/
def rollSess (si : Nat) (b : Block) : Block := match getSess si b with
  | none => b
  | some s =>
    if !spent s then b
    else
      let b := dropSess si (sendOn si 0x22 none 0 0 0 [] b).2
      let (n, b) := openSess s.kind s.skein s.peer.member b
      setFab (fun x => { x with out := x.out.map fun r => if r.session = some si then { r with session := n } else r }) b

/-- Send a reply on a session, or keep it until the session is open and a port is up (R226, R232). A session whose numbers are used up
closes, which ends the request at its peer (R220). -/
def replyOn (si : Nat) (kind param ref : Nat) (payload : Bytes) (b : Block) : Block := match getSess si b with
  | none => b
  | some s =>
    if spent s then rollSess si b
    else if s.st = .opening || (upPorts b).isEmpty then modSess si (fun s => { s with queue := s.queue ++ [{ kind := kind, param := param, extra := ref, payload := payload }] }) b
    else (sendOn si kind none param 0 ref payload b).2

/-! ### Federation ports -/

def getFed (p : Nat) (b : Block) : Option FedPort := amGet p b.fab.fed
def modFed (p : Nat) (f : FedPort → FedPort) (b : Block) : Block := setFab (fun x => { x with fed := amMod p f x.fed }) b

/-- The federation port toward a die: adjacent, or through port 0 where it is not (R233). -/
def fedPortTo (die : Nat) (b : Block) : Option Nat :=
  match b.fab.fed.find? fun e => e.2.isOpen && e.2.die == die && b.fab.up.contains e.1 with
  | some e => some e.1
  | none => (b.fab.fed.find? fun e => e.2.isOpen && b.fab.up.contains e.1).map (·.1)

/-- Send one frame on a federation port (R234); the frame number it took or the SEQ given. -/
def sendFed (port die slot src : Nat) (kind : Nat) (seq : Option Nat) (param : Nat) (addr : BitVec 64) (extra : Nat) (payload : Bytes) (b : Block) :
    Nat × Block :=
  match getFed port b with
  | none => (0, b)
  | some f =>
    let p := padFlits payload
    let tx := if seq.isNone then f.tx.next else f.tx
    let n := seq.getD tx.num
    let h : Header :=
      { kind := kind, die := die, flits := p.length / 32, rgen := tx.gen % 4, ns := seq.isSome, session := slot + 64 * src, param := param,
        addr := addr, nonce := n, extra := extra }
    let b := modFed port (fun f => { f with tx := if seq.isNone then { tx with num := tx.num + 1 } else tx }) b
    let b := bumpGlob (848 + 8 * (port - 28)) p.length b
    let b := match slotSkein slot b with | some (k, _) => bumpSk k 56 p.length b | none => b
    (n, emit (.frame port (sealFrame tx.key h 0 p)) (submitLink false (ledgerLink port slot n) slot 5 (p.length / 16 + 1) b))

end Sys2Proof.Machine
end

