-- ==== Sys2Proof/Machine/Outbound.lean ====
section
/-! DEFINITION. Outbound requests of the weft and federation engines: their sending, answers, timeouts and resolution, and the
closing of sessions (R199, R203, R204, R207, R216, R220, R223 to R225, R231, R232, R237, R384). Choices marked in the log:
DEDUCED 92, 94, 96, 97, 98, 123, 140, 142; DESIGN CHOICE 19, 29. -/

namespace Sys2Proof.Machine

/-- When a session or port is lost: the loss interval after its last verified frame or its oldest request, whichever is later, as it
was armed then (R220, R223, R237, R523). -/
def lossDue (lastRx loss : Nat) (r : OutReq) : Nat := if lastRx ≤ r.since then r.since + r.loss else lastRx + loss

def findOut (id : Nat) (b : Block) : Option OutReq := b.fab.out.find? fun r => r.id == id
def setOut (id : Nat) (f : OutReq → OutReq) (b : Block) : Block :=
  setFab (fun x => { x with out := x.out.map fun r => if r.id = id then f r else r }) b
def dropOut (id : Nat) (b : Block) : Block := setFab (fun x => { x with out := x.out.filter fun r => r.id != id }) b

/-- Allocate the model's number of a request. -/
def newOutId (b : Block) : Nat × Block := (b.fab.nextId, setFab (fun x => { x with nextId := x.nextId + 1 }) b)

/-! ### Answers -/

/-- A RESOLUTION record (R224, R374): PEER is the member index, or 0x8000 + the die index. -/
def resolution (r : OutReq) (st : BitVec 8) (value : Nat) (b : Block) : Block :=
  postRecord (.skein r.skein)
    { opcode := 0, status := st, ringIndex := BitVec.ofNat 16 (match r.die with | some d => 0x8000 + d | none => r.peer), kind := 2,
      result := resAt 12 2 (r.fence.getD 0xFFFF) ||| resAt 14 1 r.kind ||| resAt 16 8 r.addr.toNat ||| resAt 24 8 value } b

/-- The RSP transfers of an answered request (R479): the lines of a read, an atomic's old value, or none. -/
def rspLines (port : Nat) (tag : BitVec 16) (st : BitVec 8) (xs : List Line) (b : Block) : Block :=
  if st != cOK || xs = [] then emit (.rsp port tag st true 0) b
  else (List.range xs.length).foldl (fun b i => emit (.rsp port tag cOK (i + 1 == xs.length) (xs.getD i 0)) b) b

/-- Report a request's outcome to the on-chip network and on its fence (R224, R384, R480). -/
def report (r : OutReq) (st : BitVec 8) (xs : List Line) (b : Block) : Block :=
  let b := match r.src with
    | some (p, tag) => if r.respond then rspLines p tag st xs b else b
    | none => b
  let b := if st = cTimeout then bumpSk r.skein 160 1 b else b
  fenceDone r.skein r.fence st b

/-- The GROUP record, and the group live, once every receiver has answered (R231, R374). -/
def groupSettle (gi : Nat) (b : Block) : Block := match getSess gi b with
  | none => b
  | some g =>
    if g.st = .opening && g.asked.isEmpty && !g.taken then
      postRecord (.skein g.skein)
        { opcode := 0, status := cOK, ringIndex := 0, kind := 6,
          result := resAt 12 2 gi ||| resAt 14 2 g.accepted.length ||| resAt 16 2 g.refused.length }
        (spoolFree 1 10 g.skein gi 0 (modSess gi (fun g => { g with st := .live }) b))
    else b

/-- One receiver has answered a multicast store (R207): the request ends when the last has. -/
def castAnswer (id member : Nat) (st : BitVec 8) (b : Block) : Block :=
  let b := setOut id (fun r => { r with
    waits := r.waits.filter fun m => m != member, status := if r.status = cOK then st else r.status }) b
  match findOut id b with
  | none => b
  | some r =>
    if !r.waits.isEmpty then b
    else
      let b := dropOut id b
      if r.timedOut then resolution r (if r.status = cOK then cOkLate else r.status) 0 b else progress r.skein (report r r.status [] b)

/-- A request ends with a status, the lines of a read, or an atomic's value (R204, R224). -/
def endReq (r : OutReq) (st : BitVec 8) (xs : List Line) (value : Option Nat) (b : Block) : Block :=
  let b := dropOut r.id b
  match r.parent with
  | some p =>
    if r.kind = 0x23 then
      let ok := st = cOK
      groupSettle p (modSess p (fun g => { g with
        asked := g.asked.filter fun m => m != r.peer,
        accepted := if ok then g.accepted ++ [r.peer] else g.accepted,
        refused := if ok then g.refused else g.refused ++ [r.peer],
        taken := g.taken || st == cQuota }) b)
    else castAnswer p r.peer st b
  | none =>
    if r.timedOut then
      let st' := if st != cOK then st else if r.fetch && value.isNone then cResultLost else cOkLate
      resolution r st' (value.getD 0) b
    else progress r.skein (report r st xs b)

/-! ### Closing -/

/-- Erase a session and fail what is outstanding on it with a status (R220). -/
def endSess (si : Nat) (st : BitVec 8) (b : Block) : Block := match getSess si b with
  | none => b
  | some s =>
    let b := spoolFree 1 10 s.skein si st.toNat (dropSess si b)
    let b := (b.fab.out.filter fun r => r.session == some si).foldl (fun b r => endReq r st [] none b) b
    if s.kind = 0 then
      (b.fab.out.filter fun r => r.kind == 4 && r.skein == s.skein && r.waits.contains s.peer.member).foldl
        (fun b r => castAnswer r.id s.peer.member st b) b
    else b

/-- Close a session, with CLOSE unless its skein is being destroyed or reset (R220, R227). -/
def closeSess (si : Nat) (b : Block) : Block := match getSess si b with
  | none => b
  | some s => endSess si cKeyRetired (if s.st = .live && s.kind != 2 && !silent s.skein b then (sendOn si 0x22 none 0 0 0 [] b).2 else b)

/-! ### Sending -/

/-- The channel and destination that a sequenced operation counts in (R199). -/
def seqKey (r : OutReq) : Nat := r.slot * 2 ^ 17 + (match r.die with | some d => 65536 + d | none => r.peer)

/-- A sequenced operation may be sent: at most 64 unacknowledged, 4 of them fetches, and none of its channel waits before it. -/
def seqRoom (r : OutReq) (b : Block) : Bool :=
  let same := b.fab.out.filter fun x => x.seqd && seqKey x == seqKey r && x.nonce.isSome
  !(b.fab.out.any fun x => x.seqd && seqKey x == seqKey r && x.nonce.isNone && decide (x.id < r.id)) &&
    decide (same.length < 64) && (!r.fetch || decide ((same.filter (·.fetch)).length < 4))

/-- Take the next SEQ of a sequenced operation (R199). -/
def takeSeq (r : OutReq) (b : Block) : Option Nat × Block :=
  if r.seqd then
    let n := amGetD 1 (seqKey r) b.fab.seqs
    (some n, setFab (fun x => { x with seqs := amSet (seqKey r) (n + 1) x.seqs }) b)
  else (none, b)

/-- A lower SEQ of the channel and destination is unresolved (R204). -/
def lowerOpen (r : OutReq) (b : Block) : Bool :=
  b.fab.out.any fun x => x.seqd && seqKey x == seqKey r && (match x.nonce, r.nonce with | some a, some c => decide (a < c) | _, _ => false)

/-- A frame of a request has gone out; one that a lower SEQ precedes may be answered as too early (R201). -/
def noteSent (id : Nat) (f : OutReq → OutReq) (b : Block) : Block :=
  setOut id (fun r => let r := f r; { r with lastSent := b.tick, resume := false, stray := r.stray + b2n (r.seqd && lowerOpen r b) }) b

/-- Present a request's frame, with the SEQ given or the next frame number. -/
def putFrame (r : OutReq) (kind : Nat) (seq : Option Nat) (payload : Bytes) (b : Block) : Nat × Block :=
  let param := if kind = 7 then 0 else r.param
  let extra := if kind = 7 then 0 else r.extra
  let addr := r.addr
  let b := bumpBucket r.skein r.layer r.operator 32 payload.length
    (bumpBucket r.skein r.layer r.operator 24 (2 * ((payload.length + 31) / 32) + 1) b)
  match r.die with
  | some d => match fedPortTo d b with
    | some p => sendFed p d r.slot b.regs.dieIndex kind seq param addr extra payload b
    | none => (0, b)
  | none => sendOn (r.session.getD 4096) kind seq param addr extra payload b

/-- The session kind that a request goes on (R215, R228). -/
def kindOf (r : OutReq) : Nat := if r.kind = 3 && !r.seqd then 1 else 0

/-- Members of the skein in its own pod but itself, that a group reaches (R231). -/
def groupTo (sk : Skein) (b : Block) : List Nat := match selfMember sk b with
  | none => []
  | some (me, m) => ((sk.members.filter fun e => e.2.pod == m.pod && e.1 != me).map (·.1)).take 511

/-- Open a multicast group at an index (R231): a random is drawn and GROUP_OPEN goes to every receiver. A skein that holds 1,024 entries
waits (R215). -/
def openGroup (n gi : Nat) (b : Block) : Block := match getSkein n b with
  | none => b
  | some sk => if 1024 ≤ heldSess n b then b else match ownFields 2 gi n b with
    | none => b
    | some (o, b) =>
      let secret := ((sk.weft).map (·.key)).getD 0
      let key := kdf (keyBytes secret) "frexis group" (toBytes 16 b.regs.deviceId ++ leBytes 2 gi ++ toBytes 8 o.rand)
      let targets := groupTo sk b
      let g : Session :=
        { st := .opening, kind := 2, skein := n, opener := true, peer := o, self := o, tx := { key := key, num := 1 }, since := b.tick,
          limit := reqTicks b, lastFrame := b.tick, lastRx := b.tick, loss := lossTicks b, asked := targets }
      let b := putSess gi g b
      let b := targets.foldl (fun b m =>
        let (id, b) := newOutId b
        let r : OutReq :=
          { id := id, skein := n, slot := sk.slot.getD 0, die := none, peer := m, kind := 0x23, addr := 0, lines := 0, param := 0, extra := 0,
            payload := leBytes 2 gi ++ toBytes 8 o.rand, seqd := false, fetch := false, src := none, fence := none, respond := false,
            since := b.tick, limit := reqTicks b, loss := lossTicks b, parent := some gi }
        setFab (fun x => { x with out := x.out ++ [r] }) b) b
      groupSettle gi b

/-- Send a waiting multicast store on its group, opening the group where it is not open. -/
def sendCast (r : OutReq) (b : Block) : Block := match getSess r.peer b with
  | none => openGroup r.skein r.peer b
  | some g =>
    if g.skein != r.skein || !g.opener || g.kind != 2 then endReq r cNotPermitted [] none b
    else if g.closeBy.isSome || spent g then
      -- a group under an old secret, or whose numbers are used up, gives way to a new one
      if sessBusy r.peer g b then b else openGroup r.skein r.peer (dropSess r.peer b)
    else if g.st != .live || (upPorts b).isEmpty then b
    else
      let (n, b) := sendOn r.peer 4 none 0 r.addr 0 r.payload b
      let b := setOut r.id (fun r => { r with nonce := some n, session := some r.peer, waits := g.accepted, lastSent := b.tick }) b
      if g.accepted.isEmpty then castAnswer r.id 0 cOK b else b

/-- Try to send a request that waits. -/
def trySend (id : Nat) (b : Block) : Block := match findOut id b with
  | none => b
  | some r =>
    if r.nonce.isSome || silent r.skein b then b
    else if r.kind = 4 then sendCast r b
    else
      let put (r : OutReq) (b : Block) : Block :=
        if r.seqd && !seqRoom r b then b
        else
          let (q, b) := takeSeq r b
          let (n, b) := putFrame r r.kind q r.payload b
          noteSent r.id (fun x => { x with nonce := some (q.getD n) }) b
      match r.die with
      | some d => if (fedPortTo d b).isSome then put r b else b
      | none =>
        if (upPorts b).isEmpty then b
        else match findSess (kindOf r) r.skein r.peer b with
          | some (si, s) =>
            let b := setOut id (fun r => { r with session := some si }) b
            if s.st = .live then
              let b := rollSess si b
              match getSess si b with
              | some _ => put { r with session := some si } b
              | none => b
            else b
          | none =>
            let (si, b) := openSess (kindOf r) r.skein r.peer b
            setOut id (fun r => { r with session := si }) b

/-- A group whose index a receiver had taken closes, and the sender tries another (R231). -/
def retryGroup (b : Block) : Block :=
  match b.fab.sessions.find? fun e => e.2.kind == 2 && e.2.opener && e.2.taken && e.2.asked.isEmpty with
  | none => b
  | some (gi, g) =>
    let b := dropSess gi b
    let b := (b.fab.out.filter fun r => r.kind == 4 && r.peer == gi && r.skein == g.skein).foldl (fun b r => endReq r cQuota [] none b) b
    match (freeSess true b).filter fun i => i != gi with
    | [] => b
    | f :: fs =>
      let (c, b) := choose (fs.length + 1) b
      openGroup g.skein ((f :: fs).getD c f) b

/-- Send what can be sent, in order of issue; an opened group's own requests follow it. -/
def pumpOut (b : Block) : Block :=
  let go (b : Block) : Block := (b.fab.out.map (·.id)).foldl (fun b i => trySend i b) b
  go (retryGroup (go b))

/-- Send the replies that a session kept. -/
def flushReplies (si : Nat) (b : Block) : Block := match getSess si b with
  | none => b
  | some s =>
    if s.st = .opening || (upPorts b).isEmpty then b
    else s.queue.foldl (fun b f => (sendOn si f.kind none f.param 0 f.extra f.payload b).2) (modSess si (fun s => { s with queue := [] }) b)

/-! ### Requests of the on-chip network -/

/-- The member that a request's PEER names, with the die it is on when that is another instance of the package (R216, R478). -/
def peerOf (n : Nat) (q : WarpReq) (b : Block) : Option (Nat × Member × Option Nat) :=
  let m := bitField q.peer 13 0
  (getSkein n b).bind fun sk => (amGet m sk.members).map fun e =>
    (m, e, (b.fab.dies.find? fun d => d.2 == e.device && d.1 != b.regs.dieIndex).map (·.1))

/-- The frame kind of a command (R211) and the status that refuses a request before it leaves (R198, R221, R228). -/
def remoteBar (kind : TxnKind) (q : WarpReq) (w : PlyWord) (cast : Bool) : Option (BitVec 8) :=
  if cast then failIf (q.mask != fullMask) cInvalid
  else if kind = .ply then
    failIf (!plyValid w (reqAddr q) q.mask q.srtag || (!w.fetch && q.mask != fullMask)) cInvalid
  else none

/-- Issue a request to a peer (R199, R216, R221, R478, R480). -/
def doRemote (kind : TxnKind) (q : WarpReq) (evs : MemEvs) (b : Block) : Block :=
  let isWrite := decide (kind = .write)
  match slotSkein q.skeinTag.toNat b with
  | none => rspFail q isWrite cNotPermitted (raiseViews { cls := 4, noView := true, cause := cNotPermitted } (bumpRefused b))
  | some (n, sk) =>
    let cast := q.peer.getLsbD 15
    let w := plyWord q.plyop
    let cmd := match kind with | .read => 0 | .write => 1 | .ply => 2
    let gi := bitField q.peer 11 0
    let me := selfMember sk b
    let bad := refuseReq n cNotPermitted true isWrite b
    if reqMalformed q cmd then failReq q n isWrite cInvalid b
    else if sk.st = .destroying then failReq q n isWrite cKeyRetired (refuseReq n cKeyRetired false isWrite b)
    else if sk.st = .resetting then failReq q n isWrite cResetting (refuseReq n cResetting false isWrite b)
    else
      match remoteBar kind q w cast with
      | some st => failReq q n isWrite st b
      | none =>
        let go (peer : Nat) (die : Option Nat) (b : Block) : Block :=
          let (id, b) := newOutId b
          let seqd := kind = .ply && (w.fetch || w.op == 1 || w.op == 6 || w.op == 7 || w.op == 8)
          let b := if q.fenceV then modFence (some n) q.fence.toNat (fun x => { x with refs := x.refs + 1 }) b else b
          let r : OutReq :=
            { id := id, skein := n, slot := q.skeinTag.toNat, die := die, peer := peer,
              kind := if cast then 4 else match kind with | .read => 1 | .write => 2 | .ply => 3,
              addr := BitVec.ofNat 64 (reqKeyId q * 2 ^ 52 + reqAddr q), lines := if kind = .read then q.len.toNat + 1 else 0,
              param := match kind with | .read => q.len.toNat + 1 | .write => 0 | .ply => q.plyop.toNat,
              extra := match kind with | .read => 0 | .write => if cast then 0 else q.mask.toNat | .ply => q.srtag.toNat,
              payload := match kind with | .read => [] | .write => toBytes 64 q.data | .ply => toBytes (if w.fetch then 32 else 64) q.data,
              seqd := seqd, fetch := kind = .ply && w.fetch, src := some (q.port, q.tag),
              fence := if q.fenceV then some q.fence.toNat else none, respond := true, since := b.tick,
              limit := reqTicks b, loss := lossTicks b,
              layer := q.layer.toNat, operator := q.operator.toNat }
          let b := if kind = .ply then bumpBucket n r.layer r.operator 40 1 b else b
          pumpOut (setFab (fun x => { x with out := x.out ++ [r] }) b)
        if cast then
          if gi < 3968 || me.isNone || sk.weft.isNone then failReq q n isWrite cNotPermitted bad else go gi none b
        else match peerOf n q b with
          | none => failReq q n isWrite cNotPermitted bad
          | some (m, e, die) => match readMember evs n m b, die, me with
            | (st, b), some d, _ => if st = cOK then go m (some d) b else failReq q n isWrite st b
            | (_, _), none, none => failReq q n isWrite cNotPermitted bad
            | (st, b), none, some (_, self) =>
              if st != cOK then failReq q n isWrite st b else
              let sec := secretOf (if kind = .ply && !(w.fetch || w.op == 1 || w.op == 6) then 1 else 0) sk
              if e.pod != self.pod || sec.isNone then failReq q n isWrite cNotPermitted b
              else go m none b

/-! ### Timeouts and repeats -/

/-- Send a sequenced operation again, or its resolve frame once it has timed out, with its SEQ (R203, R204). -/
def resend (r : OutReq) (b : Block) : Block := match r.nonce with
  | none => b
  | some n =>
    let ok := match r.die with
      | some d => (fedPortTo d b).isSome
      | none => !(upPorts b).isEmpty && (match getSess (r.session.getD 4096) b with | some s => s.st == .live | none => false)
    if !ok then b
    else
      let (_, b) := putFrame r (if r.timedOut then 7 else 3) (some n) (if r.timedOut then [] else r.payload) b
      noteSent r.id id b

/-- A multicast store that timed out goes again to the receivers that have not answered, as WRITEs (R207, R232). -/
def recast (r : OutReq) (b : Block) : Block :=
  r.waits.foldl (fun b m =>
    let (id, b) := newOutId b
    let c : OutReq :=
      { r with id := id, peer := m, session := none, kind := 2, lines := 0, extra := fullMask.toNat, nonce := none, src := none, fence := none,
               respond := false, since := b.tick, limit := reqTicks b, loss := lossTicks b, timedOut := false, waits := [], parent := some r.id }
    setFab (fun x => { x with out := x.out ++ [c] }) b) b

/-- REQUEST_TIMEOUT: the timeout of a request wins against its reply (R204, R207, R224, R237). -/
def doRequestTimeout (id : Nat) (b : Block) : Block := match findOut id b with
  | none => b
  | some r =>
    if r.timedOut || b.tick < r.since + r.limit || r.src.isNone then b
    else
      let b := report r cTimeout [] b
      let b := setOut id (fun r => { r with timedOut := true }) b
      if r.nonce.isNone then
        endReq { r with timedOut := true } cAborted [] none b
      else if r.kind = 4 then pumpOut (recast { r with timedOut := true } b)
      else if r.seqd then resend { r with timedOut := true } b
      else b

/-- The requests of one channel and destination in SEQ order. -/
def seqPeers (r : OutReq) (p : OutReq → Bool) (b : Block) : List OutReq :=
  b.fab.out.filter fun x => x.seqd && x.nonce.isSome && seqKey x == seqKey r && p x

/-- PLY_RESEND: 100 ticks without a reply, or the link resumed (R203). -/
def doPlyResend (id : Nat) (b : Block) : Block := match findOut id b with
  | none => b
  | some r =>
    let due (x : OutReq) : Bool := !x.timedOut && (x.resume || decide (x.lastSent + 100 ≤ b.tick))
    if r.seqd && r.nonce.isSome && due r then (seqPeers r due b).foldl (fun b x => resend x b) b else b

/-- RESOLVE_RESEND: every 100 ticks for a timed-out sequenced operation (R204). -/
def doResolveResend (id : Nat) (b : Block) : Block := match findOut id b with
  | none => b
  | some r => if r.seqd && r.timedOut && decide (r.lastSent + 100 ≤ b.tick) then resend r b else b

/-- OPEN_TIMEOUT: no ACCEPT within the weft request timeout (R217). -/
def doOpenTimeout (si : Nat) (b : Block) : Block := match getSess si b with
  | none => b
  | some s =>
    if s.st != .opening || s.kind == 2 || b.tick < s.since + s.limit then b
    else endSess si cTimeout b

/-- Requests outstanding on a session. -/
def outOn (si : Nat) (b : Block) : List OutReq := b.fab.out.filter fun r => r.session == some si && r.nonce.isSome

/-- SESSION_LOSS: no verified frame for the loss interval with requests outstanding (R220, R223, R224). -/
def doSessionLoss (si : Nat) (b : Block) : Block := match getSess si b with
  | none => b
  | some s => match argMin (·.since) (outOn si b) with
    | none => b
    | some r => if s.st != .live || b.tick < lossDue s.lastRx s.loss r then b else endSess si cKeyRetired b

/-- SESSION_IDLE: no frame for 65,536 ticks (R220). -/
def doSessionIdle (si : Nat) (b : Block) : Block := match getSess si b with
  | none => b
  | some s => if s.st != .live || s.kind == 2 || sessBusy si s b || b.tick < s.lastFrame + 65536 then b else closeSess si b

/-- SECRET_CLOSE: an old session under a replaced secret (R220). -/
def doSecretClose (si : Nat) (b : Block) : Block := match getSess si b with
  | none => b
  | some s => match s.closeBy with
    | none => b
    | some t => if sessBusy si s b && decide (b.tick < t) then b else pumpOut (closeSess si b)

/-! ### Channels and secrets -/

/-- Resolve every sequenced operation of a slot's channel with a status (R202, R206). -/
def resolveChannel (slot : Nat) (st : BitVec 8) (b : Block) : Block :=
  (b.fab.out.filter fun r => r.seqd && r.slot == slot && r.nonce.isSome).foldl (fun b r =>
    if r.timedOut then endReq r st [] none b
    else endReq { r with timedOut := true } st [] none (report r st [] b)) b

/-- A skein's sessions of some kinds close when they fall idle or after 1,000 ticks (R220). -/
def retireSess (n : Nat) (who : Session → Bool) (b : Block) : Block :=
  setFab (fun x => { x with sessions := x.sessions.map fun e =>
    if (e.2.skein == n) && who e.2 && e.2.closeBy.isNone then (e.1, { e.2 with closeBy := some (b.tick + 1000) }) else e }) b

/-- Advance BIND of a slot and restart its sequences toward other packages at 1 (R202). Its pair sessions, whose OPEN carried the old BIND
(R217), close when they fall idle, and new requests open others. -/
def rebind (slot : Nat) (b : Block) : Block :=
  let b := match slotSkein slot b with
    | some (n, _) => retireSess n (fun s => s.kind == 0) b
    | none => b
  setFab (fun x => { x with
    binds := amSet slot ((amGetD 1 slot x.binds + 1) % 65536) x.binds,
    seqs := x.seqs.filter fun e => e.1 / 2 ^ 17 != slot }) b

/-- The leader gives a slot to a skein: the package's binding count of it advances (R234). -/
def advanceBind (slot : Nat) (b : Block) : Block :=
  if b.regs.leader then setFab (fun x => { x with pkgBinds := amSet slot ((amGetD 0 slot x.pkgBinds + 1) % 65536) x.pkgBinds }) b else b

/-- Drop a skein's sessions without a word to its peers; its requests end without an answer (R220, R227). -/
def dropWeft (n : Nat) (b : Block) : Block :=
  setFab (fun x => { x with
    sessions := x.sessions.filter fun e => e.2.skein != n,
    out := x.out.filter fun r => r.skein != n,
    inbound := x.inbound.filter fun r => r.skein != n }) b

/-- Close every session of a skein with CLOSE (R220, a swap-out). -/
def closeWeft (n : Nat) (b : Block) : Block :=
  (b.fab.sessions.filter fun e => e.2.skein == n).foldl (fun b e => closeSess e.1 b) b

end Sys2Proof.Machine
end

