-- ==== Sys2Proof/Machine/Inbound.lean ====
section
/-! DEFINITION. Frames received on the weft: verification, requests served here, the high-water table and the mailbox (R198 to
R206, R211, R214, R217 to R222, R227, R229, R231, R232). Choices marked in the log: DEDUCED 94, 95, 96, 101, 142; DESIGN
CHOICE 13. -/

namespace Sys2Proof.Machine

/-! ### Receiving -/

/-- Frame kinds and their numbers of flits (R211). -/
def flitsOk (kind n : Nat) : Bool :=
  if kind = 0x01 || kind = 0x07 || kind = 0x12 || kind = 0x22 then n == 0
  else if kind = 0x02 || kind = 0x06 then n == 2 || n == 4 || n == 6 || n == 8
  else if kind = 0x03 then n == 1 || n == 2
  else if kind = 0x04 || kind = 0x05 then n == 2
  else if kind = 0x08 then true
  else if kind = 0x11 then n == 0 || n == 2 || n == 4 || n == 6 || n == 8
  else if kind = 0x13 then n == 0 || n == 1
  else n == 1

/-- The frame kinds of R211. -/
def knownKind (k : Nat) : Bool :=
  (decide (1 ≤ k) && decide (k ≤ 8)) || (decide (0x11 ≤ k) && decide (k ≤ 0x13)) || (decide (0x20 ≤ k) && decide (k ≤ 0x23))

/-- Frames whose number the receive window checks (R211). -/
def isWindowed (h : Header) : Bool :=
  h.kind == 1 || h.kind == 2 || h.kind == 4 || h.kind == 5 || h.kind == 6 || h.kind == 8 || h.kind == 0x22 || h.kind == 0x23 ||
    (h.kind == 3 && !h.ns)

/-- NS is 1 only in PLY frames, and always in RESOLVE frames (R211). -/
def nsOk (h : Header) : Bool := if h.kind = 7 then h.ns else if h.kind = 3 then true else !h.ns

/-- Accept a verified frame on a session (R217 to R219). -/
def takeFrame (si port : Nat) (h : Header) (b : Block) : Block := match getSess si b with
  | none => b
  | some s =>
    let b := if s.st = .live then b else spoolFree 1 10 s.skein si 0 b
    let b := modSess si (fun s => { s with st := .live, rx := s.rx.accept h (isWindowed h), lastFrame := b.tick, lastRx := b.tick, loss := lossTicks b }) b
    let n := 32 * h.flits
    let b := bumpGlob (544 + 8 * port) n (bumpBucket s.skein 0 0 32 n (bumpBucket s.skein 0 0 24 (2 * h.flits + 1) (bumpSk s.skein 64 n b)))
    submitLink false (ledgerLink port si h.nonce) (unitSlot (some s.skein) b) 5 (2 * h.flits + 1) b

/-- A dropped request for a skein being destroyed counts in the destroy's record (R290, R291). -/
def dropStraggler (n : Nat) (b : Block) : Block :=
  if (getSkein n b).map (·.st) = some .destroying then countStraggler n true b else b

/-- Receive a frame of one kind on a weft port, and use it if it verifies (R211, R214, R227). -/
def recvWeft (kind : Nat) (port : Nat) (origin : Nat) (f : Bytes) (use : Nat → Session → Header → Bytes → Block → Block) (b : Block) : Block :=
  if asleep b || !b.fab.up.contains port || b.row.weftPorts ≤ port then b
  else match parseHeader f with
    | none => dropFrame .form b
    | some h =>
      if !knownKind h.kind then dropFrame .form b
      else if h.kind != kind then b
      else if h.die != 0 || 4096 ≤ h.session || !flitsOk h.kind h.flits || !nsOk h then dropFrame .form b
      else match getSess h.session b with
        | none => dropFrame .stale b
        | some s =>
          let gone := silent s.skein b
          let request := kind < 0x10 || kind == 0x23
          if s.st = .opening || s.opener && s.kind == 2 then dropFrame .stale b
          else if gone && request then dropFrame .stale (dropStraggler s.skein b)
          else match s.rx.pick h with
            | none => dropFrame .tag b
            | some k => match openFrame k h origin f with
              | none =>
                let due := match s.event with | some t => decide (t + 1000 ≤ b.tick) | none => true
                if s.st = .live && due then
                  raiseViews { cls := 4, skein := some s.skein } (modSess h.session (fun s => { s with event := some b.tick }) (dropFrame .tag b))
                else dropFrame .tag b
              | some p =>
                if isWindowed h && s.rx.replay h.nonce then dropFrame .replay b
                else use h.session s h p (takeFrame h.session port h b)

/-! ### The high-water table -/

/-- The requester ID of an endpoint and channel (R199). -/
def requesterId (endpoint channel : Nat) : Nat := endpoint % 512 * 64 + channel % 64

def setHw (rid : Nat) (e : HwEntry) (b : Block) : Block := setMem (fun m => { m with hw := amPut {} rid e m.hw }) b

/-- What a sequenced frame finds (R201, R202, R204, R206). -/
inductive HwOut where
  /-- It is applied now. -/
  | apply
  /-- It is answered with a status and, for a fetch, the stored value. -/
  | reply (st : BitVec 8) (value : Option (BitVec 64))
  /-- Its first copy is still being applied; the answer follows that. -/
  | wait
deriving DecidableEq, Repr

/-- Record an outcome in a history of four (R200). -/
def HwEntry.note (e : HwEntry) (seq : BitVec 64) (v : Option (BitVec 64)) : HwEntry :=
  { e with hist := ({ seq := seq, value := v } :: e.hist).take 4 }

/-- Judge a sequenced frame or a resolve frame (R201, R202, R204, R206). -/
def hwJudge (rid : Nat) (skein : Nat) (bind : BitVec 16) (seq : BitVec 64) (fetch isResolve : Bool) (b : Block) : HwOut × Block :=
  let e := amGetD {} rid b.mem.hw
  let fresh : HwEntry := { bind := bind, skein := some skein }
  let rebinds := seq = 1 && (e.bind != bind || (!e.lost && e.skein != some skein))
  if e.lost && !rebinds then
    (.reply cEcc none, raiseViews { cls := 3, cause := cEcc } b)
  else
    let (e, b) := if rebinds then (fresh, setHw rid fresh b) else (e, b)
    if e.bind != bind || e.skein != some skein then (.reply cAborted none, b)
    else if seq = e.hwm + 1 then
      if isResolve then (.reply cAborted none, setHw rid ({ e with hwm := seq }.note seq none) b)
      else (.apply, setHw rid { e with hwm := seq } b)
    else if e.hwm < seq then (.reply cAborted none, b)
    else if b.fab.inbound.any fun x => x.seqd == some (rid, seq) then (.wait, b)
    else match e.hist.find? fun x => x.seq == seq with
      | some x => match x.value with
        | some v => (.reply cOK (some v), b)
        | none => (.reply cAborted none, b)
      | none => (.reply (if fetch then cResultLost else cOK) none, b)

/-! ### Answers to peers -/

/-- The payload of a fetch value. -/
def valueBytes (v : Nat) : Bytes := leBytes 8 v ++ zeroBytes 24

/-- Answer an inbound request (R211, R221): the reply's kind follows the request's. -/
def answerIn (x : Inbound) (st : BitVec 8) (payload : Bytes) (b : Block) : Block :=
  let kind := if x.kind = 1 then 0x11 else if x.kind = 3 || x.kind = 5 || x.kind = 7 then 0x13 else 0x12
  match x.session with
  | some si => replyOn si kind st.toNat x.nonce payload b
  | none => (sendFed x.port x.src x.slot b.regs.dieIndex kind none st.toNat 0 x.nonce payload b).2

/-- All lines of an inbound request are done: its outcome is recorded and answered (R201, R221, R229). -/
def finishIn (x : Inbound) (b : Block) : Block :=
  let mine := b.mem.peerDone.filter fun d => d.1 == x.id
  let b := setMem (fun m => { m with peerDone := m.peerDone.filter fun d => d.1 != x.id }) b
  let b := setFab (fun f => { f with inbound := f.inbound.filter fun y => y.id != x.id }) b
  let st := ((mine.find? fun d => d.2.2.1 != cOK).map (·.2.2.1)).getD cOK
  let line (i : Nat) : Line := ((mine.find? fun d => d.2.1 == i).map (·.2.2.2)).getD 0
  let value := fieldAt (line 0) x.off x.elem
  let b := match x.seqd with
    | some (rid, seq) =>
      let e := amGetD {} rid b.mem.hw
      if st != cOK then setHw rid (e.note seq none) b
      else if x.fetch then setHw rid (e.note seq (some (BitVec.ofNat 64 value))) b else b
    | none => b
  let b := if x.kind = 5 && st = cOK then bumpSk x.skein 88 x.count (bumpGlob 896 (x.count - 1) b) else b
  let payload := if st != cOK then []
    else if x.kind = 1 then (List.range x.lines).flatMap fun i => toBytes 64 (line i)
    else if x.fetch then valueBytes value else []
  answerIn x st payload b

/-- Answer every inbound request whose lines are done. -/
def flushInb (b : Block) : Block :=
  b.fab.inbound.foldl (fun b x =>
    if (b.mem.peerDone.filter fun d => d.1 == x.id).length < x.lines then b else finishIn x b) b

/-- A command after which peers' requests and the block's own may go on. -/
def onFab (f : Block → Block) (s : State) : Out := onSettled (fun b => pumpOut (flushInb (f b))) s

/-! ### Requests served here -/

/-- The check of one line of a peer's request (R20, R150, R170, R176, R221): its status, and whether the front end refuses it, which counts, and
raises ACLASS 4. -/
def lineBar (kind : TxnKind) (n keyId addr : Nat) (w : PlyWord) (tag : BitVec 64) (b : Block) : Option (BitVec 8 × Bool × Bool) :=
  match frontEnd n keyId addr b with
  | some r => some (r.1, r.2, true)
  | none =>
    if kind = .ply && (getHank (addr / hankBytes) b).cls != .S then some (cNotPermitted, false, false)
    else if kind = .ply && !plyValid w addr fullMask tag then some (cInvalid, false, false)
    else none

/-- Every line of a peer's request is accepted, and the request waits for them. -/
def acceptLines (x : Inbound) (kind : TxnKind) (addr : Nat) (mask : BitVec 64) (data : List Line) (word : BitVec 32) (tag : BitVec 64)
    (evs : MemEvs) (b : Block) : Block :=
  (List.range x.lines).foldl (fun b i =>
    acceptLine (.peer x.id i) kind x.skein (raKey addr) (raAddr addr + 64 * i) mask (data.getD i 0) (plyWord word) tag none true 0 0 evs b)
    (setFab (fun f => { f with inbound := f.inbound ++ [x] }) b)

/-- The first line of a peer's request that is refused, and why. -/
def linesBar (x : Inbound) (kind : TxnKind) (addr : Nat) (word : BitVec 32) (tag : BitVec 64) (b : Block) : Option (BitVec 8 × Bool × Bool) :=
  (List.range x.lines).findSome? fun i => lineBar kind x.skein (raKey addr) (raAddr addr + 64 * i) (plyWord word) tag b

/-- Serve a peer's request line by line, or answer its refusal at once (R221). -/
def serveIn (x : Inbound) (kind : TxnKind) (addr : Nat) (mask : BitVec 64) (data : List Line) (word : BitVec 32) (tag : BitVec 64) (evs : MemEvs)
    (b : Block) : Block :=
  match linesBar x kind addr word tag b with
  | some (st, raise, refused) =>
    let b := if refused then refuseReq x.skein st raise (decide (kind = .write)) b else b
    finishIn { x with lines := 0 } (setMem (fun m => { m with peerDone := m.peerDone ++ [(x.id, 0, st, 0)] })
      (setFab (fun f => { f with inbound := f.inbound ++ [x] }) b))
  | none => acceptLines x kind addr mask data word tag evs b

/-- The record of a request received on a session. -/
def inOf (si : Option Nat) (n : Nat) (h : Header) (lines : Nat) (b : Block) : Inbound × Block :=
  let id := b.fab.nextId
  let w := plyWord (BitVec.ofNat 32 h.param)
  ({ id := id, session := si, port := 0, src := 0, slot := 0, skein := n, kind := h.kind, nonce := h.nonce, lines := lines, seqd := none,
     fetch := h.kind == 3 && w.fetch, elem := elemBytes w.fmt, off := h.addr.toNat % 64, count := 0 },
   setFab (fun x => { x with nextId := id + 1 }) b)

/-- The ends of a session share a pod number (R221). -/
def samePod (s : Session) : Bool := s.peer.pod == s.self.pod

/-- Kinds that a session carries at its distance (R215, R221). -/
def carries (s : Session) (h : Header) : Bool :=
  let w := plyWord (BitVec.ofNat 32 h.param)
  let idem := (w.op == 2 || w.op == 3 || w.op == 4 || w.op == 5) && !w.fetch
  match s.kind with
  | 0 => if h.kind = 6 then !samePod s else samePod s && h.kind != 5
  | 1 => samePod s && ((h.kind == 3 && idem && !h.ns) || (h.kind == 5 && idem))
  | _ => h.kind == 4

/-- The session that answers a session's requests: for a group the pair session with its sender, opened where none is (R215, R232). -/
def replySess (si : Nat) (s : Session) (b : Block) : Nat × Block :=
  if s.kind != 2 then (si, b)
  else match findSess 0 s.skein s.peer.member b with
    | some (i, _) => (i, b)
    | none => let (i, b) := openSess 0 s.skein s.peer.member b; (i.getD 4096, b)

/-- Answer a request without serving it. -/
def refuseIn (si : Nat) (s : Session) (h : Header) (st : BitVec 8) (b : Block) : Block :=
  let (i, b) := replySess si s b
  let (x, b) := inOf (some i) s.skein h 0 b
  answerIn x st [] b

/-- Serve a verified READ, WRITE, PLY or COMBINED of a source (R221, R229). -/
def serveFrame (x : Inbound) (h : Header) (p : Bytes) (requester : Nat × BitVec 16) (evs : MemEvs) (b : Block) : Block :=
  let word := BitVec.ofNat 32 h.param
  let w := plyWord word
  let addr := h.addr.toNat
  let tag := BitVec.ofNat 64 h.extra
  let lines := (List.range (h.flits / 2)).map fun i => ofBytes 512 (sliceBytes p (64 * i) 64)
  match h.kind with
  | 1 =>
    if h.param = 0 || 4 < h.param then answerIn x cInvalid [] b
    else serveIn { x with lines := h.param } .read addr 0 [] 0 0 evs b
  | 2 => serveIn { x with lines := h.flits / 2 } .write addr (if h.flits = 2 then tag else fullMask) lines 0 0 evs b
  | 3 =>
    let opnd : Line := ofBytes 512 p
    if w.fetch != (h.flits == 1) || ((w.fetch || w.op == 1 || w.op == 6) && !h.ns) then answerIn x cInvalid [] b
    else if h.ns then
      let seq := BitVec.ofNat 64 h.nonce
      match hwJudge requester.1 x.skein requester.2 seq w.fetch false b with
      | (.apply, b) => serveIn { x with lines := 1, seqd := some (requester.1, seq) } .ply addr fullMask [opnd] word tag evs b
      | (.reply st v, b) => answerIn x st (match v with | some v => valueBytes v.toNat | none => []) b
      | (.wait, b) => b
    else serveIn { x with lines := 1 } .ply addr fullMask [opnd] word tag evs b
  | 5 => serveIn { x with lines := 1, count := h.extra % 65536 } .ply addr fullMask lines word 0 evs b
  | 7 =>
    match hwJudge requester.1 x.skein requester.2 (BitVec.ofNat 64 h.nonce) false true b with
    | (.reply st v, b) => answerIn x st (match v with | some v => valueBytes v.toNat | none => []) b
    | (_, b) => b
  | _ => b

/-- The request rows of the weft (R221, R229): READ, WRITE, PLY, COMBINED, RESOLVE. A ply operation on a group asks for what is never multicast
(R207). -/
def doWeftRequest (kind port : Nat) (f : Bytes) (evs : MemEvs) (b : Block) : Block :=
  recvWeft kind port 0 f (fun si s h p b =>
    if s.kind = 2 && (h.kind == 3 || h.kind == 5) then refuseIn si s h cInvalid b
    else if !carries s h then refuseIn si s h cNotPermitted b
    else
      let (x, b) := inOf (some si) s.skein h 0 b
      serveFrame x h p (requesterId s.peer.endpoint s.peer.channel, BitVec.ofNat 16 s.peer.bind) evs b) b

/-- MCAST (R207, R232): written as a plain write and answered on the pair session with its sender. -/
def doMcast (port : Nat) (f : Bytes) (evs : MemEvs) (b : Block) : Block :=
  recvWeft 4 port 0 f (fun si s h p b =>
    if s.kind != 2 then refuseIn si s h cNotPermitted b
    else
      let (pair, b) := replySess si s b
      let (x, b) := inOf (some pair) s.skein h 1 b
      if h.param != 0 then answerIn x cInvalid [] b
      else serveIn x .write h.addr.toNat fullMask [ofBytes 512 p] 0 0 evs b) b

/-- Write the slot of a message: payload, record, PRODUCED (R222). -/
def deliver (evs : MemEvs) (mb : Mailbox) (s : Session) (h : Header) (p : Bytes) (b : Block) : BitVec 8 × Block :=
  let base := mb.hank * hankBytes
  match getLine evs { item := some (0, 0) } base b with
  | (.error st, b) => (st, b)
  | (.ok l0, b) =>
    let consumed := fieldAt l0 8 8
    if 1023 ≤ (mb.produced + 2 ^ 64 - consumed) % 2 ^ 64 then (cQuota, b)
    else
      let i := mb.produced % 1023
      let pay (k : Nat) : Line := ofBytes 512 (sliceBytes p (64 * k) 64)
      let rec' : Line := putAt 512 0 2 s.peer.member ||| putAt 512 2 1 s.peer.channel ||| putAt 512 3 1 (h.flits / 2) |||
        putAt 512 8 8 h.nonce ||| putAt 512 16 8 b.tim.t.toNat ||| putAt 512 24 1 b.tim.quality
      let writes := (List.range 4).map (fun k => (base + 65536 + 256 * i + 64 * k, pay k, fullMask)) ++
        [(base + 64 + 64 * i, rec', fullMask), (base, putAt 512 0 8 (mb.produced + 1), slotMask 0)]
      let (st, b) := writes.foldl (fun acc w =>
        if acc.1 != cOK then acc else putLine evs { item := some (0, 0) } w.1 w.2.1 w.2.2 acc.2) (cOK, b)
      (st, if st = cOK then
          modSkein s.skein (fun k => { k with mailbox := some { mb with produced := mb.produced + 1, consumed := consumed } }) b
        else b)

/-- MESSAGE (R222). -/
def doMessage (port : Nat) (f : Bytes) (evs : MemEvs) (b : Block) : Block :=
  recvWeft 6 port 0 f (fun si s h p b =>
    if !carries s h then refuseIn si s h cNotPermitted b
    else match (getSkein s.skein b).bind (·.mailbox) with
      | none => refuseIn si s h cQuota b
      | some mb =>
        let (st, b) := deliver evs mb s h p b
        refuseIn si s h st b) b

/-- The receiving end of a group that a session's peer opens at an index with a random (R231). -/
def groupOf (s : Session) (gi : Nat) (rand : Bytes) (b : Block) : Session :=
  let secret := (((getSkein s.skein b).bind (·.weft)).map (·.key)).getD 0
  { st := .live, kind := 2, skein := s.skein, opener := false, peer := s.peer, self := s.self,
    rx := { key := kdf (keyBytes secret) "frexis group" (toBytes 16 s.peer.device ++ leBytes 2 gi ++ rand) }, since := b.tick,
    limit := reqTicks b, lastFrame := b.tick, lastRx := b.tick, loss := lossTicks b }

/-- A frame that no federation port takes is dropped and counted there (R211). -/
def weftOnly (port : Nat) (f : Block → Block) (b : Block) : Block :=
  if !isFedPort port then f b else if asleep b || !b.fab.up.contains port then b else dropFrame .form b

/-- GROUP_OPEN (R231): a free index takes the group's key; a taken one answers QUOTA. -/
def doGroupOpen (port : Nat) (f : Bytes) (b : Block) : Block :=
  weftOnly port (recvWeft 0x23 port 0 f (fun si s h p b =>
    let gi := leField p 0 2
    if !carries s h || s.kind != 0 then refuseIn si s h cNotPermitted b
    else if gi < 3968 || 4096 ≤ gi then refuseIn si s h cInvalid b
    else
      if (getSess gi b).isSome || 1024 ≤ heldSess s.skein b then refuseIn si s h cQuota b
      else refuseIn si s h cOK (spoolFree 1 10 s.skein gi 0 (putSess gi (groupOf s gi (sliceBytes p 2 8) b) b)))) b

/-! ### Opening and closing -/

/-- Skeins that an OPEN can be meant for: its member, device, places and secret generation are theirs (R217). -/
def openTargets (o : OpenF) (b : Block) : List Nat :=
  (b.skeins.filter fun e => e.2.slot.isSome && e.2.st != .destroying && e.2.st != .resetting &&
    (selfMember e.2 b).isSome &&
    (match secretOf o.kind e.2 with | some s => s.gen == o.gen | none => false) &&
    (match amGet o.member e.2.members with
      | some m => m.device == o.device && m.pod == o.pod && m.endpoint == o.endpoint
      | none => false)).map (·.1)

/-- A skein's live session with the endpoint and channel of an OPEN belongs to another device (R217). -/
def openTaken (n : Nat) (o : OpenF) (b : Block) : Bool :=
  b.fab.sessions.any fun e => e.2.skein == n && e.2.st == .live && e.2.peer.endpoint == o.endpoint && e.2.peer.channel == o.channel &&
    e.2.peer.device != o.device

/-- At most 64 sessions are half-open: the oldest makes room (R217). -/
def dropOldHalf (b : Block) : Block :=
  let halves := b.fab.sessions.filter fun e => e.2.st == .half
  if 64 ≤ halves.length then match argMin (fun e => e.2.since) halves with
    | some (i, _) => dropSess i b
    | none => b
  else b

/-- A half-open session at an entry, with the ACCEPT that answers its OPEN (R217). -/
def halfOpen (i n : Nat) (o a : OpenF) (b : Block) : Block :=
  let sec := ((getSkein n b).bind (secretOf o.kind)).map (·.key)
  let k (dir : Nat) : Key := sessKey (sec.getD 0) o a dir
  let s : Session :=
    { st := .half, kind := o.kind, skein := n, opener := false, peer := o, self := a, tx := { key := k 1, num := 2 }, rx := { key := k 0 },
      since := b.tick, limit := reqTicks b, lastFrame := b.tick, lastRx := b.tick, loss := lossTicks b }
  let h : Header := { kind := 0x21, flits := 1, session := o.index, nonce := 1 }
  let p := openFBytes a
  emitWeft i 1 (h.bytes ++ p ++ toBytes 16 (frameTag (k 1) h 0 h.bytes p)) 32 n (putSess i s b)

/-- OPEN (R217): a half-open entry and its ACCEPT, or none. -/
def doOpen (port : Nat) (o : OpenF) (b : Block) : Block := weftOnly port (b := b) fun b =>
  if asleep b || !b.fab.up.contains port || b.row.weftPorts ≤ port || 2 ≤ o.kind then b
  else match openTargets o b with
    | [] => b
    | t :: ts =>
      let (c, b) := choose (ts.length + 1) b
      let n := (t :: ts).getD c t
      if openTaken n o b || 1024 ≤ heldSess n b then b
      else match readMember [] n o.member b with
        | (st, b) => if st != cOK then b else match takeSess (dropOldHalf b) with
        | (none, b) => b
        | (some i, b) => match ownFields o.kind i n b with
          | none => b
          | some (a, b) => halfOpen i n o a b

/-- The fields of an ACCEPT are the listed member's (R217). -/
def acceptListed (s : Session) (a : OpenF) (b : Block) : Bool :=
  match (getSkein s.skein b).bind fun k => amGet s.peer.member k.members with
  | some m => m.device == a.device && a.member == s.peer.member && m.pod == a.pod && m.endpoint == a.endpoint
  | none => false

/-- The key of a direction of a session that an ACCEPT completes (R217). -/
def acceptKey (s : Session) (a : OpenF) (dir : Nat) (b : Block) : Key :=
  sessKey ((((getSkein s.skein b).bind (secretOf s.kind)).map (·.key)).getD 0) s.self a dir

/-- The tag that an ACCEPT must carry. -/
def acceptTag (session : Nat) (s : Session) (a : OpenF) (b : Block) : Block128 :=
  let h : Header := { kind := 0x21, flits := 1, session := session, nonce := 1 }
  frameTag (acceptKey s a 1 b) h 0 h.bytes (openFBytes a)

/-- The session is live under its keys (R217). -/
def acceptSess (session : Nat) (s : Session) (a : OpenF) (b : Block) : Block :=
  let tx := acceptKey s a 0 b
  let rx := acceptKey s a 1 b
  modSess session (fun s => { s with
    st := .live, peer := a, tx := { key := tx, num := 1 }, rx := { key := rx }, lastFrame := b.tick, lastRx := b.tick, loss := lossTicks b })
    (spoolFree 1 10 s.skein session 0 b)

/-- ACCEPT (R217): the opener derives the keys, verifies the tag and sends what waits. -/
def doAccept (port session : Nat) (a : OpenF) (tag : Block128) (b : Block) : Block := weftOnly port (b := b) fun b =>
  if asleep b || !b.fab.up.contains port || b.row.weftPorts ≤ port then b
  else match getSess session b with
    | none => dropFrame .stale b
    | some s =>
      if s.st != .opening || s.kind == 2 then dropFrame .stale b
      else if a.kind != s.kind || !acceptListed s a b || acceptTag session s a b != tag then dropFrame .tag b
      else match readMember [] s.skein s.peer.member b with
        | (st, b) => if st != cOK then dropFrame .tag b else pumpOut (flushReplies session (acceptSess session s a b))

/-- CLOSE (R220). -/
def doClose (port : Nat) (f : Bytes) (b : Block) : Block :=
  weftOnly port (recvWeft 0x22 port 0 f (fun si _ _ _ b => pumpOut (endSess si cKeyRetired b))) b

end Sys2Proof.Machine
end

