-- ==== Sys2Proof/Machine/Weft.lean ====
section
/-! DEFINITION. Replies of peers, federation frames, links, the package, and the commands of the weft chapter (R28 to R30, R214,
R226, R230, R233 to R237). Choices marked in the log: DEDUCED 93, 99, 140, 141; DESIGN CHOICE 4, 128. -/

namespace Sys2Proof.Machine

/-! ### Replies -/

/-- A verified reply to a request (R201, R204, R206, R207, R224). ABORTED ends a sequenced operation only where none of its frames went out
ahead of a lower SEQ without having been answered: else it may say that one came too early, and the operation is sent again in order. A
federation channel's BIND is the package's, which only the leader advances (R234). -/
def useReply (r : OutReq) (st : BitVec 8) (payload : Bytes) (hasValue : Bool) (b : Block) : Block :=
  if r.seqd && st = cEcc then
    let b := resolveChannel r.slot cEcc b
    if r.die.isSome then b else rebind r.slot b
  else if r.seqd && st = cAborted && r.stray != 0 then setOut r.id (fun r => { r with stray := r.stray - 1, resume := true }) b
  else
    let xs := if r.kind = 1 then (List.range r.lines).map fun i => ofBytes 512 (sliceBytes payload (64 * i) 64)
      else if r.fetch && hasValue then
        [putAt 512 (r.addr.toNat % 64) (elemBytes (plyWord (BitVec.ofNat 32 r.param)).fmt) (leField payload 0 8)]
      else []
    endReq r st xs (if r.fetch && hasValue then some (leField payload 0 8) else none) b

/-- Requests that a reply kind answers (R211). -/
def repliesTo (reply kind : Nat) : Bool :=
  if reply = 0x11 then kind == 1 else if reply = 0x12 then kind == 2 || kind == 4 || kind == 6 || kind == 0x23 else kind == 3

/-- READ_RESP, WRITE_RESP and PLY_RESP on the weft (R214, R230, R232). -/
def doWeftReply (kind port origin : Nat) (f : Bytes) (b : Block) : Block :=
  recvWeft kind port origin f (fun si s h p b =>
    let st := BitVec.ofNat 8 (h.param % 256)
    let hit (r : OutReq) : Bool := r.session == some si && repliesTo kind r.kind && r.kind != 4 && r.nonce == some h.extra &&
      (kind != 0x11 || st != cOK || h.flits == 2 * r.lines)
    match b.fab.out.find? hit with
    | some r => pumpOut (useReply r st p (h.flits != 0) (sampleTime 0x13 port b))
    | none =>
      match b.fab.out.find? fun r => kind == 0x12 && r.kind == 4 && r.skein == s.skein && s.kind == 0 && r.nonce == some h.extra &&
          r.waits.contains s.peer.member with
      | some r => castAnswer r.id s.peer.member st b
      | none => dropFrame .unmatched b) b

/-! ### Federation -/

/-- The key of a federation direction (R234, R299). -/
def fedKeyOf (f : Key) (src dst port dir : Nat) (rands : BitVec 512) : Key :=
  kdf (keyBytes f) "frexis federation" (leBytes 1 src ++ leBytes 1 dst ++ leBytes 1 port ++ leBytes 1 dir ++ toBytes 64 rands)

/-- The member index and endpoint of a die for a skein (R234). -/
def dieMember (n die : Nat) (b : Block) : Option Member :=
  (getSkein n b).bind fun sk => (amGet die b.fab.dies).bind fun dev => (sk.members.find? fun m => m.2.device == dev).map (·.2)

/-- Accept a verified federation frame (R214, R234). DESIGN CHOICE: CHANNEL of its ledger entry, which R64 gives for a weft session, an IDE
stream and a MACsec SA alone, is the skein slot. -/
def takeFed (port : Nat) (h : Header) (p : Bytes) (b : Block) : Block :=
  let b := modFed port (fun x => { x with rx := x.rx.accept h (isWindowed h), lastRx := b.tick, loss := lossTicks b }) b
  let b := bumpGlob (864 + 8 * (port - 28)) p.length b
  let b := match slotSkein (h.session % 64) b with | some (n, _) => bumpSk n 64 p.length b | none => b
  submitLink false (ledgerLink port (h.session % 64) h.nonce) (h.session % 64) 5 (2 * h.flits + 1) b

/-- Verify a federation frame on its incoming hop (R214, R233, R234). -/
def recvFed (kind port : Nat) (f : Bytes) (use : Nat → Header → Bytes → Block → Block) (b : Block) : Block :=
  if asleep b || !b.fab.up.contains port then b
  else match getFed port b, parseHeader f with
    | some fp, some h =>
      if !knownKind h.kind || (0x20 ≤ h.kind) || h.kind = 4 || h.kind = 5 || h.kind = 6 then dropFrame .form b
      else if h.kind != kind || !fp.isOpen then b
      else if 256 ≤ h.session || !flitsOk h.kind h.flits || !nsOk h then dropFrame .form b
      else match fp.rx.pick h with
        | none => dropFrame .tag b
        | some k => match openFrame k h 0 f with
          | none => dropFrame .tag b
          | some p =>
            if isWindowed h && fp.rx.replay h.nonce then dropFrame .replay b
            else use (h.session / 64) h p (takeFed port h p b)
    | some _, none => dropFrame .form b
    | none, _ => b

/-- Protect a frame afresh toward a die that is not this one (R233). -/
def forward (port src : Nat) (h : Header) (p : Bytes) (b : Block) : Block :=
  match (b.fab.fed.find? fun e => e.2.isOpen && e.1 != port).map (·.1) with
  | none => dropFrame .form b
  | some out =>
    let reply := 0x11 ≤ h.kind
    let back := b.fab.forwarded.find? fun w => reply && w.outPort == port && w.outNonce == h.extra && w.src == h.die
    let extra := match back with | some w => w.inNonce | none => h.extra
    let b := match back with | some w => setFab (fun x => { x with forwarded := x.forwarded.erase w }) b | none => b
    let (n, b) := sendFed out h.die (h.session % 64) src h.kind (if h.ns then some h.nonce else none) h.param h.addr extra p b
    if reply || h.ns || h.kind = 8 then b
    else setFab (fun x => { x with
      forwarded := x.forwarded ++ [{ outPort := out, outNonce := n, inPort := port, inNonce := h.nonce, src := src }] }) b

/-- A federation frame for this die, or forwarded (R233, R236). -/
def doFed (kind port : Nat) (f : Bytes) (evs : MemEvs) (b : Block) : Block :=
  recvFed kind port f (fun src h p b =>
    if h.die != b.regs.dieIndex then forward port src h p b
    else if h.kind = 8 then emit (.coherence p) b
    else if 0x11 ≤ h.kind then
      let st := BitVec.ofNat 8 (h.param % 256)
      match b.fab.out.find? fun r => r.die == some src && r.slot == h.session % 64 && repliesTo h.kind r.kind && r.nonce == some h.extra &&
          (h.kind != 0x11 || st != cOK || h.flits == 2 * r.lines) with
      | some r => pumpOut (useReply r st p (h.flits != 0) b)
      | none => dropFrame .unmatched b
    else
      let slot := h.session % 64
      let base (n : Nat) (b : Block) : Inbound × Block :=
        let (x, b) := inOf none n h 0 b
        ({ x with port := port, src := src, slot := slot }, b)
      match slotSkein slot b with
      | none =>
        let (x, b) := base 0 b
        answerIn x cNotPermitted [] (raiseViews { cls := 4, noView := true, cause := cNotPermitted } (bumpRefused b))
      | some (n, sk) =>
        if sk.st = .destroying || sk.st = .resetting then dropFrame .stale (dropStraggler n b)
        else
          let (x, b) := base n b
          let ep := ((dieMember n src b).map (·.endpoint)).getD 0
          serveFrame x h p (requesterId ep slot, BitVec.ofNat 16 (amGetD 0 slot b.fab.pkgBinds)) evs b) b

/-- A received request on either fabric. -/
def doFrame (kind : Nat) (port : BitVec 8) (f : Bytes) (evs : MemEvs) (b : Block) : Block :=
  if isFedPort port.toNat then doFed kind port.toNat f evs b
  else if kind = 4 then doMcast port.toNat f evs b
  else if kind = 6 then doMessage port.toNat f evs b
  else if kind = 8 then
    (if asleep b || !b.fab.up.contains port.toNat then b else if (parseHeader f).any (fun h => h.kind == 8) then dropFrame .form b else b)
  else doWeftRequest kind port.toNat f evs b

/-- COHERENCE: a received frame, or a message of the surroundings for another die, which is protected and sent; one that no open port takes is
dropped, the model's choice (R236). -/
def doCoherence (port : BitVec 8) (f : Bytes) (toDie : Option (BitVec 2 × BitVec 6)) (b : Block) : Block := match toDie with
  | none => doFrame 8 port f [] b
  | some (die, slot) =>
    if closed b || 256 < f.length then b
    else match fedPortTo die.toNat b with
      | some p => (sendFed p die.toNat slot.toNat b.regs.dieIndex 8 none 0 0 0 f b).2
      | none => b

def doReply (kind : Nat) (port : BitVec 8) (origin : Nat) (f : Bytes) (b : Block) : Block :=
  if isFedPort port.toNat then doFed kind port.toNat f [] b else doWeftReply kind port.toNat origin f b

/-! ### Links -/

/-- REACHABLE and the open bits of FED_STATUS (R512). -/
def fedStatusSync (b : Block) : Block :=
  let isOpen (p : Nat) : Bool := match getFed p b with | some f => f.isOpen | none => false
  let any := isOpen 28 || isOpen 29
  let reach := (List.range 4).foldl (fun m d =>
    if d = b.regs.dieIndex || (any && d < b.regs.pkgDies && (amGet d b.fab.dies).isSome) then m + 2 ^ d else m) 0
  let absent := !b.regs.leader && !(any && (amGet 0 b.fab.dies).isSome)
  let put (v : BitVec 32) (hi lo x : Nat) : BitVec 32 := setBits v hi lo x
  let bits (v : BitVec 32) : BitVec 32 := put (put (put v 1 1 (b2n (isOpen 28))) 2 2 (b2n (isOpen 29))) 11 8 reach
  setRegs (fun r => { r with fedStatus := put (bits r.fedStatus) 4 4 (b2n (absent && decide (1 < r.pkgDies))) }) b

/-- LINK_DOWN (R226). -/
def doLinkDown (port : Nat) (b : Block) : Block := setFab (fun x => { x with up := x.up.filter fun p => p != port }) b

/-- LINK_UP (R203, R226): the links of the sequenced operations have resumed. -/
def doLinkUp (port : Nat) (b : Block) : Block :=
  if b.fab.up.contains port || !(port < b.row.weftPorts || isFedPort port) then b
  else
    let b := setFab (fun x => { x with
      up := port :: x.up,
      out := x.out.map fun r => if r.seqd && r.nonce.isSome && (r.die.isSome == isFedPort port) then { r with resume := true } else r }) b
    b.fab.sessions.foldl (fun b e => flushReplies e.1 b) b

/-- Requests whose frames went out on a federation port. -/
def sentOn (port : Nat) (b : Block) : List OutReq :=
  b.fab.out.filter fun r => r.nonce.isSome && (match r.die with | some d => fedPortTo d b == some port | none => false)

/-- A federation port is down: its pending requests, and those to dies that no open port reaches any more, end with KEY_RETIRED (R237). -/
def loseDie (port : Nat) (b : Block) : Block :=
  let b := (sentOn port b).foldl (fun b r => endReq r cKeyRetired [] none b) b
  let b := modFed port (fun f => { f with isOpen := false }) b
  let other := (b.fab.fed.any fun e => e.2.isOpen)
  let lost (d : Nat) : Bool := !other && d != b.regs.dieIndex
  let b := (b.fab.out.filter fun r => match r.die with | some d => lost d | none => false).foldl (fun b r => endReq r cKeyRetired [] none b) b
  let b := if other then b else setFab (fun x => { x with dies := x.dies.filter fun d => d.1 == b.regs.dieIndex }) b
  fedStatusSync b

/-- FEDERATION_PORT_LOSS (R237). -/
def doFedPortLoss (port : Nat) (b : Block) : Block := match getFed port b with
  | none => b
  | some f =>
    match argMin (·.since) (sentOn port b) with
    | none => b
    | some r => if !f.isOpen || b.tick < lossDue f.lastRx f.loss r then b else loseDie port b

/-! ### The package -/

/-- The followers that a package-wide operation waits for (R30). -/
def followersOf (b : Block) : List Nat := (List.range b.regs.pkgDies).filter fun d => d != b.regs.dieIndex && decide (1 < b.regs.pkgDies)

/-! ### Commands -/

/-- A warp request to memory here or at a peer (R478). -/
def doWarp (kind : TxnKind) (q : WarpReq) (evs : MemEvs) (b : Block) : Block :=
  pumpOut (flushInb (if q.peerV then doRemote kind q evs b else doLocal kind q evs b))

/-- A ply request of one operation; a reserved OP is refused by its own checks (R175, R177). -/
def doPly (op : Nat) (q : WarpReq) (evs : MemEvs) (b : Block) : Block :=
  let o := (plyWord q.plyop).op
  if o = op || o = 0 || 8 < o then doWarp .ply q evs b else b

def execWarpRead (q : WarpReq) (evs : MemEvs) (s : State) : Out := onWarp q (doWarp .read q evs) s
def execWarpWrite (q : WarpReq) (evs : MemEvs) (s : State) : Out := onWarp q (doWarp .write q evs) s
def execPlyAdd (q : WarpReq) (evs : MemEvs) (s : State) : Out := onWarp q (doPly 1 q evs) s
def execPlyMin (q : WarpReq) (evs : MemEvs) (s : State) : Out := onWarp q (doPly 2 q evs) s
def execPlyMax (q : WarpReq) (evs : MemEvs) (s : State) : Out := onWarp q (doPly 3 q evs) s
def execPlyAnd (q : WarpReq) (evs : MemEvs) (s : State) : Out := onWarp q (doPly 4 q evs) s
def execPlyOr (q : WarpReq) (evs : MemEvs) (s : State) : Out := onWarp q (doPly 5 q evs) s
def execPlyXor (q : WarpReq) (evs : MemEvs) (s : State) : Out := onWarp q (doPly 6 q evs) s
def execPlySwap (q : WarpReq) (evs : MemEvs) (s : State) : Out := onWarp q (doPly 7 q evs) s
def execPlyCas (q : WarpReq) (evs : MemEvs) (s : State) : Out := onWarp q (doPly 8 q evs) s
def execMemoryReadReturn (lane : BitVec 8) (mtag : BitVec 8) (data : Line) (ue : Bool) (ce : Bool) (evs : MemEvs) (s : State) : Out :=
  onFab (doReadReturn lane.toNat mtag.toNat data ue ce evs) s
def execMemoryWriteAccept (lane : BitVec 8) (s : State) : Out := onFab (doWriteAccept lane.toNat) s
def execAbsorberWindowClose (line : BitVec 52) (evs : MemEvs) (s : State) : Out :=
  onFab (fun b => pumpAll evs (closeWindow evs (line.toNat / 64 * 64) b)) s

def execReelWindowTake (evs : MemEvs) (s : State) : Out := onFab (doWindowTake evs) s
def execReelWindowRelease (evs : MemEvs) (s : State) : Out := onFab (doWindowRelease evs) s
def execWeftRead (port : BitVec 8) (frame : Bytes) (evs : MemEvs) (s : State) : Out := onFab (doFrame 1 port frame evs) s
def execWeftWrite (port : BitVec 8) (frame : Bytes) (evs : MemEvs) (s : State) : Out := onFab (doFrame 2 port frame evs) s
def execWeftPly (port : BitVec 8) (frame : Bytes) (evs : MemEvs) (s : State) : Out := onFab (doFrame 3 port frame evs) s
def execWeftMcast (port : BitVec 8) (frame : Bytes) (evs : MemEvs) (s : State) : Out := onFab (doFrame 4 port frame evs) s
def execWeftCombined (port : BitVec 8) (frame : Bytes) (evs : MemEvs) (s : State) : Out := onFab (doFrame 5 port frame evs) s
def execWeftMessage (port : BitVec 8) (frame : Bytes) (evs : MemEvs) (s : State) : Out := onFab (doFrame 6 port frame evs) s
def execWeftResolve (port : BitVec 8) (frame : Bytes) (evs : MemEvs) (s : State) : Out := onFab (doFrame 7 port frame evs) s
def execWeftCoherence (port : BitVec 8) (frame : Bytes) (toDie : Option (BitVec 2 × BitVec 6)) (s : State) : Out :=
  onFab (doCoherence port frame toDie) s
def execWeftReadResp (port : BitVec 8) (frame : Bytes) (s : State) : Out := onFab (doReply 0x11 port 0 frame) s
def execWeftWriteResp (port : BitVec 8) (frame : Bytes) (s : State) : Out := onFab (doReply 0x12 port 0 frame) s
def execWeftPlyResp (port : BitVec 8) (origin : BitVec 15) (frame : Bytes) (s : State) : Out :=
  onFab (doReply 0x13 port origin.toNat frame) s
def execWeftOpen (port : BitVec 8) (fields : OpenF) (s : State) : Out := onFab (doOpen port.toNat fields) s
def execWeftAccept (port : BitVec 8) (session : BitVec 12) (fields : OpenF) (tag : BitVec 128) (s : State) : Out :=
  onFab (doAccept port.toNat session.toNat fields tag) s
def execWeftClose (port : BitVec 8) (frame : Bytes) (s : State) : Out := onFab (doClose port.toNat frame) s
def execWeftGroupOpen (port : BitVec 8) (frame : Bytes) (s : State) : Out := onFab (doGroupOpen port.toNat frame) s
def execRequestTimeout (req : BitVec 64) (s : State) : Out := onFab (doRequestTimeout req.toNat) s
def execPlyResend (req : BitVec 64) (s : State) : Out := onFab (doPlyResend req.toNat) s
def execResolveResend (req : BitVec 64) (s : State) : Out := onFab (doResolveResend req.toNat) s
def execOpenTimeout (session : BitVec 12) (s : State) : Out := onFab (doOpenTimeout session.toNat) s
def execSessionLoss (session : BitVec 12) (s : State) : Out := onFab (doSessionLoss session.toNat) s
def execSessionIdle (session : BitVec 12) (s : State) : Out := onFab (doSessionIdle session.toNat) s
def execSecretClose (session : BitVec 12) (s : State) : Out := onFab (doSecretClose session.toNat) s
def execLinkDown (port : BitVec 8) (s : State) : Out := onFab (doLinkDown port.toNat) s
def execLinkUp (port : BitVec 8) (s : State) : Out := onFab (doLinkUp port.toNat) s
def execFederationPortLoss (port : BitVec 8) (s : State) : Out := onFab (doFedPortLoss port.toNat) s

end Sys2Proof.Machine
end

