-- ==== Sys2Proof/Machine/Keys.lean ====
section
/-! DEFINITION. Key blobs and the key descriptors, epoch advances, the key ladder's firmware steps, the entropy source (R24, R107,
R108, R112, R113, R158, R159, R302 to R318, R526). Choices marked in the log: DEDUCED 42, 47, 48, 52, 91, 120, 145; DESIGN
CHOICE 49, 146. -/

namespace Sys2Proof.Machine

/-! ### The key ladder and the entropy source -/

/-- Take the key ladder engine for one step of an owner: 1 the security firmware, 2 the manager's swap (R310). -/
def takeLadder (owner : Nat) (b : Block) : Block :=
  { b with ladder := { b.ladder with owner := owner, lastMgr := owner == 2 } }

/-- The engine is free and nobody waits for it. -/
def ladderFree (b : Block) : Bool := b.ladder.owner == 0 && b.ladder.fwWait.isEmpty && b.ladder.mgrWait.isEmpty

/-- A key step of the security firmware for a descriptor: granted at once, or in its turn (R310). -/
def firmwareStep (x : Desc) (run : Desc → Block → Block) (b : Block) : Block :=
  if ladderFree b then run x (takeLadder 1 b)
  else { b with ladder := { b.ladder with fwWait := b.ladder.fwWait ++ [x.id] } }

/-- Draws wait while the source's output is stopped (R303). -/
def trngStopped (b : Block) : Bool := b.srv.trng.stopped.isSome

/-- TRNG_HEALTH_FAIL: a block is discarded, `consecutive` to the one before; the third in a row stops output (R303). -/
def doTrngHealthFail (consecutive : Bool) (b : Block) : Block :=
  if trngStopped b then b
  else
    let n := if consecutive then b.srv.trng.discards + 1 else 1
    let b := setSrv (fun v => { v with trng := { v.trng with discards := n } }) b
    if n < 3 then b
    else
      let b := setDst 7 true (setSrv (fun v => { v with trng := { v.trng with stopped := some b.tick } }) b)
      let (id, b) := faultRecord { kind := 0x0B, aclass := 3 } b
      raiseViews { cls := 3, fault := id } b

/-- TRNG_RESTART: 1,000 ticks after it stopped, the source starts again; output resumes once the start-up samples pass (R303). -/
def doTrngRestart (pass : Bool) (b : Block) : Block := match b.srv.trng.stopped with
  | none => b
  | some t =>
    if b.tick < t + 1000 then b
    else if pass then setDst 7 false (setSrv (fun v => { v with trng := { v.trng with stopped := none, discards := 0 } }) b)
    else setSrv (fun v => { v with trng := { v.trng with stopped := some b.tick } }) b

/-- DRBG_RESEED: after 65,536 generate calls or 100 ms (R302). -/
def doDrbgReseed (b : Block) : Block :=
  let t := b.srv.trng
  if trngStopped b || (decide (b.draws < t.reseedDraws + 65536) && decide (b.tick < t.reseedTick + 100000)) then b
  else setSrv (fun v => { v with trng := { v.trng with
    reseedDraws := b.draws, reseedTick := b.tick, reseeds := v.trng.reseeds + 1, discards := 0 } }) b

/-! ### Key blobs (R314 to R316) -/

/-- Bytes of a blob that its layout reserves. -/
def blobReserved (blob : Bytes) : Bool :=
  ((sliceBytes blob 28 4) ++ (sliceBytes blob 80 48)).any (· != 0)

/-- AES-256-GCM opening: the plaintext where the tag is right. -/
def gcmOpen (k : Key) (iv aad ct tag : Bytes) : Option Bytes := if gcmTag k iv aad ct = tag then some (gcmCrypt k iv ct) else none

/-- Unwrap a blob under a TPK: its 256-bit material (R314). -/
def unwrapBlob (tpk : Key) (blob : Bytes) : Option Key :=
  (gcmOpen tpk (sliceBytes blob 16 12) (sliceBytes blob 0 16) (sliceBytes blob 32 32) (sliceBytes blob 64 16)).map (ofBytes 256)

/-- The material of an accepted blob: the failing status, or the material and SERIAL (R316 steps 2 and 3). -/
def openBlob (sk : Skein) (blob : Bytes) : Except (BitVec 8) Key :=
  match sk.tpk with
  | none => .error cNotPermitted
  | some tpk => match unwrapBlob tpk blob with
    | none => .error cAuthFail
    | some m => if sk.serial.any fun n => decide (leField blob 4 4 ≤ n) then .error cNotPermitted else .ok m

/-- Entry `i` of a member list, with its member index; none where a reserved bit is set (R315). -/
def memberAt (bs : Bytes) (i : Nat) : Option (Nat × Member) :=
  let o := 24 * i
  let ep := leField bs (o + 18) 2
  let mi := leField bs (o + 20) 2
  if 512 ≤ ep || 16384 ≤ mi || leField bs (o + 22) 2 != 0 then none
  else some (mi, { device := ofBytes 128 (sliceBytes bs o 16), pod := leField bs (o + 16) 2, endpoint := ep })

/-- A member list of `n` entries; none where it breaks R315. -/
def memberList (bs : Bytes) (n : Nat) : Option (List (Nat × Member)) :=
  let es := (List.range n).map (memberAt bs)
  let ms := es.filterMap id
  if es.any (·.isNone) || !amSorted ms || !((ms.map fun m => m.2.device).Nodup) then none else some ms

/-- The bytes of a member list, as its extent holds them. -/
def memberBytes (ms : List (Nat × Member)) : Bytes :=
  ms.flatMap fun m => toBytes 16 m.2.device ++ leBytes 2 m.2.pod ++ leBytes 2 m.2.endpoint ++ leBytes 2 m.1 ++ zeroBytes 2

/-- Replace a skein's member list: its extent and what R220 does to sessions (R124, R316); QUOTA where it finds no room. -/
def installMembers (n : Nat) (ms : List (Nat × Member)) (b : Block) : BitVec 8 × Block :=
  let old := findExtent (.members n) b
  match writeExtent (.members n) (toLines (memberBytes ms)) b with
  | none => (cQuota, b)
  | some b =>
    let b := match old with
      | some e => setMem (fun m => { m with extents := m.extents.erase e }) b
      | none => b
    let b := modSkein n (fun s => { s with members := ms }) b
    let gone := b.fab.sessions.filter fun e => e.2.skein == n && !(e.2.kind == 2 && e.2.opener) && !(ms.any fun m => m.2.device == e.2.peer.device)
    let b := gone.foldl (fun b e => closeSess e.1 b) b
    (cOK, retireSess n (fun _ => true) b)

/-- Replace W or C and advance its generation (R220, R316). -/
def installSecret (combine : Bool) (n : Nat) (mat : Key) (b : Block) : Block :=
  let next (o : Option Secret) : Option Secret := some { key := mat, gen := match o with | some x => (x.gen + 1) % 256 | none => 1 }
  let b := modSkein n (fun s => if combine then { s with combine := next s.combine } else { s with weft := next s.weft }) b
  retireSess n (fun x => (x.kind == 1) == combine) b

/-! ### Key-table entries -/

/-- Epoch regions not in use (R107). -/
def freeRegions (b : Block) : List Nat := (List.range b.row.epochRegions).filter fun r => (amGet r b.mem.regions).isNone

/-- Install a memory key in the lowest FREE entry (R107, R305, R316): its key ID, or QUOTA. -/
def installKey (n : Nat) (cls : MemClass) (adv div : Nat) (mac : Bool) (mat : Key) (b : Block) : Except (BitVec 8) Nat × Block :=
  let quota := ((getSkein n b).map (·.keyQuota)).getD 0
  let free := (List.range 4031).find? fun i => (getKey (i + 1) b).isNone
  match free with
  | none => (.error cQuota, b)
  | some i =>
    let k := i + 1
    if quota ≤ (keysOf n b).length then (.error cQuota, b)
    else
      let put (region : Nat) (b : Block) : Block :=
        let e : KeyEntry := { st := .valid, skein := n, cls := cls, cur := some (mkGen k 1 mat b), kr := mkKr mat, region := region }
        setMem (fun m => { m with keys := amSet k e m.keys }) b
      if cls != .E then (.ok k, put 0 b)
      else match freeRegions b with
        | [] => (.error cQuota, b)
        | r0 :: rs =>
          let (c, b) := choose (rs.length + 1) b
          let r := (r0 :: rs).getD c r0
          let b := setMem (fun m => { m with
            regions := amSet r { keyId := k, skein := n, adv := adv, strobeDiv := div, macEn := mac } m.regions }) b
          (.ok k, put r b)

/-- Descriptors that next need a key ID. -/
def namesKey (k : Nat) (x : Desc) : Bool :=
  let d := x.raw
  let op := dOpcode d
  (op = 0x08 && fieldAt d 16 2 == k) || (op = 0x10 && raKey (fieldAt d 40 8) == k) || (op = 0x11 && raKey (fieldAt d 24 8) == k) ||
    (op = 0x12 && raKey (fieldAt d 24 8) == k) || (op = 0x18 && fieldAt d 18 2 == k && (fieldAt d 16 1).testBit 0) ||
    (op = 0x19 && fieldAt d 16 2 == k) || (op = 0x21 && fieldAt d 16 2 == k) ||
    (op = 0x30 && (raKey (fieldAt d 16 8) == k || raKey (fieldAt d 24 8) == k))

/-- Retire a key ID (R318): its users and its rotations complete with KEY_RETIRED, its generations and Kr go, its hanks are
revoked; `self` is the descriptor that retires it. -/
def retireKey (self : Option Nat) (k : Nat) (b : Block) : Block :=
  let region := match getKey k b with | some e => if e.cls = .E then some e.region else none | none => none
  let b := modKey k (fun e => { e with st := .retiring }) b
  let fired (i : Nat) : Bool := b.srv.seals.any fun s => s.desc == i && s.st != .armed
  let users := b.descs.filter fun x => namesKey k x && some x.id != self && !fired x.id
  let b := users.foldl (fun b x => finish x cKeyRetired b) b
  let b := reelDropKey k cKeyRetired b
  let b := match region with
    | some r => setMem (fun m => { m with regions := amMod r (fun x => { x with rots := [], advs := [] }) m.regions }) b
    | none => b
  let b := modKey k (fun e => { e with cur := none, prev := none, kr := 0 }) b
  let hs := (b.mem.hanks.filter fun e => e.2.keyId == k && e.2.st == .allocated).map (·.1)
  let b := hs.foldl (fun b h => absDropHank h (revokeHank self h b)) b
  freeKeys (dropStale b)

/-! ### Epoch advances -/

/-- Advance a region: the epoch rises by one, a queued rotation takes effect, and the generation before the previous epoch's is
erased (R112, R113). False: refused at the top of the range (R526). -/
def advanceRegion (r : Nat) (b : Block) : Bool × Block := match amGet r b.mem.regions with
  | none => (false, b)
  | some g =>
    if g.epoch = 0xFFFFFFFFFFFFFFFF then (false, raiseViews { cls := 2, skein := some g.skein } b)
    else
      let up (x : Region) : Region := { x with epoch := x.epoch + 1, reuse := false, lastAdv := some b.tick, rots := x.rots.drop 1 }
      let b := setMem (fun m => { m with regions := amMod r up m.regions }) b
      match g.rots with
      | [] => (true, modKey g.keyId (fun e => { e with prev := none }) b)
      | (d, mat) :: _ =>
        let b := installGen g.keyId mat b
        match d.bind fun i => findDesc i b with
        | some x => (true, finish x cOK b)
        | none => (true, b)

/-- The region may advance: it has made no advance in this microsecond (R112). -/
def mayAdvance (r : Nat) (b : Block) : Bool := match amGet r b.mem.regions with
  | some g => g.lastAdv != some b.tick
  | none => false

/-- Make the oldest waiting descriptor advance of a region (R112, R526). -/
def advanceNext (r : Nat) (b : Block) : Block := match amGet r b.mem.regions with
  | none => b
  | some g => match g.advs with
    | [] => b
    | d :: _ =>
      if !mayAdvance r b then b
      else
        let b := setMem (fun m => { m with regions := amMod r (fun x => { x with advs := x.advs.drop 1 }) m.regions }) b
        let (ok, b) := advanceRegion r b
        match d.bind fun i => findDesc i b with
        | some x => finish x (if ok then cOK else cQuota) b
        | none => b

/-- EPOCH_ADVANCE (R112). -/
def doEpochAdvance (region : Nat) (b : Block) : Block := advanceNext region b

/-! ### KEY_INSTALL -/

/-- Body fields of KEY_INSTALL (R371). -/
def kiKind (d : Line) : Nat := fieldAt d 16 1
def kiClass (d : Line) : Nat := fieldAt d 17 1
def kiAdv (d : Line) : Nat := fieldAt d 18 1
def kiDiv (d : Line) : Nat := fieldAt d 19 1
def kiMac (d : Line) : Nat := fieldAt d 20 1
def kiIndex (d : Line) : Nat := fieldAt d 21 1
def kiLength (d : Line) : Nat := fieldAt d 24 4

/-- ADVANCE, STROBE_DIV and MAC_EN that R108 allows for a region. -/
def regionParams (adv div mac : Nat) : Bool :=
  decide (adv ≤ 2) && decide (mac ≤ 1) && (if adv = 1 then div != 0 else div == 0) && (adv != 2 || mac == 1)

/-- The ring is the slot-class skein's (R26). -/
def slotClassRing (r : Ring) (b : Block) : Bool := match r with
  | .skein n => isSlotClass n b
  | .mgr => false

def keyInstallChecks (r : Ring) (d : Line) (b : Block) : Checks :=
  let k := kiKind d
  let memKey := k == 0
  { c3 := failIf (slotClassRing r b || (memKey && kiClass d == 2 && kiAdv d == 1)) cNotPermitted,
    c4 := bodyReserved d [(16, 1), (17, 1), (18, 3), (21, 1), (24, 4), (32, 8)] || decide (4 < k) ||
      (memKey && kiClass d != 1 && kiClass d != 2) || (!memKey && kiClass d != 0) ||
      (if memKey && kiClass d == 2 then !regionParams (kiAdv d) (kiDiv d) (kiMac d) else fieldAt d 18 3 != 0) ||
      (if k = 1 then decide (15 < kiIndex d) else kiIndex d != 0) ||
      (if k = 4 then kiLength d == 0 || decide (16384 < kiLength d) else kiLength d != 0) }

/-- Step 1 of R316: the blob agrees with the ring and the descriptor. -/
def blobAgrees (n : Nat) (d : Line) (blob : Bytes) : Bool :=
  leField blob 2 2 == n && leField blob 0 1 == kiKind d && leField blob 1 1 == kiClass d && leField blob 8 1 == kiAdv d &&
    leField blob 9 1 == kiDiv d && leField blob 10 1 == kiMac d && leField blob 11 1 == kiIndex d &&
    leField blob 12 4 == kiLength d && !blobReserved blob

/-- Record an accepted blob's SERIAL (R316 step 5). -/
def recordSerial (n : Nat) (blob : Bytes) (b : Block) : Block := modSkein n (fun s => { s with serial := some (leField blob 4 4) }) b

/-- Step 4 of R316: the status and the key ID of KIND 0. -/
def installBlob (n : Nat) (blob : Bytes) (mat : Key) (b : Block) : BitVec 8 × Nat × Block :=
  let kind := leField blob 0 1
  if kind = 0 then
    let cls : MemClass := if leField blob 1 1 = 2 then .E else .S
    match installKey n cls (leField blob 8 1) (leField blob 9 1) (leField blob 10 1 == 1) mat b with
    | (.ok k, b) => (cOK, k, b)
    | (.error st, b) => (st, 0, b)
  else if kind = 1 then
    let (r, b) := draw 128 b
    let t : TransferKey := { key := mat, rInst := r, exportN := 1 }
    (cOK, 0, modSkein n (fun s => { s with
      tkeys := amSet (leField blob 11 1) t s.tkeys, tkeysGone := s.tkeysGone.erase (leField blob 11 1) }) b)
  else if kind = 2 then (cOK, 0, installSecret false n mat b)
  else if kind = 3 then (cOK, 0, installSecret true n mat b)
  else
    let len := leField blob 12 4
    match gcmOpen mat (zeroBytes 12) (sliceBytes blob 0 16) (sliceBytes blob 128 (24 * len)) (sliceBytes blob (128 + 24 * len) 16) with
    | none => (cAuthFail, 0, b)
    | some bs => match memberList bs len with
      | none => (cInvalid, 0, b)
      | some ms => let (st, b) := installMembers n ms b; (st, 0, b)

/-- The blob that a command carries: what a DMA read of its BLOB address returned. -/
def blobOf : Instr → Bytes
  | .keyInstall _ _ blob => blob
  | .keyRotate _ _ blob => blob
  | _ => []

/-- The blocks of an unwrap by the key ladder engine, in tier 4, and those of a member list by the bulk AEAD service, in tier 5 (R309,
R314). The ledgers hold them as segments of the descriptor. -/
def ladderUnits (x : Desc) (blob : Bytes) (b : Block) : Block :=
  let slot := unitSlot (ringOwner x.ring) b
  let e := ledgerMsg slot x.index.toNat 0
  let b := submitLink false e slot 4 4 b
  if leField blob 0 1 = 4 then submitLink false e slot 5 ((24 * leField blob 12 4 + 15) / 16 + 2) b else b

/-- KEY_INSTALL's step on the key ladder (R316 steps 2 to 5). -/
def keyInstallStep (x : Desc) (b : Block) : Block :=
  let n := (ringOwner x.ring).getD 0
  let blob := blobOf x.cmd
  let b := ladderUnits x blob b
  match (getSkein n b).map fun s => openBlob s blob with
  | none => b
  | some (.error st) => finish x st b
  | some (.ok mat) =>
    let (st, k, b) := installBlob n blob mat b
    if st = cOK then complete x cOK (if leField blob 0 1 = 0 then resAt 12 2 k else 0) (recordSerial n blob b) else finish x st b

def startKeyInstall (x : Desc) (b : Block) : Block :=
  let n := (ringOwner x.ring).getD 0
  let b := readHost (some n) (fieldAt x.raw 32 8) (blobOf x.cmd).length b
  if ((getSkein n b).bind (·.tpk)).isNone then finish x cNotPermitted b
  else if !blobAgrees n x.raw (blobOf x.cmd) then finish x cInvalid b
  else if kiKind x.raw = 1 && trngStopped b then setPhase x.id .ready b
  else firmwareStep x keyInstallStep b

/-! ### KEY_ROTATE and DESCRIPTOR_ADVANCE -/

/-- RFLAGS of KEY_ROTATE (R371). -/
def krEpoch (d : Line) : Bool := (fieldAt d 18 1).testBit 0
def krBlob (d : Line) : Bool := (fieldAt d 18 1).testBit 1

def keyRotateChecks (r : Ring) (d : Line) (b : Block) : Checks :=
  { c3 := failIf (slotClassRing r b) cNotPermitted,
    c4 := bodyReserved d [(16, 2), (18, 1), (32, 8)] || decide (4096 ≤ fieldAt d 16 2) || decide (3 ≤ fieldAt d 18 1) ||
      (!krBlob d && fieldAt d 32 8 != 0),
    c7 := checkKey ((ringOwner r).getD 0) (fieldAt d 16 2) b }

/-- The earlier rotations of a class S key still hold its previous generation (R159). -/
def rotationLive (k : Nat) (b : Block) : Bool := ((getKey k b).bind (·.prev)).isSome

/-- Rotate a key with the material of a blob or none: class E at the next advance, class S by the Reel (R113, R158, R159). -/
def rotateKey (desc : Option Nat) (k : Nat) (mat : Option Key) (b : Block) : Block := match getKey k b with
  | none => b
  | some e =>
    if e.cls = .E then setMem (fun m => { m with regions := amMod e.region (fun r => { r with rots := r.rots ++ [(desc, mat)] }) m.regions }) b
    else
      let later := rotationLive k b
      let b := if later then b else installGen k mat b
      let q : RQueue := { change := .rotate k desc, deferred := later, mat := if later then mat else none }
      setMem (fun m => { m with reel := { m.reel with queue := m.reel.queue ++ [q] } }) b

/-- KEY_ROTATE's step on the key ladder: the blob, where one is named, and the rotation (R317). -/
def keyRotateStep (x : Desc) (b : Block) : Block :=
  let n := (ringOwner x.ring).getD 0
  let k := fieldAt x.raw 16 2
  if krBlob x.raw then
    let b := ladderUnits x (blobOf x.cmd) b
    match (getSkein n b).map fun s => openBlob s (blobOf x.cmd) with
    | none => b
    | some (.error st) => finish x st b
    | some (.ok mat) => rotateKey (some x.id) k (some mat) (setPhase x.id .effected (recordSerial n (blobOf x.cmd) b))
  else rotateKey (some x.id) k none (setPhase x.id .effected b)

/-- KEY_ROTATE with EPOCH: the advance, or its wait for the region's microsecond (R112, R526). -/
def startAdvance (x : Desc) (b : Block) : Block := match getKey (fieldAt x.raw 16 2) b with
  | none => finish x cNotPermitted b
  | some e =>
    if e.cls != .E || (match amGet e.region b.mem.regions with | some r => r.adv != 0 | none => true) then finish x cNotPermitted b
    else
      let b := setMem (fun m => { m with regions := amMod e.region (fun r => { r with advs := r.advs ++ [some x.id] }) m.regions }) b
      advanceNext e.region b

/-- A named blob is one of the skein, of KIND 0 and of the key's class, with the header that R314 gives such a blob (R317). -/
def rotateBlobAgrees (n : Nat) (cls : MemClass) (blob : Bytes) : Bool :=
  leField blob 2 2 == n && leField blob 0 1 == 0 && leField blob 1 1 == (if cls = .E then 2 else 1) && !blobReserved blob &&
    (if cls = .E then regionParams (leField blob 8 1) (leField blob 9 1) (leField blob 10 1) else leField blob 8 3 == 0) &&
    leField blob 11 1 == 0 && leField blob 12 4 == 0

def startKeyRotate (x : Desc) (b : Block) : Block :=
  let n := (ringOwner x.ring).getD 0
  let k := fieldAt x.raw 16 2
  let blob := blobOf x.cmd
  match checkKey n k b with
  | some st => finish x st b
  | none =>
    if krEpoch x.raw then startAdvance x b
    else if krBlob x.raw then
      let b := readHost (some n) (fieldAt x.raw 32 8) blob.length b
      if ((getSkein n b).bind (·.tpk)).isNone then finish x cNotPermitted b
      else if !((getKey k b).any fun e => rotateBlobAgrees n e.cls blob) then finish x cInvalid b
      else firmwareStep x keyRotateStep b
    else firmwareStep x keyRotateStep b

/-- A class S rotation that finds the Reel's queue full waits on its ring (R157). -/
def rotateWaits (d : Line) (b : Block) : Bool :=
  !krEpoch d && reelFull b && (match getKey (fieldAt d 16 2) b with | some e => e.cls == .S | none => false)

/-! ### KEY_RETIRE -/

def keyRetireChecks (r : Ring) (d : Line) (b : Block) : Checks :=
  let t := (fieldAt d 18 1).testBit 0
  { c4 := bodyReserved d [(16, 2), (18, 1), (19, 1)] || decide (4096 ≤ fieldAt d 16 2) || decide (2 ≤ fieldAt d 18 1) ||
      (t && fieldAt d 16 2 != 0) || (if t then decide (15 < fieldAt d 19 1) else fieldAt d 19 1 != 0),
    c7 := if t then none else checkKey ((ringOwner r).getD 0) (fieldAt d 16 2) b }

/-- An accepted message that has still to begin names a transfer key (R318). -/
def namesTkey (n i : Nat) (x : Desc) : Bool :=
  x.ring == .skein n && (x.phase == .ready || x.phase == .control) && (dOpcode x.raw == 0x10 || dOpcode x.raw == 0x11) && fieldAt x.raw 16 1 == i

/-- A transfer key goes; messages already accepted complete under it (R318). -/
def retireTkey (n i : Nat) (t : TransferKey) (b : Block) : Block :=
  let kept := if b.descs.any (namesTkey n i) then [(i, t)] else []
  modSkein n (fun s => { s with tkeys := amDel i s.tkeys, tkeysGone := i :: s.tkeysGone.erase i, tkeysKept := kept ++ amDel i s.tkeysKept }) b

/-- KEY_RETIRE of a key ID, or of a transfer key with TRANSFER (R318). -/
def startKeyRetire (x : Desc) (b : Block) : Block :=
  let n := (ringOwner x.ring).getD 0
  if (fieldAt x.raw 18 1).testBit 0 then
    let i := fieldAt x.raw 19 1
    match (getSkein n b).bind fun s => amGet i s.tkeys with
    | none => finish x cNotPermitted b
    | some t => finish x cOK (retireTkey n i t b)
  else match checkKey n (fieldAt x.raw 16 2) b with
    | some st => finish x st b
    | none => finish x cOK (retireKey (some x.id) (fieldAt x.raw 16 2) b)

def doKeyInstall (r : Ring) (d : Line) (blob : Bytes) (b : Block) : Block :=
  fetch r d 0x20 (.keyInstall r d blob) (keyInstallChecks r d) (fun _ => []) startKeyInstall b
def doKeyRotate (r : Ring) (d : Line) (blob : Bytes) (b : Block) : Block :=
  if rotateWaits d b then b
  else fetch r d 0x21 (.keyRotate r d blob) (keyRotateChecks r d) (fun _ => []) startKeyRotate b
def doDescriptorAdvance (r : Ring) (d : Line) (b : Block) : Block :=
  if rotateWaits d b then b
  else fetch r d 0x21 (.descriptorAdvance r d) (keyRotateChecks r d) (fun _ => []) startKeyRotate b
def doKeyRetire (r : Ring) (d : Line) (b : Block) : Block :=
  fetch r d 0x22 (.keyRetire r d) (keyRetireChecks r d) (fun _ => []) startKeyRetire b
def doTransferKeyRetire (r : Ring) (d : Line) (b : Block) : Block :=
  fetch r d 0x22 (.transferKeyRetire r d) (keyRetireChecks r d) (fun _ => []) startKeyRetire b

def execTrngHealthFail (consecutive : Bool) (s : State) : Out := onSettled (doTrngHealthFail consecutive) s
def execTrngRestart (pass : Bool) (s : State) : Out := onSettled (doTrngRestart pass) s
def execDrbgReseed (s : State) : Out := onBlock doDrbgReseed s
def execKeyInstall (r : Ring) (d : Line) (blob : Bytes) (s : State) : Out := onSettled (doKeyInstall r d blob) s
def execKeyRotate (r : Ring) (d : Line) (blob : Bytes) (s : State) : Out := onSettled (doKeyRotate r d blob) s
def execDescriptorAdvance (r : Ring) (d : Line) (s : State) : Out := onSettled (doDescriptorAdvance r d) s
def execEpochAdvance (region : BitVec 10) (s : State) : Out := onSettled (doEpochAdvance region.toNat) s
def execKeyRetire (r : Ring) (d : Line) (s : State) : Out := onSettled (doKeyRetire r d) s
def execTransferKeyRetire (r : Ring) (d : Line) (s : State) : Out := onSettled (doTransferKeyRetire r d) s

end Sys2Proof.Machine
end

