-- ==== Sys2Proof/Machine/Identity.lean ====
section
/-! DEFINITION. The unit's OTP, firmware measurements, keys and signatures, and the skein evidence record (10, 11, 16). -/

namespace Sys2Proof.Machine

def setDistaff (f : Distaff → Distaff) (b : Block) : Block := { b with dst := f b.dst }

/-! ### OTP (R347, R354, R355, R493) -/

/-- A 64-bit word of OTP, and as the two margin reads give it. -/
def otpWord (i : Nat) (b : Block) : BitVec 64 := amGetD 0 i b.dst.otp
def otpWeak (i : Nat) (b : Block) : BitVec 64 := amGetD 0 i b.dst.weak
/-- Bytes of OTP. -/
def otpBytes (off n : Nat) (b : Block) : Bytes := (List.range n).map fun j => byteAt (otpWord ((off + j) / 8) b) ((off + j) % 8)
/-- Burn bits of a word: OTP bits are only ever set (R494). -/
def otpBurn (i : Nat) (v : BitVec 64) (b : Block) : Block := setDistaff (fun d => { d with otp := amPut 0 i (amGetD 0 i d.otp ||| v) d.otp }) b
/-- Burn bytes at an offset that is a multiple of 8. -/
def otpBurnBytes (off : Nat) (bs : Bytes) (b : Block) : Block :=
  (List.range ((bs.length + 7) / 8)).foldl (fun b i => otpBurn (off / 8 + i) (ofBytes 64 (sliceBytes bs (8 * i) 8)) b) b

/-- Byte offset of the life-cycle area, and of its parts (R354, R493). -/
def lcBase : Nat := 0x100
/-- The anti-rollback counter: one more than the highest bit that is set, or reads differently at the margins (R347). -/
def arbCounter (b : Block) : Nat :=
  let w := (List.range 4).map fun i => (otpWord (64 + i) b ||| otpWeak (64 + i) b).toNat
  let v := sumNat (w.mapIdx fun i x => x * 2 ^ (64 * i))
  if v = 0 then 0 else v.log2 + 1
def serialOf (b : Block) : BitVec 128 := ofBytes 128 (otpBytes (lcBase + 480) 16 b)
/-- OP_EC and OP_PQ of operator record `i`. -/
def opRecord (i : Nat) (b : Block) : Bytes := otpBytes (lcBase + 288 + 96 * i) 96 b
def opWritten (i : Nat) (b : Block) : Bool := (opRecord i b).any (· != 0)
def opRevoked (i : Nat) (b : Block) : Bool := (byteAt (otpWord 94 b) 0).getLsbD i
/-- The unrevoked operator record (R353). -/
def opCurrent (b : Block) : Option Nat := [0, 1].find? fun i => opWritten i b && !opRevoked i b

/-! ### Firmware measurements (R326, R338, R339) -/

/-- H_FW of a bank: SHA-384 of its manifest bytes 0 to 127; zero when it is EMPTY. -/
def bankDigest (k : Bank) : Digest := if k.st = 0 then 0 else sha384 (sliceBytes k.img 0 128)
def bankSvn (k : Bank) : Nat := leField k.img 2 2
/-- Bank B is the running one. -/
def runsB (b : Block) : Bool := b.dst.bankB.st = 3 || b.dst.bankB.st = 4
def running (b : Block) : Bank := if runsB b then b.dst.bankB else b.dst.bankA
def otherBank (b : Block) : Bank := if runsB b then b.dst.bankA else b.dst.bankB
def setOther (k : Bank) (b : Block) : Block :=
  setDistaff (fun d => if runsB b then { d with bankA := k } else { d with bankB := k }) b
def setRunning (k : Bank) (b : Block) : Block :=
  setDistaff (fun d => if runsB b then { d with bankB := k } else { d with bankA := k }) b
def hFw (b : Block) : Digest := bankDigest (running b)

/-- Measurement block values by index (R326). -/
def measValue (i : Nat) (b : Block) : Bytes :=
  if i = 1 then toBytes 48 Config.romDigest
  else if i = 2 then toBytes 48 (hFw b)
  else if i = 3 then toBytes 48 (bankDigest (otherBank b))
  else if i = 4 then leBytes 1 (b2n (runsB b)) ++ leBytes 1 b.dst.bankA.st ++ leBytes 1 b.dst.bankB.st ++ [0] ++
    leBytes 2 (bankSvn (otherBank b)) ++ [0, 0]
  else if i = 5 then leBytes 1 b.row.code ++ [1, 4, 1]
  else if i = 6 then toBytes 4 b.regs.lockState
  else if i = 7 then leBytes 2 (bankSvn (running b)) ++ leBytes 2 (arbCounter b)
  else []
/-- Measurement value types (R326). -/
def measType (i : Nat) : Nat := [0x00, 0x01, 0x01, 0x83, 0x82, 0x85, 0x87].getD (i - 1) 0
/-- A block in the DMTF measurement format: index, specification 1, size, then type, size and value. -/
def measBlock (i : Nat) (b : Block) : Bytes :=
  let v := measValue i b
  leBytes 1 i ++ [1] ++ leBytes 2 (v.length + 3) ++ leBytes 1 (measType i) ++ leBytes 2 v.length ++ v

/-! ### Device and alias keys (R299, R300) -/

/-- Order of the curve P-384. -/
def p384Order : Nat :=
  0xFFFFFFFFFFFFFFFFFFFFFFFFFFFFFFFFFFFFFFFFFFFFFFFFC7634D81F4372DDF581A0DB248B0A77AECEC196ACCC52973
/-- d = (seed mod (n − 1)) + 1, the seed read big-endian as FIPS 186-5 does. -/
def ecScalar (seed : Bytes) : BitVec 384 := BitVec.ofNat 384 ((ofBytes 512 seed.reverse).toNat % (p384Order - 1) + 1)
def devScalar (b : Block) : BitVec 384 := ecScalar (kdf512 (keyBytes (b.dst.cdi0.getD 0)) "frexis devid" [])
def devSeed (b : Block) : Key := kdf (keyBytes (b.dst.cdi0.getD 0)) "frexis devid mldsa" []
def aliasScalar (b : Block) : BitVec 384 := ecScalar (kdf512 (keyBytes (b.dst.cdi1.getD 0)) "frexis alias" [])
def aliasSeed (b : Block) : Key := kdf (keyBytes (b.dst.cdi1.getD 0)) "frexis alias mldsa" []
/-- The first 16 bytes of SHA-384 of the DeviceID public key (R300). -/
def deviceIdOf (b : Block) : BitVec 128 := ofBytes 128 ((sha384Bytes (Config.ecPublic (devScalar b))).take 16)

/-- An ECDSA signature, r then s, 96 bytes; its nonce is a TRNG draw. -/
def signEc (d : BitVec 384) (h : Digest) (b : Block) : Bytes × Block :=
  (sliceBytes (Config.ecSign d b.draws h) 0 96, { b with draws := b.draws + 1 })
/-- An ML-DSA-87 signature of 4,627 bytes. -/
def signPq (seed : Key) (m : Bytes) : Bytes := sliceBytes (Config.mldsaSign seed m) 0 4627

/-- A skein's swapped state is wrapped under a key older than the current one (R345). -/
def oldWraps (b : Block) : Bool := b.skeins.any fun e => e.2.st == .swapped && decide (e.2.wrapGen < b.dst.swapGen)
/-- The previous swap wrapping key is kept while swapped state is wrapped under it (R345). -/
def dropOldSwap (b : Block) : Block := if oldWraps b then b else setDistaff (fun d => { d with prevSwap := none }) b

/-- CDI1 and what follows from it: D and the swap wrapping key (R299, R343). -/
def deriveCdi1 (b : Block) : Block := match b.dst.cdi0 with
  | none => b
  | some c0 =>
    let c1 := kdf (keyBytes c0) "frexis cdi1" (toBytes 48 (hFw b) ++ leBytes 1 b.row.code ++ toBytes 4 b.regs.lockState)
    let d := kdf (keyBytes c1) "frexis data" []
    let sw := kdf (keyBytes d) "frexis swap" (keyBytes b.nStart)
    dropOldSwap (setDistaff (fun x => { x with cdi1 := some c1, prevSwap := if x.swapGen = 0 then none else some x.swapKey, swapKey := sw, swapGen := x.swapGen + 1 }) { b with dataRoot := d })

/-! ### The skein evidence record (R329 to R333) -/

/-- KEYS (R331). -/
def evKeys (n : Nat) (b : Block) : Bytes :=
  ((b.mem.keys.filter fun e => e.2.skein == n && e.2.st != .swapped).flatMap fun e =>
    leBytes 2 e.1 ++ leBytes 1 (if e.2.cls = .E then 2 else 1) ++ leBytes 1 (genNum e.2.cur % 16 + 128 * b2n e.2.prev.isSome))

/-- SLOT_KINDS and SLOTS. -/
def evKinds (s : Skein) : Bytes := leBytes 16 (sumNat (s.meas.map fun e => (e.2.kind % 4) * 4 ^ e.1))
def evSlots (s : Skein) : Bytes := (List.range 64).flatMap fun i => toBytes 48 (amGetD {} i s.meas).value

/-- Record bytes 224 to 3,479: H_FW_TPK to SLOTS (R330, R333). -/
def evMiddle (s : Skein) (b : Block) : Bytes :=
  let members : Digest := if s.members = [] then 0 else sha384 (memberBytes s.members)
  toBytes 48 (if s.tpk.isSome then s.hFwTpk else 0) ++ toBytes 48 (if s.tpk.isSome then s.provisioner else 0) ++ toBytes 48 members ++
    toBytes 4 b.regs.lockState ++ leBytes 1 b.row.code ++
    leBytes 1 (b2n s.slotClass + 2 * b2n s.preemptible + 4 * b2n (s.tdi.st == .run)) ++ leBytes 1 s.weight ++ [0] ++
    leBytes 2 s.zones ++ leBytes 2 s.keyQuota ++ leBytes 4 s.hankQuota ++ leBytes 2 s.openLines ++ leBytes 2 s.fwChanges ++
    leBytes 2 (bankSvn (running b)) ++ leBytes 2 (arbCounter b) ++ evKinds s ++ evSlots s

/-- Record bytes 0 to 3,479 + 4 × KC (R330). -/
def evBody (n : Nat) (s : Skein) (nonce : Bytes) (b : Block) : Bytes :=
  let keys := evKeys n b
  leBytes 2 1 ++ leBytes 2 n ++ leBytes 1 (b2n (s.st == .resetting)) ++ leBytes 1 b.tim.quality ++ leBytes 2 (keys.length / 4) ++
    toBytes 8 b.tim.t ++ sliceBytes nonce 0 32 ++ toBytes 16 b.regs.deviceId ++ toBytes 16 b.regs.serial ++
    toBytes 48 Config.romDigest ++ toBytes 48 (hFw b) ++ toBytes 48 (bankDigest (otherBank b)) ++
    s.frozen.getD (evMiddle s b) ++ keys

/-- The signed record (R330, R332). -/
def evRecord (n : Nat) (s : Skein) (nonce : Bytes) (b : Block) : Bytes × Block :=
  let body := evBody n s nonce b
  let (ec, b) := signEc (aliasScalar b) (sha384 body) b
  (body ++ ec ++ signPq (aliasSeed b) (ascii "frexis skein" ++ body), b)

/-- The skein can give evidence: defined, not SWAPPED and not DESTROYING (R329). -/
def evSkein (n : Nat) (b : Block) : Option Skein := match getSkein n b with
  | some s => if s.st = .swapped || s.st = .destroying then none else some s
  | none => none

end Sys2Proof.Machine
end

