-- ==== Sys2Proof/Machine/Skeins.lean ====
section
/-! DEFINITION. Skeins: creation, shares, quiesce, reset, swap, destroy, the all-blocked rule and package-wide operations (R28 to
R30, R266 to R292). Choices marked in the log: DEDUCED 47, 51, 53, 54, 118, 120, 137, 147; DESIGN CHOICE 20, 31, 55, 100, 136. -/

namespace Sys2Proof.Machine

/-! ### Package-wide operations (R29, R30) -/

/-- A package-wide opcode on a follower's ring (R29). -/
def onFollower (b : Block) : Bool := !isLeader b

/-- The package-wide operation of a descriptor's number. -/
def pkgOf (id : Nat) (b : Block) : Option PkgOp := b.fab.pkgOps.find? fun p => p.desc == id
def dropPkg (id : Nat) (b : Block) : Block := setFab (fun f => { f with pkgOps := f.pkgOps.filter fun p => p.desc != id }) b

/-- The followers that have still to acknowledge an operation: all of them before it is open. -/
def pkgWaits (id : Nat) (b : Block) : List Nat := match pkgOf id b with
  | some p => p.waits
  | none => followersOf b

/-- Keep a package-wide operation of this die, the leader, open for its followers' acknowledgements; `since` arms its timeout (R30). -/
def openPkg (x : Desc) (drain since : Option Nat) (evs : MemEvs) (b : Block) : Block :=
  let ws := pkgWaits x.id b
  let p : PkgOp := { desc := x.id, index := x.index, drain := drain, evs := evs, waits := ws, since := since, limit := reqTicks b }
  if ws.isEmpty then b else setFab (fun f => { f with pkgOps := f.pkgOps ++ [p] }) (dropPkg x.id b)

/-- Complete a package-wide operation that is done here: the leader waits for its followers' acknowledgements (R30). -/
def packageDone (x : Desc) (st : BitVec 8) (res : BitVec 160) (forced : Bool) (b : Block) : Block :=
  if st != cOK || (pkgWaits x.id b).isEmpty then completeF x st res forced (dropPkg x.id b)
  else setPhase x.id (.followers st res forced) (openPkg x none (some b.tick) [] b)

/-! ### Slots and shares -/

/-- Slots that no skein holds. -/
def freeSlots (b : Block) : List Nat := (List.range b.row.slots).filter fun s => (slotSkein s b).isNone

/-- KEY_QUOTA summed over the defined skeins but one (R269). -/
def keyQuotaSum (but : Option Nat) (b : Block) : Nat :=
  sumNat ((b.skeins.filter fun e => some e.1 != but).map fun e => e.2.keyQuota)
/-- OPEN_LINES summed over the resident skeins but one (R195, R269). -/
def openSum (but : Option Nat) (b : Block) : Nat :=
  sumNat ((b.skeins.filter fun e => some e.1 != but && e.2.slot.isSome).map fun e => e.2.openLines)
/-- 8,191 selects 256 (R266). -/
def openLinesOf (v : Nat) : Nat := if v = 8191 then 256 else v

/-- The enabled zones as a mask, all and dedicated (R139). -/
def zoneMask (p : ZoneMap → Bool) (b : Block) : Nat := (b.mem.lay.zones.filter p).foldl (fun m z => m ||| 2 ^ z.zone) 0

/-- ZONES breaks R269 for a skein of the slot class or of another. -/
def zonesBad (slotClass : Bool) (zones : Nat) (b : Block) : Bool :=
  let ded := zoneMask (·.dedicated) b
  let ten := zoneMask (fun z => !z.dedicated) b
  if slotClass then zones != ded else zones &&& ten != zones

/-- KEY_QUOTA or OPEN_LINES outside its range (R269). -/
def rangesBad (keyQuota openLines : Nat) : Bool :=
  keyQuota == 0 || decide (256 < keyQuota) || (decide (4096 < openLines) && openLines != 8191)

/-- Reserved values of a ring field (R361). -/
def ringFieldBad (f top : Nat) : Bool := decide (top < f % 16) || f / 16 % 256 != 0

/-! ### SKEIN_CREATE and SHARE_SET -/

def scId (d : Line) : Nat := fieldAt d 16 2
def scFlags (d : Line) : Nat := fieldAt d 18 1
def scSlotClass (d : Line) : Bool := (scFlags d).testBit 0

def createChecks (d : Line) (b : Block) : Checks :=
  { c3 := failIf (onFollower b || (scSlotClass d && zoneMask (·.dedicated) b == 0)) cNotPermitted,
    c4 := bodyReserved d [(16, 2), (18, 1), (19, 1), (20, 2), (22, 2), (24, 4), (28, 2), (32, 8), (40, 8)] ||
      decide (1024 ≤ scId d) || decide (4 ≤ scFlags d) || zonesBad (scSlotClass d) (fieldAt d 20 2) b ||
      rangesBad (fieldAt d 22 2) (fieldAt d 28 2) || decide (2 ^ 20 ≤ fieldAt d 24 4) ||
      ringFieldBad (fieldAt d 32 8) 10 || ringFieldBad (fieldAt d 40 8) 11 }

/-- The skein that a SKEIN_CREATE defines in a slot (R269, R270). -/
def newSkein (d : Line) (slot : Nat) (b : Block) : Skein :=
  { slot := some slot, slotClass := scSlotClass d, preemptible := (scFlags d).testBit 1, weight := fieldAt d 19 1,
    zones := fieldAt d 20 2, hankQuota := fieldAt d 24 4, keyQuota := fieldAt d 22 2,
    openLines := openLinesOf (fieldAt d 28 2), ring := { sq := BitVec.ofNat 64 (fieldAt d 32 8), cq := BitVec.ofNat 64 (fieldAt d 40 8) },
    lastProgress := b.tick, tdi := amGetD {} (scId d) b.host.tdis }

/-- Define a skein in a slot, RESIDENT; a TDI that its index left is its own (R249, R270). -/
def createSkein (d : Line) (slot : Nat) (b : Block) : Block :=
  advanceBind slot (setSkSt (scId d) .resident
    (putSkein (scId d) (newSkein d slot b) { b with host := { b.host with tdis := amDel (scId d) b.host.tdis } }))

/-- The quotas that a SKEIN_CREATE asks for pass the block's (R269). -/
def createOver (d : Line) (b : Block) : Bool :=
  decide (4031 < keyQuotaSum none b + fieldAt d 22 2) || decide (b.row.openCap < openSum none b + openLinesOf (fieldAt d 28 2))

/-- SKEIN_CREATE (R269, R270). -/
def startCreate (x : Desc) (b : Block) : Block :=
  let d := x.raw
  let n := scId d
  if (getSkein n b).isSome || (scSlotClass d && (slotClassSkein b).isSome) then finish x cNotPermitted b
  else match freeSlots b with
    | [] => finish x cQuota b
    | s0 :: ss =>
      if createOver d b then finish x cQuota b
      else
        let (c, b) := choose (ss.length + 1) b
        let slot := (s0 :: ss).getD c s0
        packageDone x cOK (resAt 12 1 slot) false (createSkein d slot b)

/-- SELECT of SHARE_SET and whether it selects a field (R271, R371). -/
def ssSel (d : Line) (i : Nat) : Bool := (fieldAt d 18 1).testBit i

def shareChecks (d : Line) (b : Block) : Checks :=
  let slotCls := ((getSkein (scId d) b).map (·.slotClass)).getD false
  let moves := slotCls && ((getSkein (scId d) b).map (·.zones)) != some (fieldAt d 20 2)
  let off (i o n : Nat) : Bool := !ssSel d i && fieldAt d o n != 0
  { c4 := bodyReserved d [(16, 2), (18, 1), (19, 1), (20, 2), (22, 2), (24, 4), (28, 2)] || decide (1024 ≤ scId d) ||
      decide (32 ≤ fieldAt d 18 1) || off 0 19 1 || off 1 20 2 || off 2 22 2 || off 3 24 4 || off 4 28 2 ||
      (ssSel d 1 && (moves || zonesBad slotCls (fieldAt d 20 2) b)) ||
      rangesBad (if ssSel d 2 then fieldAt d 22 2 else 1) (if ssSel d 4 then fieldAt d 28 2 else 0) ||
      decide (2 ^ 20 ≤ fieldAt d 24 4),
    c6 := (getSkein (scId d) b).isNone }

/-- A skein's shares with the selected ones replaced (R271). -/
def sharesSet (d : Line) (s : Skein) : Skein :=
  { s with weight := if ssSel d 0 then fieldAt d 19 1 else s.weight, zones := if ssSel d 1 then fieldAt d 20 2 else s.zones,
           keyQuota := if ssSel d 2 then fieldAt d 22 2 else s.keyQuota, hankQuota := if ssSel d 3 then fieldAt d 24 4 else s.hankQuota,
           openLines := if ssSel d 4 then openLinesOf (fieldAt d 28 2) else s.openLines }

/-- A skein's new shares pass what the block has (R195, R271). -/
def sharesOver (n : Nat) (s : Skein) (b : Block) : Bool :=
  decide (4031 < keyQuotaSum (some n) b + s.keyQuota) || (s.slot.isSome && decide (b.row.openCap < openSum (some n) b + s.openLines))

/-- SHARE_SET (R51, R152, R195, R271). -/
def startShare (x : Desc) (b : Block) : Block :=
  let n := scId x.raw
  match getSkein n b with
  | none => finish x cNotPermitted b
  | some s =>
    if s.st = .destroying then finish x cNotPermitted b
    else if sharesOver n (sharesSet x.raw s) b then finish x cQuota b
    else finish x cOK (modSkein n (sharesSet x.raw) b)

/-! ### Drains (R273) -/

/-- The armed seal of a descriptor: it is no work that a drain waits for (R128, R273, R280). -/
def armedDesc (id : Nat) (b : Block) : Bool := b.srv.seals.any fun s => s.desc == id && s.st == .armed

/-- A fired seal of the skein runs. -/
def sealRuns (n : Nat) (b : Block) : Bool := b.srv.seals.any fun s => s.skein == n && s.st != .armed

/-- The drain of R273 is complete on this die. -/
def drained (n : Nat) (b : Block) : Bool :=
  !(b.descs.any fun x => x.ring == .skein n && !armedDesc x.id b) && !(b.fab.out.any fun r => r.skein == n) && !sealRuns n b &&
    !(b.mem.abs.any fun e => e.skein == n && e.dirty) &&
    (match getSkein n b with | some s => !(s.cells.any fun c => cellState c.2 == 1) | none => true)

/-- The Reel holds a window with lines of the skein (R165). -/
def reelHolds (n : Nat) (b : Block) : Bool := match b.mem.reel.taken with
  | some w => (getHank (w / hankBytes) b).skein == n && (getHank (w / hankBytes) b).st == .allocated
  | none => false

/-- The all-blocked rule learns how its victim's swap-out ended (R286). -/
def noteRule (stamp : Nat) (st : BitVec 8) (b : Block) : Block :=
  { b with rule := b.rule.map fun r => if r.stamp = stamp then { r with out := some st } else r }

/-- Answer a drain's descriptor: its completion, or an OK_LATE or later error record where its limit won (R274, R279). -/
def answerDrain (dr : Drain) (st : BitVec 8) (b : Block) : Block :=
  let b := noteRule dr.stamp st (dropPkg dr.stamp b)
  match dr.desc.bind fun i => findDesc i b with
  | some x => finish x st b
  | none =>
    if dr.late then
      postRecord .mgr
        { opcode := dr.opcode, status := if st = cOK then cOkLate else st, ringIndex := dr.index, kind := 1, result := 0 } b
    else b

/-- The descriptor is a FENCE_WAIT of another ring on a skein's fence. -/
def waitsOn (n : Nat) (x : Desc) : Bool := dOpcode x.raw == 3 && waitOwner x.ring x.raw == some n && x.ring != .skein n && !x.phase.isParked

/-- Release every waiter of other rings on a skein's fences, and with a destroy the accepted ones too that have not begun (R277, R289). -/
def releaseWaiters (n : Nat) (st : BitVec 8) (b : Block) : Block :=
  (b.descs.filter fun x => waitsOn n x && (st == cAborted || !x.phase.waits)).foldl
    (fun b x => complete x st (resAt 16 8 (getFence (some n) (fieldAt x.raw 18 2) b).value.toNat) b) b

/-- Close a skein's open accumulations, written back (R184, R277). -/
def closeAccs (evs : MemEvs) (n : Nat) (b : Block) : Block :=
  let hs := ((b.mem.abs.filter fun e => e.skein == n).map fun e => e.line / hankBytes).eraseDups
  let b := hs.foldl (fun b h => closeLines h b) b
  (b.mem.abs.filter fun e => e.skein == n && e.dirty).foldl (fun b e => delAbs e.line (absWriteBack evs e b)) b

/-- Write back and empty a slot's bobbin partition: its counter blocks, then the L1 nodes that these write-backs fetched too (R88). -/
def emptyPartition (evs : MemEvs) (slot : Nat) (b : Block) : Block :=
  let out (b : Block) : Block := flushMeta evs (fun _ e => e.part == some slot) b
  out (out b)

/-- A reset discards a skein's armed seals; their descriptors complete with a status (R277). -/
def dropArmed (n : Nat) (st : BitVec 8) (b : Block) : Block :=
  let gone := b.srv.seals.filter fun s => s.skein == n && s.st == .armed
  let b := gone.foldl (fun b s => match findDesc s.desc b with | some x => finish x st b | none => b) b
  setSrv (fun v => { v with seals := v.seals.filter fun s => !(s.skein == n && s.st == .armed) }) b

/-- A destroy discards the skein's armed seals and abandons their descriptors, which are counted and write no record (R138, R289 to R291). -/
def abandonArmed (n : Nat) (b : Block) : Block :=
  let mine (x : Desc) : Bool := x.ring == .skein n && armedDesc x.id b
  let k := (b.descs.filter mine).length
  modSkein n (fun s => { s with counts := { s.counts with abandoned := s.counts.abandoned + k } })
    (setSrv (fun v => { v with seals := v.seals.filter fun s => !(s.skein == n && s.st == .armed) })
      { b with descs := b.descs.filter fun x => !mine x })

/-- Standing checks of a skein end (R414). -/
def dropStanding (n : Nat) (b : Block) : Block := { b with standing := b.standing.filter fun c => c.ring != .skein n }

/-! ### Teardown (R289 to R291) -/

/-- Steps 4 and 5 of R289: everything of the skein goes, its index and slot are free, its hanks are revoked. -/
def teardown (evs : MemEvs) (n : Nat) (b : Block) : Block := match getSkein n b with
  | none => b
  | some s =>
    let gone := b.descs.filter fun x => x.ring == .skein n
    let b := { b with descs := b.descs.filter fun x => x.ring != .skein n }
    let b := gone.foldl (fun b x => dropHanks x.uses b) b
    -- references on other skeins' fences go with the waits
    let b := gone.foldl (fun b x => if x.phase.isParked then b else dropNamed x b) b
    let b : Block := dropWeft n (dropStanding n b)
    let b : Block := match s.slot with | some sl => rebind sl b | none => b
    let b : Block := (b.mem.abs.filter fun e => e.skein == n).foldl (fun b e => delAbs e.line b) b
    let b : Block := match s.slot with | some sl => emptyPartition evs sl b | none => b
    let b : Block := dropExtents (fun o => o == .members n || (match o with | .swap k _ => k == n | _ => false)) b
    let b : Block := setMem (fun m => { m with hw := m.hw.filter fun e => e.2.skein != some n }) b
    let ks := keysOf n b
    let b : Block := ks.foldl (fun b k => modKey k (fun e => { e with st := .retiring, skein := 1024 + n, cur := none, prev := none, kr := 0 })
      (reelDropKey k cKeyRetired b)) b
    let b : Block := setSrv (fun v => { v with
      aead := v.aead.filter fun m => m.skein != n, seals := v.seals.filter fun x => x.skein != n, tpks := amDel n v.tpks,
      slotList := if isSlotClass n b then none else v.slotList }) b
    let tdi := if s.tdi.st = .locked || s.tdi.st = .run then { s.tdi with st := .error } else s.tdi
    let b : Block := { b with
      host := { b.host with tdis := amPut {} n tdi b.host.tdis },
      skeins := amDel n b.skeins,
      lates := b.lates.filter fun l => l.ring != Ring.skein n && l.owner != some n,
      ladder := { b.ladder with mgrWait := b.ladder.mgrWait.filter fun w => w.1 != n } }
    -- every grant naming the skein is cleared (R388)
    let clear (fs : List (Nat × Fence)) : List (Nat × Fence) :=
      (fs.map fun e => (e.1, if e.2.grantee = some n then { e.2 with grantee := none } else e.2)).filter fun e => decide (e.2 ≠ {})
    let b : Block := { b with skeins := b.skeins.map fun e => (e.1, { e.2 with fences := clear e.2.fences }) }
    let hs := (b.mem.hanks.filter fun e => e.2.skein == n && e.2.st == .allocated).map (·.1)
    let b : Block := hs.foldl (fun b h => absDropHank h (revokeHank none h b)) b
    let b : Block := setMem (fun m => { m with hanks := m.hanks.map fun e =>
      if e.2.skein = n && e.2.st != .free then (e.1, { e.2 with skein := 1024 + n }) else e }) b
    disown n (dropOldSwap (freeKeys b))

/-- The destroy's own record (R291). -/
def destroyResult (c : DestroyCounts) : BitVec 160 :=
  resAt 12 4 c.completed ||| resAt 16 4 c.abandoned ||| resAt 20 4 c.dropped ||| resAt 24 4 c.refused

/-- End a destroy: step 4 and step 5, then its record (R289, R291). -/
def endDestroy (evs : MemEvs) (n : Nat) (b : Block) : Block := match getSkein n b with
  | none => b
  | some s =>
    let left := (b.descs.filter fun x => x.ring == .skein n).length
    let c := { s.counts with abandoned := s.counts.abandoned + left }
    let b := teardown evs n b
    (s.drains.filter fun dr => dr.kind == .destroy).foldl (fun b dr => match dr.desc.bind fun i => findDesc i b with
      | some x => packageDone x cOK (destroyResult c) (!dr.wasQuiesced) b
      | none => b) b

/-! ### Swap (R279 to R284) -/

/-- The open lines of a skein, held or spilled. -/
def openOf (n : Nat) (b : Block) : List AbsEntry := b.mem.abs.filter fun e => e.skein == n && e.acc.isSome

/-- The lines of the swapped state's items (R280): record, keys, fences, high-water entries, armed seals, contexts, open accumulations.
The spec lays the first six out by size alone: their content is a free value. -/
def swapItems (n : Nat) (b : Block) : List (Nat × List Line) :=
  let hw := (b.mem.hw.filter fun e => e.2.skein == some n).length
  let sl := (b.srv.seals.filter fun s => s.skein == n).length
  let cx := (b.srv.aead.filter fun m => m.skein == n).length
  let free (it len : Nat) : Nat × List Line := (it, (List.range len).map fun i => (Config.spoolData 256 (1024 * it + n) i).setWidth 512)
  let accs := (openOf n b).flatMap fun e => match e.acc with
    | some (_, _, _, _, as) => (List.range e.size).flatMap (spillLines as)
    | none => []
  [free 0 128, free 1 (2 * (keysOf n b).length), free 2 1024, free 3 ((hw + 3) / 4), free 4 sl, free 5 cx, (6, accs)].filter fun e => !e.2.isEmpty

/-- Write the swapped state's extents: none where the carve-out has too little room (R127). -/
def writeSwap (n : Nat) (b : Block) : Option Block :=
  (swapItems n b).foldl (fun acc it => acc.bind (writeExtent (.swap n it.1) it.2)) (some b)

/-- Free the extents of a skein's swapped state. -/
def dropSwap (n : Nat) (b : Block) : Block := dropExtents (fun o => match o with | .swap k _ => k == n | _ => false) b

/-- A skein's absorber entries leave for its swap-out: dirty ones are written back, open ones keep their accumulators, read back where
they are spilled (R195, R279). -/
def leaveAbsorber (evs : MemEvs) (n : Nat) (b : Block) : Block :=
  let b := (b.mem.abs.filter fun e => e.skein == n && !e.spilled).foldl (fun b e =>
    let b := if e.dirty then absWriteBack evs e b else b
    if e.acc.isNone then delAbs e.line b
    else modAbs e.line (fun e => { e with dirty := false, closeAt := none, idle := false }) b) b
  (b.mem.abs.filter fun e => e.skein == n && e.spilled).foldl (fun b e => (readSpill evs e b).2) b

/-- The open accumulations are in the swapped state: no absorber entry and no spill holds them. -/
def absAway (n : Nat) (b : Block) : Block :=
  (openOf n b).foldl (fun b e => dropExtents (fun o => o.spillFor e.line) (modAbs e.line (fun e => { e with spilled := true }) b)) b

/-- A swap-in restores the open accumulations to the absorber (R195, R282). -/
def absBack (evs : MemEvs) (n : Nat) (b : Block) : Block := (openOf n b).foldl (fun b e => absHold evs e b) b

/-- The key ladder engine's blocks that wrap or unwrap a skein's keys, 128 B for each key ID, in tier 4 (R280, R309). -/
def wrapUnits (n : Nat) (b : Block) : Block :=
  let slot := unitSlot (some n) b
  submitLink false (ledgerMsg slot 0 0) slot 4 (10 * (keysOf n b).length) b

/-- Steps 2 to 5 of a swap-out: the metadata and absorber entries leave, the state is written, the keys are wrapped and erased, and the slot
is free (R279, R280). -/
def swapOutStep (evs : MemEvs) (n : Nat) (b : Block) : BitVec 8 × Block := match getSkein n b with
  | none => (cNotPermitted, b)
  | some s =>
    let b := leaveAbsorber evs n b
    let b := match s.slot with | some sl => emptyPartition evs sl b | none => b
    let b := wrapUnits n b
    match writeSwap n b with
    | none => (cQuota, dropSwap n b)
    | some b =>
      let b := absAway n b
      let b := (keysOf n b).foldl (fun b k => modKey k (fun e => if e.st = .valid then { e with st := .swapped } else e) b) b
      let b := setMem (fun m => { m with hw := m.hw.map fun e => if e.2.skein = some n then (e.1, { e.2 with hist := [] }) else e }) b
      (cOK, setSkSt n .swapped (modSkein n (fun s => { s with slot := none, wrapGen := b.dst.swapGen }) b))

/-- The swap-outs of a skein are answered. -/
def answerSwapOut (n : Nat) (st : BitVec 8) (b : Block) : Block := match getSkein n b with
  | none => b
  | some s =>
    let b := modSkein n (fun s => { s with drains := s.drains.filter fun d => d.kind != .swapOut }) b
    (s.drains.filter fun d => d.kind == .swapOut).foldl (fun b d => answerDrain d st b) b

/-- The manager's key step for a skein's swap, in its turn on the ladder (R281, R310): at once where the engine is free. A swap-out that
waits there is past its drain (R34). -/
def managerStep (n : Nat) (run : Nat → Block → Block) (b : Block) : Block :=
  if ladderFree b then run n (takeLadder 2 b)
  else modSkein n (fun s => { s with drains := s.drains.map fun d => { d with atLadder := true } })
    { b with ladder := { b.ladder with mgrWait := b.ladder.mgrWait ++ [(n, b.tick)] } }

/-- The key step of a swap-out and its answer. -/
def swapOutEnd (evs : MemEvs) (n : Nat) (b : Block) : Block := let (st, b) := swapOutStep evs n b; answerSwapOut n st b

/-- Swap a drained skein out: its sessions close, its channels advance, its standing checks end; then the key step (R279). -/
def swapOutNow (evs : MemEvs) (n : Nat) (b : Block) : Block := match getSkein n b with
  | none => b
  | some s =>
    let b := dropStanding n (closeWeft n b)
    let b := match s.slot with | some sl => rebind sl (resolveChannel sl cKeyRetired b) | none => b
    managerStep n (swapOutEnd evs) b

/-- A drained skein is QUIESCED: its quiesces are answered, and a swap-out that waited on the drain goes on (R274, R279). -/
def endQuiesce (evs : MemEvs) (n : Nat) (drains : List Drain) (b : Block) : Block :=
  let b := setSkSt n .quiesced (modSkein n (fun s => { s with drains := s.drains.filter fun d => d.kind == .swapOut }) b)
  let b := (drains.filter fun d => d.kind == .quiesce).foldl (fun b d => answerDrain d cOK b) b
  if drains.any fun d => d.kind == .swapOut then swapOutNow evs n b else b

/-- Every follower has acknowledged one of the drains: theirs are complete too (R273). -/
def acked (drains : List Drain) (b : Block) : Bool :=
  drains.any fun d => match pkgOf d.stamp b with
    | some p => p.waits.isEmpty
    | none => true

/-- This die's own drain is complete, and waits for those of its followers (R30, R273). -/
def drainHere (evs : MemEvs) (drains : List Drain) (b : Block) : Block :=
  let done (p : PkgOp) : PkgOp :=
    { p with since := some (p.since.getD b.tick), limit := if p.since.isSome then p.limit else reqTicks b, evs := evs }
  setFab (fun f => { f with pkgOps := f.pkgOps.map fun p => if drains.any (fun d => d.stamp == p.desc) then done p else p }) b

/-- A resume waits for its followers: its drain's end would be lost (R274). -/
def resuming (n : Nat) (b : Block) : Bool :=
  b.descs.any fun x => x.phase == .agreeing && endsDrain x.raw && touches x.ring x.raw == some n

/-- A skein's drain is checked, and what it leads to proceeds (R273, R279, R289). A swap-out of a QUIESCED skein waits for its fired seals
alone (R138). -/
def tryDrain (evs : MemEvs) (n : Nat) (b : Block) : Block := match getSkein n b with
  | none => b
  | some s =>
    if s.st = .quiescing then
      if !drained n b || resuming n b then b
      else if acked s.drains b then endQuiesce evs n s.drains b
      else drainHere evs s.drains b
    else if s.st = .quiesced then
      let outs := s.drains.filter fun d => d.kind == .swapOut && !d.atLadder
      if outs.isEmpty || sealRuns n b then b
      else if acked outs b then swapOutNow evs n b
      else drainHere evs outs b
    else if s.st = .destroying then
      let late := s.drains.any fun d => d.kind == .destroy && d.late
      if (drained n b || late) && !sealRuns n b && !reelHolds n b then endDestroy evs n b else b
    else b

/-- Verify a swapped skein's extents (R282, R284); the status of the first line that fails. -/
def readSwap (evs : MemEvs) (n : Nat) (b : Block) : BitVec 8 × Block :=
  (b.mem.extents.filter fun e => match e.owner with | .swap k _ => k == n | _ => false).foldl (fun (acc : BitVec 8 × Block) e =>
    if acc.1 != cOK then acc
    else match readExtent evs e acc.2 with
      | (.ok _, b) => (cOK, b)
      | (.error st, b) => (st, b)) (cOK, b)

/-- The running swap-in of a skein. -/
def swapInDesc (n : Nat) (b : Block) : Option Desc :=
  b.descs.find? fun x => x.ring == .mgr && dOpcode x.raw == 0x44 && fieldAt x.raw 16 2 == n && x.phase == .running

/-- The lines of memory that a held command brought for its reads. -/
def evsOf : Instr → MemEvs
  | .skeinSwapOut _ _ evs => evs
  | .skeinSwapIn _ _ evs => evs
  | .skeinQuiesce _ _ evs => evs
  | .skeinResume _ _ evs => evs
  | .skeinReset _ _ evs => evs
  | .skeinDestroy _ _ evs => evs
  | _ => []

/-- Ticks of a drain: LIMIT, or DRAIN_LIMIT (R272). -/
def drainTicks (limit : Nat) (b : Block) : Nat := if limit = 0 then bitField b.regs.sknDrain 15 0 else limit

/-- Drains that an operation ends before they are complete: their descriptors complete with ABORTED and no record follows (R267, R274).
DESIGN CHOICE: the spec names no status for a quiesce that a resume or a destroy overtakes. -/
def endDrains (n : Nat) (b : Block) : Block := match getSkein n b with
  | none => b
  | some s =>
    let b := modSkein n (fun s => { s with drains := [] }) { b with ladder := { b.ladder with mgrWait := b.ladder.mgrWait.filter fun w => w.1 != n } }
    s.drains.foldl (fun b d => match d.desc.bind fun i => findDesc i b with
      | some x => finish x cAborted (dropPkg d.stamp b)
      | none => noteRule d.stamp cAborted (dropPkg d.stamp b)) b

/-- The skein is DESTROYING: drains under way end, its armed seals go, the waits of other rings on its fences are released and its late
waits are gone (R289). `x` is the destroy's descriptor, where it has one. -/
def beginDestroy (x : Option Desc) (n : Nat) (st : SkSt) (b : Block) : Block :=
  let dr : Drain :=
    { kind := .destroy, stamp := (x.map (·.id)).getD b.nextDesc, desc := x.map (·.id), index := (x.map (·.index)).getD 0, opcode := 0x42,
      deadline := (x.map (·.since)).getD b.tick + drainTicks 0 b, late := false, wasQuiesced := st == .quiesced || st == .swapped }
  let b := endDrains n b
  let b := abandonArmed n (setSkSt n .destroying (tdiFail n (modSkein n (fun s => { s with drains := [dr], counts := {} }) b)))
  let b := releaseWaiters n cAborted b
  { b with lates := b.lates.filter fun l => l.owner != some n }

/-- Destroy a skein: its drain is awaited, and of a SWAPPED one there is none (R289). -/
def destroySkein (x : Option Desc) (evs : MemEvs) (n : Nat) (b : Block) : Block := match getSkein n b with
  | none => b
  | some s =>
    if s.st = .destroying then b
    else if s.st = .swapped then
      let b := beginDestroy x n s.st b
      if reelHolds n b then b else endDestroy evs n b
    else tryDrain evs n (beginDestroy x n s.st b)

/-- Destroy a skein without a descriptor, as SKEIN_DESTROY would (R30, R284, R406). -/
def destroyNow (evs : MemEvs) (n : Nat) (b : Block) : Block := destroySkein none evs n b

/-- The key step of a swap-in and what follows it (R282, R284, R268): the status. State that fails destroys the skein; an extent that the whorls
do not agree on leaves it SWAPPED (R398). -/
def swapInStep (evs : MemEvs) (n : Nat) (b : Block) : BitVec 8 × Block := match getSkein n b with
  | none => (cNotPermitted, b)
  | some s => match readSwap evs n (wrapUnits n b) with
    | (st, b) =>
      if st = cWhorlSuspect then (st, modSkein n (fun s => { s with slot := none }) b)
      else if st != cOK then (cIntegrity, destroyNow evs n b)
      else
        let b := absBack evs n (dropSwap n b)
        let b := (keysOf n b).foldl (fun b k => modKey k (fun e => if e.st = .swapped then { e with st := .valid } else e) b) b
        let b := setSkSt n (if s.backQuiesced then .quiesced else .resident) (modSkein n (fun s => { s with
          heldTail := none, heldCq := none, heldAck := none }) b)
        let b := match s.heldTail with | some v => applyTail (.skein n) v b | none => b
        let b := match s.heldCq with | some v => applyHead (.skein n) v b | none => b
        let b := match s.heldAck with | some v => applyAck (.skein n) v b | none => b
        (cOK, dropOldSwap (progress n b))

/-- Complete a swap-in after its key step. -/
def swapInEnd (evs : MemEvs) (n : Nat) (b : Block) : Block :=
  let slot := ((getSkein n b).bind (·.slot)).getD 0
  let d := swapInDesc n b
  let (st, b) := swapInStep evs n b
  match d with
  | some x => complete x st (if st = cOK then resAt 12 1 slot else 0) b
  | none => b

/-- Take a slot for a swap-in (R282): QUOTA where there is none or the open entries would pass the capacity. -/
def takeSlot (n : Nat) (b : Block) : BitVec 8 × Block := match getSkein n b, freeSlots b with
  | some s, s0 :: ss =>
    if b.row.openCap < openSum (some n) b + s.openLines then (cQuota, b)
    else
      let (c, b) := choose (ss.length + 1) b
      let slot := (s0 :: ss).getD c s0
      (cOK, advanceBind slot (modSkein n (fun s => { s with slot := some slot }) b))
  | some _, [] => (cQuota, b)
  | none, _ => (cNotPermitted, b)

/-- The manager takes the engine for the step of a skein that waited from `since`; the longest wait is kept (R310). -/
def grantManager (since : Nat) (ws : List (Nat × Nat)) (b : Block) : Block :=
  let b := { b with ladder := { b.ladder with mgrWait := ws } }
  setRegs (fun r => { r with mgrWaitMax := max r.mgrWaitMax (min (b.tick - since) 65535) }) (takeLadder 2 b)

/-- The security firmware takes the engine; `is` still wait (R310). -/
def grantFirmware (is : List Nat) (b : Block) : Block := takeLadder 1 { b with ladder := { b.ladder with fwWait := is } }

/-- The manager's swap step: the swap-in of a SWAPPED skein that has its slot, or the swap-out that a QUIESCED one waits for (R267, R280,
R282). -/
def swapStep (evs : MemEvs) (n : Nat) (b : Block) : Block := match getSkein n b with
  | none => b
  | some s =>
    if s.st = .swapped && s.slot.isSome then swapInEnd evs n b
    else if s.st = .quiesced && s.drains.any (·.atLadder) then swapOutEnd evs n b
    else b

/-- The manager's turn: it waits, and the firmware does not or had the last turn (R310). -/
def managersTurn (b : Block) : Bool := !b.ladder.mgrWait.isEmpty && (b.ladder.fwWait.isEmpty || !b.ladder.lastMgr)

/-- KEY_LADDER_GRANT: the engine goes to a waiting owner for one step; while both wait, in turn (R310). -/
def doLadderGrant (evs : MemEvs) (keyStep : Desc → Block → Block) (b : Block) : Block :=
  if managersTurn b then match b.ladder.mgrWait with
    | [] => b
    | (n, since) :: ws => swapStep evs n (grantManager since ws b)
  else match b.ladder.fwWait with
    | [] => { b with ladder := { b.ladder with owner := 0 } }
    | i :: is => match findDesc i (grantFirmware is b) with
      | some x => keyStep x (grantFirmware is b)
      | none => grantFirmware is b

/-- The step that a descriptor waits to make on the ladder. -/
def ladderStep (x : Desc) (b : Block) : Block := if dOpcode x.raw = 0x20 then keyInstallStep x b else keyRotateStep x b

/-! ### SKEIN_QUIESCE -/

def sqMode (d : Line) : Nat := fieldAt d 18 1
def sqLimit (d : Line) : Nat := fieldAt d 20 2

/-- RELEASE_SLOT_CLASS of the operator's policy (R288, R452). -/
def slotReleased (b : Block) : Bool := b.tel.policy.testBit 2

def quiesceChecks (d : Line) (b : Block) : Checks :=
  { c3 := failIf (onFollower b || (sqMode d == 2 && isSlotClass (fieldAt d 16 2) b && !slotReleased b)) cNotPermitted,
    c4 := bodyReserved d [(16, 2), (18, 1), (20, 2)] || decide (1024 ≤ fieldAt d 16 2) || decide (2 < sqMode d),
    c6 := (getSkein (fieldAt d 16 2) b).isNone }

/-- The drain of a quiesce or a swap-out; its limit counts from acceptance (R272, R274). -/
def drainOf (kind : DrainKind) (x : Desc) (limit : Nat) (st : SkSt) (b : Block) : Drain :=
  { kind := kind, stamp := x.id, desc := some x.id, index := x.index, opcode := BitVec.ofNat 8 (dOpcode x.raw),
    deadline := x.since + drainTicks limit b, late := false, wasQuiesced := st == .quiesced, wasQuiescing := st == .quiescing }

/-- Begin a drain that leads to a quiesce or a swap-out (R272, R279); a swap-out of a QUIESCED skein has none to wait for but its fired
seals (R138, R279). -/
def beginDrain (kind : DrainKind) (x : Desc) (n limit : Nat) (evs : MemEvs) (s : Skein) (b : Block) : Block :=
  let b := modSkein n (fun k => { k with drains := k.drains ++ [drainOf kind x limit s.st b], backQuiesced := s.st == .quiesced }) b
  tryDrain evs n (openPkg x (some n) none evs (if s.st = .quiesced then b else setSkSt n .quiescing b))

/-- MODE 1 of SKEIN_QUIESCE: a resume ends the quiesce and what waits on its drain (R267, R274). -/
def resumeSkein (n : Nat) (b : Block) : Block := progress n (setSkSt n .resident (endDrains n b))

/-- MODE 2 of SKEIN_QUIESCE: steps 1 to 7 of a reset (R277). -/
def resetSkein (evs : MemEvs) (n : Nat) (b : Block) : Block := match getSkein n b with
  | none => b
  | some s =>
    let b := setSkSt n .resetting (modSkein n (fun s => { s with resetSince := b.tick, frozen := some (evMiddle s b) }) b)
    let b := abortLates (some n) none (releaseWaiters n cResetting b)
    let b := dropExtents (fun o => o == .members n) (dropWeft n b)
    let b := modSkein n (fun s => { s with weft := none, combine := none, members := [] }) b
    let b := match s.slot with | some sl => rebind sl (resolveChannel sl cKeyRetired b) | none => b
    let b := dropStanding n (dropArmed n cResetting (closeAccs evs n b))
    let zero (f : Fence) : Fence := { f with value := 0, error := false, code := 0 }
    let ring0 (p : RingPair) : RingPair :=
      { p with sqTail := 0, sqHead := 0, cqHead := 0, cqProd := 0, reserved := 0, lastWait := .none }
    let b := modSkein n (fun s => { s with
      fences := (s.fences.map fun e => (e.1, zero e.2)).filter fun e => decide (e.2 ≠ {}), ring := ring0 s.ring }) b
    tdiFail n b

/-- What this die does for a package-wide operation once its followers have applied it (R30): a resume, a reset or a swap-in. -/
def applyOp (evs : MemEvs) (x : Desc) (b : Block) : Block :=
  let n := fieldAt x.raw 16 2
  if dOpcode x.raw = 0x44 then managerStep n (swapInEnd evs) b
  else if sqMode x.raw = 2 then resetSkein evs n b
  else finish x cOK (resumeSkein n b)

/-- The followers apply a resume, a reset or a swap-in first, so that a TIMEOUT leaves nothing to undo on this die (R30). DESIGN CHOICE: the
spec gives no order among the instances. -/
def agree (evs : MemEvs) (x : Desc) (b : Block) : Block :=
  if (pkgWaits x.id b).isEmpty then applyOp evs x b else setPhase x.id .agreeing (openPkg x none (some b.tick) evs b)

/-- SKEIN_QUIESCE by its MODE (R272, R274, R277). -/
def startQuiesce (x : Desc) (b : Block) : Block :=
  let n := fieldAt x.raw 16 2
  let evs := evsOf x.cmd
  match getSkein n b with
  | none => finish x cNotPermitted b
  | some s =>
    if sqMode x.raw = 0 then
      if s.st = .resident || s.st = .quiescing then beginDrain .quiesce x n (sqLimit x.raw) evs s b
      else if s.st = .quiesced then packageDone x cOK 0 false b
      else finish x cNotPermitted b
    else if sqMode x.raw = 1 then
      if s.st = .quiescing || s.st = .quiesced then agree evs x b else finish x cNotPermitted b
    else if s.st = .quiesced then agree evs x b
    else finish x cNotPermitted b

/-- The running reset of a skein. -/
def resetDesc (n : Nat) (b : Block) : Option Desc :=
  b.descs.find? fun x => x.ring == .mgr && dOpcode x.raw == 0x41 && sqMode x.raw == 2 && fieldAt x.raw 16 2 == n && x.phase == .running

/-- SKEIN_RESET_DONE: the security firmware ends a reset (R277, R278). -/
def doResetDone (n : Nat) (b : Block) : Block := match getSkein n b with
  | none => b
  | some s =>
    if s.st != .resetting then b
    else
      let b := setSkSt n .quiesced (modSkein n (fun s => { s with frozen := none }) b)
      match resetDesc n b with
      | some x => finish x cOK b
      | none => b

/-- SKEIN_RESET_TIMEOUT: a reset that has not completed in 100 ms ends in a forced destroy (R406). -/
def doResetTimeout (evs : MemEvs) (n : Nat) (b : Block) : Block := match getSkein n b with
  | none => b
  | some s =>
    if s.st != .resetting || b.tick < s.resetSince + 100000 then b
    else
      let d := resetDesc n b
      let b := destroyNow evs n b
      match d with
      | some x => finish x cTimeout b
      | none => b

/-- A drain that its LIMIT has overtaken: its descriptor is still to be answered (R274, R279). -/
def drainDue (st : SkSt) (tick : Nat) (d : Drain) : Bool :=
  d.kind != .destroy && d.desc.isSome && decide (d.deadline ≤ tick) && st == .quiescing

/-- An accepted quiesce or swap-out that still waits for its turn, past its limit (R34, R274). -/
def heldDue (n : Nat) (b : Block) (x : Desc) : Bool :=
  (x.phase == .control || x.phase == .ready) && stopsFetch x.raw && dOpcode x.raw != 0x42 && touches x.ring x.raw == some n &&
    decide (x.since + drainTicks (sqLimit x.raw) b ≤ b.tick) && (dOpcode x.raw == 0x41 || !isSlotClass n b)

/-- Such an operation's limit wins: it completes, and its drain goes on without it (R274, R279). -/
def lateHeld (n : Nat) (b : Block) (x : Desc) : Block := match getSkein n b with
  | none => b
  | some s =>
    if s.st != .resident && s.st != .quiescing then b
    else
      let dr := drainOf (if dOpcode x.raw = 0x43 then .swapOut else .quiesce) x (sqLimit x.raw) s.st b
      let b := modSkein n (fun k => { k with drains := k.drains ++ [{ dr with desc := none, late := true }] }) b
      finish x cTimeout (openPkg x (some n) none [] (setSkSt n .quiescing b))

/-- QUIESCE_LIMIT_EXPIRY: LIMIT wins against the drain (R274, R279). -/
def doLimitExpiry (n : Nat) (b : Block) : Block := match getSkein n b with
  | none => b
  | some s =>
    let due := drainDue s.st b.tick
    let b := modSkein n (fun s => { s with drains := s.drains.map fun d => if due d then { d with late := true, desc := none } else d }) b
    let b := (s.drains.filter due).foldl (fun b d => match d.desc.bind fun i => findDesc i b with
      | some x => finish x cTimeout b
      | none => b) b
    (b.descs.filter (heldDue n b)).foldl (lateHeld n) b

/-! ### SKEIN_SWAP_OUT, SKEIN_SWAP_IN and SKEIN_DESTROY -/

def swapOutChecks (d : Line) (b : Block) : Checks :=
  { c3 := failIf (onFollower b) cNotPermitted,
    c4 := bodyReserved d [(16, 2), (20, 2)] || decide (1024 ≤ fieldAt d 16 2),
    c6 := (getSkein (fieldAt d 16 2) b).isNone }

/-- SKEIN_SWAP_OUT (R279). -/
def startSwapOut (x : Desc) (b : Block) : Block :=
  let n := fieldAt x.raw 16 2
  match getSkein n b with
  | none => finish x cNotPermitted b
  | some s =>
    if s.slotClass then finish x cNotPermitted b
    else if s.st = .resident || s.st = .quiesced then beginDrain .swapOut x n (fieldAt x.raw 20 2) (evsOf x.cmd) s b
    else finish x cNotPermitted b

def swapInChecks (d : Line) (b : Block) : Checks :=
  { c3 := failIf (onFollower b) cNotPermitted,
    c4 := bodyReserved d [(16, 2)] || decide (1024 ≤ fieldAt d 16 2),
    c6 := (getSkein (fieldAt d 16 2) b).isNone }

def startSwapIn (x : Desc) (b : Block) : Block :=
  let n := fieldAt x.raw 16 2
  if (getSkein n b).map (·.st) != some .swapped then finish x cNotPermitted b
  else match takeSlot n b with
    | (st, b) => if st != cOK then finish x st b else agree (evsOf x.cmd) x b

def destroyChecks (d : Line) (b : Block) : Checks :=
  { c3 := failIf (onFollower b || (isSlotClass (fieldAt d 16 2) b && !slotReleased b)) cNotPermitted,
    c4 := bodyReserved d [(16, 2)] || decide (1024 ≤ fieldAt d 16 2),
    c6 := (getSkein (fieldAt d 16 2) b).isNone }

/-- SKEIN_DESTROY: steps 1 to 3 of R289. -/
def startDestroy (x : Desc) (b : Block) : Block :=
  let n := fieldAt x.raw 16 2
  match getSkein n b with
  | none => finish x cNotPermitted b
  | some s =>
    if s.st = .destroying then finish x cNotPermitted b
    else destroySkein (some x) (evsOf x.cmd) n (openPkg x none none [] b)

/-- DRAIN_LIMIT_EXPIRY: a destroy's DRAIN_LIMIT has passed (R289). -/
def doDrainLimit (evs : MemEvs) (n : Nat) (b : Block) : Block := match getSkein n b with
  | none => b
  | some s =>
    if s.st != .destroying || !(s.drains.any fun d => d.kind == .destroy && decide (d.deadline ≤ b.tick)) then b
    else tryDrain evs n (modSkein n (fun s => { s with drains := s.drains.map fun d => { d with late := true } }) b)

def doSkeinCreate (r : Ring) (d : Line) (b : Block) : Block :=
  fetch r d 0x40 (.skeinCreate r d) (createChecks d) (fun _ => []) startCreate b
def doShareSet (r : Ring) (d : Line) (b : Block) : Block :=
  fetch r d 0x48 (.shareSet r d) (shareChecks d) (fun _ => []) startShare b
def doSkeinQuiesce (r : Ring) (d : Line) (cmd : Instr) (b : Block) : Block :=
  fetch r d 0x41 cmd (quiesceChecks d) (fun _ => []) startQuiesce b
def doSkeinDestroy (r : Ring) (d : Line) (evs : MemEvs) (b : Block) : Block :=
  fetch r d 0x42 (.skeinDestroy r d evs) (destroyChecks d) (fun _ => []) startDestroy b
def doSkeinSwapOut (r : Ring) (d : Line) (evs : MemEvs) (b : Block) : Block :=
  fetch r d 0x43 (.skeinSwapOut r d evs) (swapOutChecks d) (fun _ => []) startSwapOut b
def doSkeinSwapIn (r : Ring) (d : Line) (evs : MemEvs) (b : Block) : Block :=
  fetch r d 0x44 (.skeinSwapIn r d evs) (swapInChecks d) (fun _ => []) startSwapIn b

/-! ### The all-blocked rule (R286, R287) -/

/-- A skein has made no progress for BLOCK_TICKS. -/
def isBlocked (s : Skein) (b : Block) : Bool := decide (s.lastProgress + bitField b.regs.sknSched 31 16 ≤ b.tick)

/-- Outstanding FENCE_WAITs of blocked resident skeins on fences of SWAPPED skeins: (since, waiter, owner). -/
def outsideWaits (b : Block) : List (Nat × Nat × Nat) :=
  b.descs.filterMap fun x => match x.ring, x.phase with
    | .skein w, .waiting (some o) _ _ since _ =>
      if ((getSkein o b).map (·.st)) = some .swapped && ((getSkein w b).map fun s => s.slot.isSome && isBlocked s b).getD false then
        some (since, w, o) else none
    | _, _ => none

/-- Ticks for which a skein that the rule swapped in stays (R287). -/
def holdTicks (b : Block) : Nat := bitField b.regs.sknSched 47 32

/-- The rule applies: this die leads, the rule is on, no slot is free, every resident skein but the slot class's is blocked, and
it has not acted within HOLD_TICKS (R286, R287). -/
def allBlocked (b : Block) : Bool :=
  isLeader b && b.regs.sknSched.getLsbD 0 && (freeSlots b).isEmpty &&
    ((b.skeins.filter fun e => e.2.slot.isSome).all fun e => e.2.slotClass || isBlocked e.2 b) &&
    (match b.lastRule with | some t => decide (t + holdTicks b ≤ b.tick) | none => true)

/-- The oldest wait of a blocked skein on a SWAPPED one: (since, waiter, the skein to swap in); of equal ones the lower waiter's (R286). -/
def ruleChosen (b : Block) : Option (Nat × Nat × Nat) := argMin (fun w => w.1 * 1024 + w.2.1) (outsideWaits b)

/-- The resident skein that made progress longest ago, of those that the rule may swap out (R286, R287). -/
def ruleVictim (b : Block) : Option (Nat × Skein) :=
  argMin (fun e => e.2.lastProgress) (b.skeins.filter fun e => e.2.slot.isSome && !e.2.slotClass && !sealRuns e.1 b &&
    e.2.st != .destroying && e.2.st != .resetting &&
    (match e.2.ruleIn with | some t => decide (t + holdTicks b ≤ b.tick) | none => true))

/-- The rule ends, and reports both steps in a scheduler record (R286). -/
def endRule (r : RuleRun) (st1 st2 : BitVec 8) (b : Block) : Block :=
  let b := if st2 = cOK then modSkein r.chosen (fun s => { s with ruleIn := some b.tick }) b else b
  postRecord .mgr
    { opcode := 0, status := cOK, ringIndex := 0, kind := 5,
      result := resAt 12 2 r.victim ||| resAt 14 2 r.chosen ||| resAt 16 1 st1.toNat ||| resAt 17 1 st2.toNat ||| resAt 18 2 r.waiter }
    { b with rule := none }

/-- How the swap-in that the rule began has ended: none while it waits for the ladder (R282, R284). -/
def ruleInStatus (chosen : Nat) (b : Block) : Option (BitVec 8) := match getSkein chosen b with
  | none => some cIntegrity
  | some s => if s.st = .swapped then (if s.slot.isSome then none else some cWhorlSuspect)
    else if s.st = .destroying then some cIntegrity else some cOK

/-- The rule goes on once its victim is out: the chosen skein takes the slot and is swapped in, or the record carries why not (R286,
R287). DESIGN CHOICE: a swap-in that is not tried is reported as ABORTED, one of a skein no longer SWAPPED as NOT_PERMITTED. -/
def ruleStep (evs : MemEvs) (b : Block) : Block := match b.rule with
  | none => b
  | some r => match r.out with
    | none => b
    | some st1 =>
      if st1 != cOK then endRule r st1 cAborted b
      else if r.begun then match ruleInStatus r.chosen b with
        | none => b
        | some st2 => endRule r st1 st2 b
      else if (getSkein r.chosen b).map (·.st) != some .swapped then endRule r st1 cNotPermitted b
      else match takeSlot r.chosen b with
        | (st2, b) => if st2 != cOK then endRule r st1 st2 b
          else managerStep r.chosen (swapInEnd evs) { b with rule := some { r with begun := true } }
def ruleNext (evs : MemEvs) (b : Block) : Block := ruleStep evs (ruleStep evs b)

/-- The rule swaps a victim out as SKEIN_SWAP_OUT does, the followers' drains included, and then the chosen skein in (R286). DESIGN CHOICE:
its swap-out has no limit, and its followers' acknowledgements name index 0; they take the swap-in with it. -/
def beginRule (evs : MemEvs) (waiter chosen victim : Nat) (vs : Skein) (b : Block) : Block :=
  let stamp := b.nextDesc
  let dr : Drain :=
    { kind := .swapOut, stamp := stamp, desc := none, index := 0, opcode := 0x43, deadline := 0, late := false, wasQuiesced := vs.st == .quiesced,
      wasQuiescing := vs.st == .quiescing }
  let p : PkgOp := { desc := stamp, index := 0, drain := some victim, evs := evs, waits := followersOf b, since := none, limit := reqTicks b }
  let b := { b with lastRule := some b.tick, nextDesc := stamp + 1, rule := some { waiter := waiter, chosen := chosen, victim := victim, stamp := stamp } }
  let b := modSkein victim (fun s => { s with backQuiesced := vs.st == .quiesced, drains := s.drains ++ [dr] }) b
  let b := if p.waits.isEmpty then b else setFab (fun f => { f with pkgOps := f.pkgOps ++ [p] }) b
  tryDrain evs victim (if vs.st = .quiesced then b else setSkSt victim .quiescing b)

/-- ALL_BLOCKED_RULE (R286, R287): the rule begins where it applies, or what it began goes on. -/
def doAllBlocked (evs : MemEvs) (b : Block) : Block :=
  if b.rule.isSome then ruleNext evs b
  else if !allBlocked b then b
  else match ruleChosen b, ruleVictim b with
    | some (_, waiter, chosen), some (victim, vs) => ruleNext evs (beginRule evs waiter chosen victim vs b)
    | _, _ => b

/-! ### Followers (R30) -/

/-- The last follower has acknowledged a package-wide operation: its drain ends, or it is applied here, or it completes; where this die's own
part is still to come, that part completes it (R30). -/
def pkgWhole (p : PkgOp) (b : Block) : Block := match p.drain with
  | some n => tryDrain p.evs n b
  | none => match findDesc p.desc b with
    | none => dropPkg p.desc b
    | some x => match x.phase with
      | .followers st res forced => completeF x st res forced (dropPkg p.desc b)
      | .agreeing => applyOp p.evs { x with phase := .running } (setPhase x.id .running (dropPkg p.desc b))
      | _ => b

/-- FOLLOWER_ACK: a follower has applied a package-wide operation (R30). -/
def doFollowerAck (index : BitVec 16) (die : Nat) (b : Block) : Block :=
  match b.fab.pkgOps.find? fun p => p.index == index && p.waits.contains die with
  | none => b
  | some p =>
    let p' := { p with waits := p.waits.filter fun d => d != die }
    let b := setFab (fun f => { f with pkgOps := f.pkgOps.map fun q => if q.desc = p.desc then p' else q }) b
    if p'.waits.isEmpty then pkgWhole p' b else b

/-- Take back a drain: its skein is in the state that it had before (R30). -/
def undoDrain (n stamp : Nat) (b : Block) : Block := match getSkein n b with
  | none => b
  | some s =>
    let mine (d : Drain) : Bool := d.stamp == stamp
    let b := modSkein n (fun s => { s with drains := s.drains.filter fun d => !mine d }) b
    if s.st = .quiescing && !(s.drains.any fun d => mine d && d.wasQuiescing) && s.drains.all mine then
      progress n (setSkSt n .resident b) else b

/-- Undo what a package-wide operation did here (R30): a creation is destroyed, a drain is taken back, a swap-in leaves its slot. -/
def undoOp (evs : MemEvs) (x : Desc) (b : Block) : Block :=
  let n := fieldAt x.raw 16 2
  let op := dOpcode x.raw
  if op = 0x40 then destroyNow evs n b
  else if op = 0x44 then modSkein n (fun s => { s with slot := none }) b
  else undoDrain n x.id b

/-- PACKAGE_OP_TIMEOUT: a follower has not acknowledged within the weft request timeout (R30). -/
def doPackageTimeout (index : BitVec 16) (evs : MemEvs) (b : Block) : Block :=
  match b.fab.pkgOps.find? fun p => p.index == index && p.since.any (fun t => decide (t + p.limit ≤ b.tick)) with
  | none => b
  | some p => match findDesc p.desc b with
    | none => noteRule p.desc cTimeout ((p.drain.map fun n => undoDrain n p.desc).getD id (dropPkg p.desc b))
    | some x => match x.phase with
      | .followers st res forced =>
        if dOpcode x.raw = 0x42 then completeF x st res forced (dropPkg p.desc b)
        else finish x cTimeout (undoOp evs x (dropPkg p.desc b))
      | _ => finish x cTimeout (undoOp evs x (dropPkg p.desc b))

def execSkeinCreate (r : Ring) (d : Line) (s : State) : Out := onSettled (doSkeinCreate r d) s
def execShareSet (r : Ring) (d : Line) (s : State) : Out := onSettled (doShareSet r d) s
def execSkeinQuiesce (r : Ring) (d : Line) (evs : MemEvs) (s : State) : Out := onSettled (doSkeinQuiesce r d (.skeinQuiesce r d evs)) s
def execSkeinResume (r : Ring) (d : Line) (evs : MemEvs) (s : State) : Out := onSettled (doSkeinQuiesce r d (.skeinResume r d evs)) s
def execSkeinReset (r : Ring) (d : Line) (evs : MemEvs) (s : State) : Out := onSettled (doSkeinQuiesce r d (.skeinReset r d evs)) s
def execSkeinResetDone (skein : BitVec 10) (s : State) : Out := onSettled (doResetDone skein.toNat) s
def execSkeinResetTimeout (skein : BitVec 10) (evs : MemEvs) (s : State) : Out := onSettled (doResetTimeout evs skein.toNat) s
def execQuiesceLimitExpiry (skein : BitVec 10) (s : State) : Out := onSettled (doLimitExpiry skein.toNat) s
def execDrainComplete (skein : BitVec 10) (evs : MemEvs) (s : State) : Out := onSettled (tryDrain evs skein.toNat) s
def execSkeinDestroy (r : Ring) (d : Line) (evs : MemEvs) (s : State) : Out := onSettled (doSkeinDestroy r d evs) s
def execDrainLimitExpiry (skein : BitVec 10) (evs : MemEvs) (s : State) : Out := onSettled (doDrainLimit evs skein.toNat) s
def execSkeinSwapOut (r : Ring) (d : Line) (evs : MemEvs) (s : State) : Out := onSettled (doSkeinSwapOut r d evs) s
def execSkeinSwapIn (r : Ring) (d : Line) (evs : MemEvs) (s : State) : Out := onSettled (doSkeinSwapIn r d evs) s
def execKeyLadderGrant (evs : MemEvs) (s : State) : Out := onSettled (doLadderGrant evs ladderStep) s
def execAllBlockedRule (evs : MemEvs) (s : State) : Out := onSettled (doAllBlocked evs) s
def execFollowerAck (index : BitVec 16) (die : BitVec 2) (s : State) : Out := onSettled (doFollowerAck index die.toNat) s
def execPackageOpTimeout (index : BitVec 16) (evs : MemEvs) (s : State) : Out := onSettled (doPackageTimeout index evs) s

end Sys2Proof.Machine
end

