-- ==== Sys2Proof/Machine/Package.lean ====
section
/-! DEFINITION. The package: bring-up of the federation ports, and a follower's rejoin (R28, R30, R233 to R235). Choices marked in
the log: DEDUCED 99; DESIGN CHOICE 100. -/

namespace Sys2Proof.Machine

/-- The federation key: a leader draws it once, a follower takes the leader's (R233, R235). -/
def takeFedKey (key : Key) (b : Block) : Block :=
  let (d, b1) := draw 256 b
  if b.regs.leader && b.fab.fedKey.isNone then setFab (fun x => { x with fedKey := some d }) b1
  else if b.regs.leader then b else setFab (fun x => { x with fedKey := some key }) b

/-- The device of a die, beside this one's own. -/
def learnDie (die : Nat) (device : BitVec 128) (b : Block) : Block :=
  setFab (fun x => { x with dies := amSet die device (amSet b.regs.dieIndex b.regs.deviceId x.dies) }) b

/-- A follower takes the leader's slot assignments and binding counts, and destroys its skeins that the leader's list does not name (R30,
R235, R289). -/
def joinPackage (list : List (Nat × Option Nat)) (binds : List (Nat × Nat)) (b : Block) : Block :=
  if b.regs.leader then b
  else
    let gone := (b.skeins.filter fun e => !list.any fun x => x.1 == e.1).map (·.1)
    let b := gone.foldl (fun b n => destroyNow [] n b) b
    let b := list.foldl (fun b e => modSkein e.1 (fun s => if s.slot.isSome && e.2.isSome then { s with slot := e.2 } else s) b) b
    setFab (fun x => { x with pkgBinds := binds }) b

/-- The federation ports that reach a die in one hop (R233). -/
def hopPorts (die : Nat) (b : Block) : List (Nat × Nat) :=
  let me := b.regs.dieIndex
  if b.regs.pkgDies = 2 then [(28, die), (29, die)]
  else [(28, (me + 1) % b.regs.pkgDies), (29, (me + b.regs.pkgDies - 1) % b.regs.pkgDies)].filter fun e => e.2 == die

/-- A federation port opens under the keys of its two directions (R234). -/
def openHop (rands : BitVec 512) (b : Block) (e : Nat × Nat) : Block :=
  let f := b.fab.fedKey.getD 0
  let me := b.regs.dieIndex
  let p : FedPort :=
    { isOpen := true, die := e.2, tx := { key := fedKeyOf f me e.2 (e.1 - 28) 0 rands, num := 1 },
      rx := { key := fedKeyOf f e.2 me (if b.regs.pkgDies = 2 then e.1 - 28 else 29 - e.1) 0 rands }, lastRx := b.tick, loss := lossTicks b }
  setFab (fun x => { x with fed := amSet e.1 p x.fed }) b

/-- A die of the package that a bring-up may reach, while this one is in service: between followers only once the leader's key is here
(R28), and not once a transition has closed the ports (R358). -/
def bringsUp (die : Nat) (b : Block) : Bool :=
  decide (2 ≤ b.regs.pkgDies) && die != b.regs.dieIndex && decide (die < b.regs.pkgDies) && inService b &&
    (b.regs.leader || die == 0 || b.fab.fedKey.isSome) &&
    !(b.dst.lc.any (·.erased)) && !(b.dst.resetDue.any fun r => r.2 == 4)

/-- The messages of a bring-up that this die sends: its device ID and signed exchange, and as the leader F wrapped with the skein list, the
slot assignments and the binding counts (R235). -/
def sendBringup (die : Nat) (rands : BitVec 512) (b : Block) : Block :=
  let lead := b.regs.leader
  emit (.bringup die b.regs.deviceId (Config.fedExchange die rands) (if lead then Config.fedWrap (b.fab.fedKey.getD 0) rands else [])
    (if lead then b.skeins.map (·.1) else []) (if lead then b.skeins.filterMap fun e => e.2.slot.map fun s => (e.1, s) else [])
    (if lead then b.fab.pkgBinds else [])) b

/-- The exchange of a bring-up succeeds: a leader draws and sends F; a follower takes from the leader its key, its lists and the slots
(R28, R235). -/
def joinDie (die : Nat) (device : BitVec 128) (key : Key) (rands : BitVec 512) (list : List (Nat × Option Nat))
    (binds : List (Nat × Nat)) (b : Block) : Block :=
  let b := learnDie die device b
  let b := if b.regs.leader then takeFedKey key b
    else if die = 0 then joinPackage list binds (takeFedKey key b) else b
  (hopPorts die b).foldl (openHop rands) (sendBringup die rands b)

/-- FEDERATION_BRINGUP (R28, R30, R233, R235): one hop of the exchange ends. -/
def doBringup (die : Nat) (device : BitVec 128) (sigOk : Bool) (key : Key) (rands : BitVec 512) (list : List (Nat × Option Nat))
    (binds : List (Nat × Nat)) (b : Block) : Block :=
  if !bringsUp die b then b
  else if !sigOk || !b.fab.binding.contains device then
    raiseViews { cls := 3 } (setRegs (fun r => { r with fedStatus := setBits r.fedStatus 3 3 1 }) b)
  else
    let b := joinDie die device key rands list binds b
    pumpOut (fedStatusSync (setRegs (fun r => { r with fedStatus := setBits r.fedStatus 0 0 1 }) b))

def execFederationBringup (die : BitVec 2) (device : BitVec 128) (sigOk : Bool) (key : Key) (rands : BitVec 512)
    (skeinList : List (Nat × Option Nat)) (binds : List (Nat × Nat)) (s : State) : Out :=
  onFab (doBringup die.toNat device sigOk key rands skeinList binds) s

end Sys2Proof.Machine
end

