-- ==== Sys2Proof/Machine/Seals.lean ====
section
/-! DEFINITION. Scratchpad sealing: SEAL_OUT with ARM and FIRE, the fired seal, SEAL_IN (04, R128 to R138). Choices marked in the
log: DEDUCED 61, 62, 63, 64, 65; DESIGN CHOICE 20, 131. -/

namespace Sys2Proof.Machine

/-- Body fields of SEAL_OUT (R371). -/
def soArm (d : Line) : Bool := (fieldAt d 16 1).testBit 0
def soFire (d : Line) : Bool := (fieldAt d 16 1).testBit 1
def soKey (d : Line) : Nat := fieldAt d 18 2
def soLines (d : Line) : Nat := fieldAt d 20 4
def soBase (d : Line) : Nat := fieldAt d 24 8
/-- RESUME_FENCE or TARGET, and RESUME_VALUE or FIRE_TIME. -/
def soWord (d : Line) : Nat := fieldAt d 32 2
def soValue (d : Line) : Nat := fieldAt d 40 8

/-- The hanks bound to a key ID in ascending address order: the lines of its region (R107, R130). -/
def regionHanks (k : Nat) (b : Block) : List Nat :=
  (b.mem.hanks.filter fun e => e.2.keyId == k && e.2.st == .allocated).map (·.1)
/-- Lines of a region. -/
def regionLines (k : Nat) (b : Block) : Nat := 32768 * (regionHanks k b).length
/-- Address of a region's line `i`. -/
def regionLine (k i : Nat) (b : Block) : Nat := (regionHanks k b).getD (i / 32768) 0 * hankBytes + 64 * (i % 32768)

/-- The seal region of a key ID: class E with ADVANCE 2 and MAC_EN 1 (R128). -/
def sealRegion (k : Nat) (b : Block) : Option (Nat × Region) := match getKey k b with
  | none => none
  | some e => if e.cls != .E then none
    else (amGet e.region b.mem.regions).bind fun r => if r.adv = 2 && r.macEn then some (e.region, r) else none

/-- A scratchpad range is 64-B aligned and within SADDR (R371, R486). -/
def scratchBad (base lines : Nat) : Bool := base % 64 != 0 || decide (2 ^ 40 < base + 64 * lines)

def sealOutChecks (r : Ring) (d : Line) (b : Block) : Checks :=
  let n := (ringOwner r).getD 0
  let common := bodyReserved d [(16, 1), (18, 2), (20, 4), (24, 8), (32, 2), (40, 8)] ||
    (fieldAt d 16 1 != 1 && fieldAt d 16 1 != 2) || soLines d == 0 || scratchBad (soBase d) (soLines d)
  if soFire d && !soArm d then
    { c3 := failIf (!slotClassRing r b) cNotPermitted,
      c4 := common || soKey d != 0 || decide (1024 ≤ soWord d),
      c6 := (getSkein (soWord d) b).isNone }
  else
    let named := (checkKey n (soKey d) b).isNone
    { c4 := common || decide (4096 ≤ soKey d) || decide (4096 ≤ soWord d) ||
        (named && ((sealRegion (soKey d) b).isNone || decide (regionLines (soKey d) b < soLines d + 1))),
      c7 := checkKey n (soKey d) b }

/-- The region holds an armed or unconsumed seal (R135). -/
def regionTaken (k : Nat) (b : Block) : Bool :=
  b.srv.seals.any (fun s => s.keyId == k) || (match sealRegion k b with | some (_, r) => r.seald | none => false)

/-- The seal that a SEAL_OUT with ARM describes (R128). -/
def armedSeal (x : Desc) : Seal :=
  { desc := x.id, skein := (ringOwner x.ring).getD 0, keyId := soKey x.raw, base := soBase x.raw, lines := soLines x.raw,
    fence := soWord x.raw, value := soValue x.raw }

/-- SEAL_OUT with ARM: the seal is held until it is fired (R128, R135). -/
def startArm (x : Desc) (b : Block) : Block :=
  let b := dropStale b
  let d := x.raw
  if regionTaken (soKey d) b then finish x cNotPermitted b
  else if 64 ≤ (b.srv.seals.filter fun s => s.st == .armed).length then finish x cQuota b
  else
    setSrv (fun v => { v with seals := v.seals ++ [armedSeal x] }) b

/-- A seal passes to a state. -/
def setSeal (desc : Nat) (st : SealSt) (b : Block) : Block :=
  setSrv (fun v => { v with seals := v.seals.map fun y => if y.desc = desc then { y with st := st } else y }) b

/-- SEAL_OUT with FIRE: it schedules the armed seal that covers exactly its range (R129). -/
def startFire (x : Desc) (b : Block) : Block :=
  let b := dropStale b
  let d := x.raw
  let hit (s : Seal) : Bool := s.skein == soWord d && s.st == .armed && s.base == soBase d && s.lines == soLines d
  match getSkein (soWord d) b, b.srv.seals.find? hit with
  | some sk, some t =>
    if !sk.preemptible || sk.st = .swapped || sk.st = .destroying then finish x cNotPermitted b
    else setSeal t.desc (.fired x.id (BitVec.ofNat 64 (soValue d))) b
  | _, _ => finish x cNotPermitted b

/-- SEAL_OUT by its flags. -/
def startSealOut (x : Desc) (b : Block) : Block := if soArm x.raw then startArm x b else startFire x b

/-- Write zero to every line of a scratchpad range (R130, R133). -/
def zeroScratch (base lines : Nat) (b : Block) : Block :=
  (List.range lines).foldl (fun b i => emit (.swr (base + 64 * i) 0) b) b

/-- Seal lines are tier-3 work of their descriptor (R49, R131, R459). -/
def sealWork (d : Line) : Work := { descWork d with tier := 3 }
/-- The work of the SEAL_OUT with ARM that a seal belongs to. -/
def armWork (s : Seal) (b : Block) : Work := ((findDesc s.desc b).map fun x => sealWork x.raw).getD { tier := 3 }

/-- Read a seal's lines and write each to its region line; the count moved, and the failing status (R130, R133). DESIGN CHOICE: a scratchpad
read that fails gives INTEGRITY_FAIL, for the spec names no status. -/
def sealLines (evs : MemEvs) (wk : Work) (k : Nat) (data : List Line) (serr : Option Nat) : Nat → Nat → Block → Nat × BitVec 8 × Block
  | 0, i, b => (i, cOK, b)
  | n + 1, i, b =>
    if serr = some i then (i, cIntegrity, b)
    else
      let (st, b) := putLine evs wk (regionLine k (i + 1) b) (data.getD i 0) fullMask b
      if st = cOK then sealLines evs wk k data serr n (i + 1) b else (i, st, b)

/-- Count scratchpad bytes: sealed out at 880, restored at 888 (R455, R458). -/
def countSeal (n off lines : Nat) (b : Block) : Block := bumpGlob off (64 * lines) (bumpSk n 168 (64 * lines) b)

def dropSeal (desc : Nat) (b : Block) : Block := setSrv (fun v => { v with seals := v.seals.filter fun s => s.desc != desc }) b

/-- Complete a descriptor of a seal with the lines moved (R130, R133). -/
def sealAnswer (id : Nat) (st : BitVec 8) (moved : Nat) (b : Block) : Block := match findDesc id b with
  | some x => complete x st (resAt 12 4 moved) b
  | none => b

/-- A seal-out fails: both descriptors complete with its status, and both fences enter error (R133). -/
def sealFail (s : Seal) (fire : Nat) (st : BitVec 8) (moved : Nat) (b : Block) : Block :=
  let b := errorFence (some s.skein) s.fence st (dropSeal s.desc b)
  sealAnswer fire st moved (sealAnswer s.desc st moved b)

/-- The region can still be written: its key and its hanks are live. -/
def regionBar (s : Seal) (b : Block) : Option (BitVec 8) :=
  (checkKey s.skein s.keyId b).orElse fun _ =>
    if (sealRegion s.keyId b).isNone || decide (regionLines s.keyId b < s.lines + 1) then some cHankRevoked else none

/-- A fired seal's time has come, and its region may advance or can no longer be written (R112, R129). -/
def fireDue (n base : Nat) (b : Block) (s : Seal) : Bool := s.skein == n && s.base == base && match s.st with
  | .fired _ time => decide (time ≤ b.tim.t) && ((regionBar s b).isSome || (sealRegion s.keyId b).any fun e => mayAdvance e.1 b)
  | _ => false

/-- A seal whose lines have moved. -/
def movingAt (n base : Nat) (s : Seal) : Bool := s.skein == n && s.base == base && match s.st with
  | .moving _ _ _ => true
  | _ => false

/-- SEAL_FIRE_TIME: the region advances, the lines are sealed and the scratchpad is zeroed (R129, R130, R133). -/
def doFireTime (n base : Nat) (scratch : List Line) (serr : Option Nat) (evs : MemEvs) (b : Block) : Block :=
  match b.srv.seals.find? (fireDue n base b) with
  | none => b
  | some s => match s.st with
    | .fired fire _ =>
      let b := sampleTime 0x19 0 b
      let stamp := b.tim.t
      let q := b.tim.quality
      match regionBar s b, sealRegion s.keyId b with
      | some st, _ => sealFail s fire st 0 (zeroScratch s.base s.lines b)
      | none, none => b
      | none, some (r, _) =>
        let (ok, b) := advanceRegion r b
        if !ok then sealFail s fire cQuota 0 (zeroScratch s.base s.lines b)
        else
          let (moved, st, b) := sealLines evs (armWork s b) s.keyId scratch serr s.lines 0 b
          let b := countSeal s.skein 880 moved (zeroScratch s.base s.lines b)
          if st != cOK then sealFail s fire st moved b
          else setSeal s.desc (.moving fire stamp q) b
    | _ => b

/-- The seal record (R132). -/
def sealRecord (s : Seal) (epoch : BitVec 64) (gen : Nat) (stamp : BitVec 64) (quality : Nat) : Line :=
  let f (off n v : Nat) : Line := putAt 512 off n v
  f 0 8 epoch.toNat ||| f 8 8 s.base ||| f 16 4 s.lines ||| f 20 2 s.skein ||| f 22 2 s.keyId ||| f 24 1 (gen % 16) |||
    f 32 8 stamp.toNat ||| f 40 1 (quality % 4)

/-- The region holds an unconsumed seal, with the resume fence that its SEAL_IN signals (R128, R130, R135). -/
def endSeal (s : Seal) (region : Nat) (b : Block) : Block :=
  let b := setMem (fun m => { m with regions := amMod region (fun r => { r with seald := true }) m.regions }) b
  setSrv (fun v => { v with
    resumes := v.resumes.filter (fun x => x.region != region) ++ [{ region := region, lines := s.lines, fence := s.fence, value := s.value }] })
    (dropSeal s.desc b)

/-- SEAL_OUT_END: the record, the seal fence and both completions (R130). -/
def doSealOutEnd (n base : Nat) (evs : MemEvs) (b : Block) : Block :=
  match b.srv.seals.find? (movingAt n base) with
  | none => b
  | some s => match s.st with
    | .moving fire stamp q => match regionBar s b, sealRegion s.keyId b with
      | none, some (i, r) =>
        let gen := genNum ((getKey s.keyId b).bind (·.cur))
        let (st, b) := putLine evs (armWork s b) (regionLine s.keyId 0 b) (sealRecord s r.epoch gen stamp q) fullMask b
        if st != cOK then sealFail s fire st s.lines b
        else sealAnswer fire cOK s.lines (sealAnswer s.desc cOK s.lines (endSeal s i b))
      | some st, _ => sealFail s fire st s.lines b
      | none, none => b
    | _ => b

/-! ### SEAL_IN -/

def sealInChecks (r : Ring) (d : Line) (b : Block) : Checks :=
  let n := (ringOwner r).getD 0
  let k := fieldAt d 16 2
  { c4 := bodyReserved d [(16, 2), (24, 8)] || decide (4096 ≤ k) || scratchBad (fieldAt d 24 8) 0 ||
      ((checkKey n k b).isNone && (sealRegion k b).isNone),
    c7 := checkKey n k b }

/-- Restore a seal's lines, each only after it has verified; the count moved, and the failing status (R136, R137). DESIGN CHOICE: a
scratchpad write that fails gives INTEGRITY_FAIL, for the spec names no status of it. -/
def unsealLines (evs : MemEvs) (wk : Work) (k base : Nat) (serr : Option Nat) : Nat → Nat → Block → Nat × BitVec 8 × Block
  | 0, i, b => (i, cOK, b)
  | n + 1, i, b =>
    let a := regionLine k (i + 1) b
    if !(fixE k a b).2.2 then (i, cIntegrity, b)
    else match getLine evs wk a b with
      | (.error _, b) => (i, cIntegrity, b)
      | (.ok x, b) =>
        let b := emit (.swr (base + 64 * i) x) b
        if serr = some i then (i, cIntegrity, b) else unsealLines evs wk k base serr n (i + 1) b

/-- Whether a record agrees with its region and the descriptor (R136). -/
def recordAgrees (n k : Nat) (r : Region) (gen : Nat) (x : Line) (b : Block) : Bool :=
  fieldAt x 0 8 == r.epoch.toNat && fieldAt x 20 2 == n && fieldAt x 22 2 == k && fieldAt x 24 1 == gen % 16 &&
    fieldAt x 25 7 == 0 && fieldAt x 41 8 == 0 && fieldAt x 49 8 == 0 && fieldAt x 57 7 == 0 &&
    fieldAt x 16 4 != 0 && decide (fieldAt x 16 4 + 1 ≤ regionLines k b)

/-- What a SEAL_IN brought: a scratchpad write that failed, and its memory's differing lines. -/
def sealInOf : Instr → Option Nat × MemEvs
  | .sealIn _ _ serr evs => (serr.map (·.toNat), evs)
  | _ => (none, [])

/-- The region's seal is consumed, whatever comes of it (R135). -/
def consumeSeal (region : Nat) (b : Block) : Block :=
  setSrv (fun v => { v with resumes := v.resumes.filter fun y => y.region != region })
    (setMem (fun m => { m with regions := amMod region (fun r => { r with seald := false }) m.regions }) b)

/-- Lines of a SEAL_IN's target range where its record does not verify: those of the seal that Frexis keeps for the region. DESIGN CHOICE:
the range has the record's length (R136), which such a record does not give. -/
def targetLines (res : Option Resume) : Nat := (res.map (·.lines)).getD 0

/-- SEAL_IN: the record is checked, the lines are restored, the seal is consumed and the resume fence signalled or put into
error (R135 to R137). -/
def startSealIn (x : Desc) (b : Block) : Block :=
  let n := (ringOwner x.ring).getD 0
  let k := fieldAt x.raw 16 2
  let base := fieldAt x.raw 24 8
  let (serr, evs) := sealInOf x.cmd
  match checkKey n k b, sealRegion k b with
  | some st, _ => finish x st b
  | none, none => finish x cInvalid b
  | none, some (i, r) =>
    let res := b.srv.resumes.find? fun y => y.region == i
    let b := consumeSeal i b
    let fail (st : BitVec 8) (moved : Nat) (b : Block) : Block :=
      let b := match res with | some y => errorFence (some n) y.fence st b | none => b
      complete x st (resAt 12 4 moved) b
    if regionLines k b = 0 then fail cIntegrity 0 (zeroScratch base (targetLines res) b)
    else match getLine evs (sealWork x.raw) (regionLine k 0 b) b with
      | (.error _, b) => fail cIntegrity 0 (zeroScratch base (targetLines res) b)
      | (.ok rec, b) =>
        let gen := genNum ((getKey k b).bind (·.cur))
        let lines := fieldAt rec 16 4
        if !recordAgrees n k r gen rec b || scratchBad base lines then fail cIntegrity 0 (zeroScratch base (targetLines res) b)
        else
          let (moved, st, b) := unsealLines evs (sealWork x.raw) k base serr lines 0 b
          let b := countSeal n 888 moved b
          if st != cOK then fail st moved (zeroScratch base lines b)
          else match res with
            | none => complete x cOK (resAt 12 4 moved) b
            | some y =>
              let (c, b) := signalFence (some n) y.fence y.value b
              complete x c (resAt 12 4 moved) b

def doSealOut (r : Ring) (d : Line) (cmd : Instr) (b : Block) : Block :=
  fetch r d 0x18 cmd (sealOutChecks r d) (fun _ => []) startSealOut b
def doSealIn (r : Ring) (d : Line) (serr : Option (BitVec 32)) (evs : MemEvs) (b : Block) : Block :=
  fetch r d 0x19 (.sealIn r d serr evs) (sealInChecks r d) (fun _ => []) startSealIn b

def execSealArm (r : Ring) (d : Line) (s : State) : Out := onSettled (doSealOut r d (.sealArm r d)) s
def execSealFire (r : Ring) (d : Line) (s : State) : Out := onSettled (doSealOut r d (.sealFire r d)) s
def execSealFireTime (skein : BitVec 10) (base : BitVec 40) (scratch : List Line) (serr : Option (BitVec 32)) (evs : MemEvs) (s : State) : Out :=
  onSettled (doFireTime skein.toNat base.toNat scratch (serr.map (·.toNat)) evs) s
def execSealOutEnd (skein : BitVec 10) (base : BitVec 40) (evs : MemEvs) (s : State) : Out :=
  onSettled (doSealOutEnd skein.toNat base.toNat evs) s
def execSealIn (r : Ring) (d : Line) (serr : Option (BitVec 32)) (evs : MemEvs) (s : State) : Out := onSettled (doSealIn r d serr evs) s

end Sys2Proof.Machine
end

