-- ==== Sys2Proof/Machine/Aead.lean ====
section
/-! DEFINITION. The bulk AEAD service: IMPORT, EXPORT, DIGEST and the end of a message (02 R55 to R58, 10 R320 to R325). Choices
marked in the log: DEDUCED 66, 67, 145; DESIGN CHOICE 20. -/

namespace Sys2Proof.Machine

/-! ### The measured root (R323) -/

/-- Chunks of 1 MiB of a plaintext. -/
def chunks : Nat → Bytes → List Bytes
  | 0, _ => []
  | k + 1, bs => if bs = [] then [] else bs.take 1048576 :: chunks k (bs.drop 1048576)

def leafHash (i : Nat) (c : Bytes) : Digest := sha384 ([0] ++ leBytes 8 i ++ c)
def nodeHash (a c : Digest) : Digest := sha384 ([1] ++ toBytes 48 a ++ toBytes 48 c)

/-- The next level: a node of each adjacent pair; an unpaired last entry is carried up. -/
def nextLevel : List Digest → List Digest
  | a :: c :: l => nodeHash a c :: nextLevel l
  | l => l

/-- The single entry of the last level. -/
def rootOf : Nat → List Digest → Digest
  | 0, l => l.headD 0
  | k + 1, l => match l with
    | [a] => a
    | l => rootOf k (nextLevel l)

/-- The measured root of a plaintext (R323). -/
def measuredRoot (bs : Bytes) : Digest :=
  let cs := chunks (bs.length / 1048576 + 1) bs
  rootOf 64 (cs.mapIdx leafHash)

/-- A slot extended by a kind, a length and a root (R323). -/
def extendSlot (m : Meas) (kind len : Nat) (root : Digest) : Meas :=
  { value := sha384 (toBytes 48 m.value ++ leBytes 1 kind ++ leBytes 8 len ++ toBytes 48 root), count := m.count + 1, kind := kind }

/-- The kind of a slot is fixed at its first extension (R323). -/
def kindClash (n slot kind : Nat) (b : Block) : Bool := match (getSkein n b).bind fun s => amGet slot s.meas with
  | some m => m.kind != kind
  | none => false

/-- Extend a skein's slot. -/
def extendMeas (n slot kind len : Nat) (root : Digest) (b : Block) : Block :=
  modSkein n (fun s => { s with meas := amSet slot (extendSlot (amGetD {} slot s.meas) kind len root) s.meas }) b

/-! ### Contexts (R56, R57) -/

/-- Urgency of a message (R56). -/
def msgLevel (r : Ring) (len : Nat) (b : Block) : Nat := if slotClassRing r b then 2 else if len ≤ 4096 then 1 else 0

/-- No context of its level is free: 16 of the 256 are kept for levels 1 and 2 (R57). -/
def noContext (level : Nat) (b : Block) : Bool :=
  decide (256 ≤ b.srv.aead.length) || (level == 0 && decide (240 ≤ (b.srv.aead.filter fun m => m.level == 0).length))

/-! ### Checks -/

/-- LENGTH of a message: a multiple of 64 B from 64 B to 64 GiB − 64 B (R320). -/
def lenBad (len : Nat) : Bool := len % 64 != 0 || len == 0 || decide (2 ^ 36 - 64 < len)

/-- Check 7 for a transfer key (R318, R372). -/
def checkTkey (n i : Nat) (b : Block) : Option (BitVec 8) := match getSkein n b with
  | none => some cNotPermitted
  | some s => if (amGet i s.tkeys).isSome then none else if s.tkeysGone.contains i then some cKeyRetired else some cNotPermitted

/-- Checks 7 and 8 for a range under one key ID. -/
def checkRange (n ra len : Nat) (b : Block) : Option (BitVec 8) := checkHanks n (some (raKey ra)) (hanksOf (raAddr ra) len) b

def importChecks (r : Ring) (d : Line) (b : Block) : Checks :=
  let n := (ringOwner r).getD 0
  let ra := fieldAt d 40 8
  { c4 := bodyReserved d [(16, 1), (17, 1), (18, 1), (24, 8), (32, 8), (40, 8)] || decide (15 < fieldAt d 16 1) ||
      decide (63 < fieldAt d 17 1) || decide (2 < fieldAt d 18 1) || lenBad (fieldAt d 32 8) || ra % 64 != 0,
    c7 := (checkTkey n (fieldAt d 16 1) b).orElse fun _ => checkKey n (raKey ra) b,
    c8 := checkRange n ra (fieldAt d 32 8) b }

def exportChecks (r : Ring) (d : Line) (b : Block) : Checks :=
  let n := (ringOwner r).getD 0
  let ra := fieldAt d 24 8
  { c4 := bodyReserved d [(16, 1), (24, 8), (32, 8), (40, 8), (48, 16)] || decide (15 < fieldAt d 16 1) ||
      lenBad (fieldAt d 32 8) || ra % 64 != 0,
    c7 := (checkTkey n (fieldAt d 16 1) b).orElse fun _ => checkKey n (raKey ra) b,
    c8 := checkRange n ra (fieldAt d 32 8) b }

def digestChecks (r : Ring) (d : Line) (b : Block) : Checks :=
  let n := (ringOwner r).getD 0
  let ra := fieldAt d 24 8
  { c4 := bodyReserved d [(16, 1), (17, 1), (24, 8), (32, 8), (40, 8)] || decide (63 < fieldAt d 16 1) ||
      (fieldAt d 17 1 != 1 && fieldAt d 17 1 != 2) || lenBad (fieldAt d 32 8) || ra % 64 != 0,
    c7 := checkKey n (raKey ra) b,
    c8 := checkRange n ra (fieldAt d 32 8) b }

/-! ### IMPORT -/

/-- What a message command brought: the message that a DMA read of SOURCE returned, and its memory's differing lines. -/
def messageOf : Instr → Bytes × MemEvs
  | .importMsg _ _ msg evs => (msg, evs)
  | .exportMsg _ _ evs => ([], evs)
  | .digest _ _ evs => ([], evs)
  | _ => ([], [])

/-! ### Moving a message (R55, R56, R320 to R322) -/

/-- Submit blocks of a message as segments of at most 64; the last of a suspended message is cut short (R39, R55, R64). -/
def submitMsg (x : Desc) (pos blocks : Nat) (b : Block) : Block :=
  let n := (ringOwner x.ring).getD 0
  let slot := unitSlot (some n) b
  let b := bumpBucket n (dLayer x.raw) (dOperator x.raw) 24 blocks (bumpSk n 48 blocks b)
  (List.range ((blocks + 63) / 64)).foldl (fun b i =>
    submit false (ledgerMsg slot x.index.toNat (pos + 64 * i)) 0 slot 5 (min 64 (blocks - 64 * i)) b) b

/-- A block of the line under way. -/
def lineBlock (m : AeadMsg) : Bytes := sliceBytes (toBytes 64 m.line) (16 * (m.pos % 4)) 16

/-- The next block of an IMPORT: it is deciphered, and a line that it completes is written (R320, R322). -/
def importBlock (evs : MemEvs) (wk : Work) (ct : Bytes) (m : AeadMsg) (b : Block) : AeadMsg × Block :=
  let c := sliceBytes ct (16 * m.pos) 16
  let p := xorBytes c (gcmKeystream m.key m.iv m.pos)
  let m := { m with
    pos := m.pos + 1, acc := gcmHash m.key m.acc c,
    line := (if m.pos % 4 = 0 then 0 else m.line) ||| putAt 512 (16 * (m.pos % 4)) 16 (ofBytes 128 p).toNat }
  if m.pos % 4 != 0 then (m, b)
  else
    let (st, b) := putLine evs wk (m.addr + 16 * m.pos - 64) m.line fullMask b
    (if st = cOK then { m with moved := m.moved + 64 } else { m with status := st }, b)

/-- The next block of an EXPORT: it is enciphered, its line having been read (R321). -/
def exportBlock (evs : MemEvs) (wk : Work) (m : AeadMsg) (b : Block) : AeadMsg × Bytes × Block :=
  let (m, b) := if m.pos % 4 != 0 then (m, b) else match getLine evs wk (m.addr + 16 * m.pos) b with
    | (.error st, b) => ({ m with status := st }, b)
    | (.ok x, b) => ({ m with line := x }, b)
  if m.status != cOK then (m, [], b)
  else
    let c := xorBytes (lineBlock m) (gcmKeystream m.key m.iv m.pos)
    ({ m with pos := m.pos + 1, acc := gcmHash m.key m.acc c, moved := m.moved + 16 }, c, b)

/-- Run at most some blocks of a message: the context, and an EXPORT's ciphertext. -/
def runBlocks (evs : MemEvs) (wk : Work) (ct : Bytes) : Nat → AeadMsg → Block → AeadMsg × Bytes × Block
  | 0, m, b => (m, [], b)
  | k + 1, m, b =>
    if m.status != cOK || m.pos == m.blocks then (m, [], b)
    else
      let (m, c, b) := if m.toHost then exportBlock evs wk m b else let (m, b) := importBlock evs wk ct m b; (m, [], b)
      let (m, cs, b) := runBlocks evs wk ct k m b
      (m, c ++ cs, b)

/-- The ciphertext that an IMPORT's command brought. -/
def cipherOf (x : Desc) (m : AeadMsg) : Bytes := sliceBytes (messageOf x.cmd).1 32 (16 * m.blocks)

/-- Run blocks of a message from its saved context: the units, and the host reads or writes of what was done (R248). -/
def advanceMsg (x : Desc) (k : Nat) (m : AeadMsg) (b : Block) : AeadMsg × Block :=
  let (m', out, b) := runBlocks (messageOf x.cmd).2 (descWork x.raw) (cipherOf x m) k m b
  let b := submitMsg x m.pos (m'.pos - m.pos) b
  let at' := m.host + 16 * m.pos
  (m', if m.toHost then skeinWrite m.skein at' out b else readHost (some m.skein) at' (16 * (m'.pos - m.pos)) b)

/-- The message that the service runs: of the highest urgency, and among those the one accepted first; the others are suspended or have
not begun (R56). One of a skein whose TDI is in ERROR waits (R249). -/
def runningMsg (b : Block) : Option AeadMsg :=
  argMin (fun m => (2 - m.level) * 2 ^ 64 + m.desc) (b.srv.aead.filter fun m => !tdiError (.skein m.skein) b)

/-- Keep a message's context. -/
def saveMsg (m : AeadMsg) (b : Block) : Block :=
  setSrv (fun v => { v with aead := v.aead.map fun y => if y.desc = m.desc then m else y }) b

/-- The service's work in a tick: some blocks of the message that it runs, which stays at a block boundary. DESIGN CHOICE: their number is a
free value, since the spec gives rates alone. -/
def aeadTick (b : Block) : Block := match runningMsg b with
  | none => b
  | some m => match findDesc m.desc b with
    | none => b
    | some x => let (m, b) := advanceMsg x (Config.aeadRate b.tick) m b; saveMsg m b

/-- Open a message's context; its end comes with AEAD_MESSAGE_END. -/
def openMsg (m : AeadMsg) (b : Block) : Block := sampleTime 0x14 0 (setSrv (fun v => { v with aead := v.aead ++ [m] }) b)

/-- The transfer key that an accepted message runs under: a retired one is kept for it (R318). -/
def tkeyOf (n i : Nat) (b : Block) : Option TransferKey := (getSkein n b).bind fun s => (amGet i s.tkeys).orElse fun _ => amGet i s.tkeysKept
/-- A retired key goes once no accepted message has still to begin under it. -/
def dropKept (n i : Nat) (b : Block) : Block :=
  if b.descs.any (namesTkey n i) then b else modSkein n (fun s => { s with tkeysKept := amDel i s.tkeysKept }) b

/-- IMPORT (R320, R322). -/
def startImport (x : Desc) (b : Block) : Block :=
  let d := x.raw
  let n := (ringOwner x.ring).getD 0
  let msg := (messageOf x.cmd).1
  let len := fieldAt d 32 8
  let mkind := fieldAt d 18 1
  match tkeyOf n (fieldAt d 16 1) b with
  | none => finish x ((checkTkey n (fieldAt d 16 1) b).getD cNotPermitted) b
  | some t =>
    if leField msg 12 4 != 0 || (mkind != 0 && kindClash n (fieldAt d 17 1) mkind b) then finish x cInvalid b
    else
      openMsg { desc := x.id, skein := n, level := msgLevel x.ring len b, toHost := false, key := t.key, iv := sliceBytes msg 0 12,
                blocks := len / 16, acc := gcmHash t.key 0 (sliceBytes msg 16 16), aad := 16, addr := raAddr (fieldAt d 40 8),
                host := fieldAt d 24 8 + 32 }
        (readHost (some n) (fieldAt d 24 8) 32 (dropKept n (fieldAt d 16 1) b))

/-! ### EXPORT -/

/-- The 32-B header of an EXPORT (R321). -/
def exportHeader (rInst : BitVec 128) (n : BitVec 64) (len : Nat) : Bytes := toBytes 16 rInst ++ toBytes 8 n ++ leBytes 8 len

/-- The IV of an EXPORT: N and four zero bytes (R321). -/
def exportIv (n : BitVec 64) : Bytes := toBytes 8 n ++ zeroBytes 4

/-- An EXPORT uses up one N of its transfer key (R321). -/
def nextExport (n i : Nat) (t : TransferKey) (b : Block) : Block :=
  let up (_ : TransferKey) : TransferKey := { t with exportN := t.exportN + 1 }
  modSkein n (fun s => { s with tkeys := amMod i up s.tkeys, tkeysKept := amMod i up s.tkeysKept }) b

/-- EXPORT (R321): the header leaves at once, the ciphertext as it is made, the tag at the message's end. -/
def startExport (x : Desc) (b : Block) : Block :=
  let d := x.raw
  let n := (ringOwner x.ring).getD 0
  let len := fieldAt d 32 8
  let i := fieldAt d 16 1
  match tkeyOf n i b with
  | none => finish x ((checkTkey n i b).getD cNotPermitted) b
  | some t =>
    let key := kdf (keyBytes t.key) "frexis export" (toBytes 16 t.rInst)
    let hdr := exportHeader t.rInst t.exportN len
    let aad := hdr ++ toBytes 16 (BitVec.ofNat 128 (fieldAt d 48 16))
    openMsg { desc := x.id, skein := n, level := msgLevel x.ring len b, toHost := true, key := key, iv := exportIv t.exportN,
              blocks := len / 16, acc := gcmHash key 0 aad, aad := aad.length, addr := raAddr (fieldAt d 24 8), host := fieldAt d 40 8 + 32 }
      (skeinWrite n (fieldAt d 40 8) hdr (dropKept n i (nextExport n i t b)))

/-! ### DIGEST -/

/-- Read a range's lines in order; those read, and the status that stops it (R325). -/
def readLines (evs : MemEvs) (wk : Work) (addr : Nat) : Nat → Block → List Line × BitVec 8 × Block
  | 0, b => ([], cOK, b)
  | k + 1, b => match getLine evs wk addr b with
    | (.error st, b) => ([], st, b)
    | (.ok x, b) =>
      let (xs, st, b) := readLines evs wk (addr + 64) k b
      (x :: xs, st, b)

def lineBytes (xs : List Line) : Bytes := xs.flatMap fun x => toBytes 64 x

/-- DIGEST (R325). -/
def startDigest (x : Desc) (b : Block) : Block :=
  let d := x.raw
  let n := (ringOwner x.ring).getD 0
  let evs := (messageOf x.cmd).2
  let len := fieldAt d 32 8
  if kindClash n (fieldAt d 16 1) (fieldAt d 17 1) b then finish x cInvalid b
  else
    let (xs, st, b) := readLines evs (descWork d) (raAddr (fieldAt d 24 8)) (len / 64) b
    if st != cOK then finish x st b
    else
      let root := measuredRoot (lineBytes xs)
      let b := extendMeas n (fieldAt d 16 1) (fieldAt d 17 1) len root b
      let b := if fieldAt d 40 8 = 0 then b else skeinWrite n (fieldAt d 40 8) (toBytes 48 root) b
      finish x cOK b

/-- The N that an EXPORT used, from its IV. -/
def exportOf (m : AeadMsg) : Nat := leField m.iv 0 8

/-- An IMPORT's status at its end: what stopped it, or how its tag compares (R320, R322). -/
def importStatus (x : Desc) (m : AeadMsg) : BitVec 8 :=
  if m.status != cOK then m.status
  else if gcmFinish m.key m.iv m.acc m.aad (16 * m.blocks) == sliceBytes (messageOf x.cmd).1 (32 + 16 * m.blocks) 16 then cOK else cAuthFail

/-- An IMPORT ends: with OK it extends the slot that it names (R322, R323). -/
def endImport (x : Desc) (m : AeadMsg) (b : Block) : Block :=
  let slot := fieldAt x.raw 17 1
  let kind := fieldAt x.raw 18 1
  let st := importStatus x m
  let res := resAt 16 8 m.moved
  let b := if m.status = cOK then readHost (some m.skein) (m.host + 16 * m.blocks) 16 b else b
  if st != cOK || kind = 0 then complete x st res b
  else if kindClash m.skein slot kind b then complete x cInvalid res b
  else
    let root := measuredRoot (gcmCrypt m.key m.iv (cipherOf x m))
    complete x cOK res (extendMeas m.skein slot kind (16 * m.blocks) root b)

/-- An EXPORT ends: its tag follows the ciphertext, zero where a line stopped it (R321). -/
def endExport (x : Desc) (m : AeadMsg) (b : Block) : Block :=
  let tag := if m.status = cOK then gcmFinish m.key m.iv m.acc m.aad (16 * m.blocks) else zeroBytes 16
  complete x m.status (resAt 16 8 (exportOf m) ||| resAt 24 8 (48 + m.moved)) (skeinWrite m.skein (m.host + m.moved) tag b)

/-- The rest of a message runs, and it ends. -/
def endMsg (x : Desc) (m : AeadMsg) (b : Block) : Block :=
  let (m, b) := advanceMsg x (m.blocks - m.pos) m b
  let b := setSrv (fun v => { v with aead := v.aead.filter fun y => y.desc != m.desc }) b
  if m.toHost then endExport x m b else endImport x m b

/-- AEAD_MESSAGE_END: the message that the service runs ends, and the next in urgency resumes (R55, R56, R321 to R324). A message that
another has suspended does not end before it. -/
def doMessageEnd (r : Ring) (index : BitVec 16) (b : Block) : Block :=
  let b := dropStale b
  match descAt r index b, runningMsg b with
  | some x, some m => if m.desc = x.id then endMsg x m b else b
  | _, _ => b

/-- IMPORT and EXPORT wait on their ring until a context of their level frees (R57). -/
def messageWaits (r : Ring) (d : Line) (b : Block) : Bool :=
  (dOpcode d = 0x10 || dOpcode d = 0x11) && noContext (msgLevel r (fieldAt d 32 8) b) b

/-- Hanks whose USES a message takes (R372, R390). -/
def rangeUses (off : Nat) (d : Line) (_ : Block) : List Nat := hanksOf (raAddr (fieldAt d off 8)) (fieldAt d 32 8)

def doImport (r : Ring) (d : Line) (msg : Bytes) (evs : MemEvs) (b : Block) : Block :=
  let b := dropStale b
  if messageWaits r d b then b
  else fetch r d 0x10 (.importMsg r d msg evs) (importChecks r d) (rangeUses 40 d) startImport b
def doExport (r : Ring) (d : Line) (evs : MemEvs) (b : Block) : Block :=
  let b := dropStale b
  if messageWaits r d b then b
  else fetch r d 0x11 (.exportMsg r d evs) (exportChecks r d) (rangeUses 24 d) startExport b
def doDigest (r : Ring) (d : Line) (evs : MemEvs) (b : Block) : Block :=
  fetch r d 0x12 (.digest r d evs) (digestChecks r d) (rangeUses 24 d) startDigest b

def execImportMsg (r : Ring) (d : Line) (msg : Bytes) (evs : MemEvs) (s : State) : Out := onSettled (doImport r d msg evs) s
def execExportMsg (r : Ring) (d : Line) (evs : MemEvs) (s : State) : Out := onSettled (doExport r d evs) s
def execDigest (r : Ring) (d : Line) (evs : MemEvs) (s : State) : Out := onSettled (doDigest r d evs) s
def execAeadMessageEnd (ring : Ring) (index : BitVec 16) (s : State) : Out := onSettled (doMessageEnd ring index) s

end Sys2Proof.Machine
end

