-- ==== Sys2Proof/Machine/Mgmt.lean ====
section
/-! DEFINITION. The management paths: gates, errors and answers of SPDM and of Frexis's own groups (R250 to R259, R297, R359).
Choices marked in the log: DEDUCED 74, 144; DESIGN CHOICE 73, 115; PRESUMED 60. -/

namespace Sys2Proof.Machine

/-- Mandatory byte of the IBI that announces an MCTP packet (R252). -/
def ibiByte : Byte := 0xAE

/-- A message in transmission units of 64 B, numbered modulo 4 (R250). -/
def mctpUnits (path : Nat) (bs : Bytes) : List Output :=
  let n := (bs.length + 63) / 64
  (List.range n).map fun i => .mgmt path (i % 4) (i + 1 == n) ((bs.drop (64 * i)).take 64)

/-- Answer on the path a message came on (R251); on I3C an IBI announces the packet where the controller enabled it (R252). Path 3 is
the JTAG mailbox (R496). -/
def answer (path : Nat) (bs : Bytes) (b : Block) : Block :=
  if path = 3 then emit (.jtag bs) b else
  let b := (mctpUnits path bs).foldl (fun b o => emit o b) b
  if path = 0 && b.host.i3c.da.isSome && b.host.i3c.events % 2 == 1 then emit (.i3c [ibiByte]) b else b

/-- Code of an SPDM ERROR (R259). -/
def eInvalidRequest : Nat := 0x01
def eBusy : Nat := 0x03
def eUnspecified : Nat := 0x04
def eUnsupported : Nat := 0x07
def eSessionLimit : Nat := 0x0A
def eSessionRequired : Nat := 0x0B
def eVersion : Nat := 0x41

/-- An SPDM ERROR message: version 1.3, code 0x7F, the error code. -/
def spdmError (path code : Nat) (b : Block) : Block := answer path [0x13, 0x7F, BitVec.ofNat 8 code, 0] b

/-- Host ports of the row make the paths 1 to 2 (R250). -/
def pathExists (path : Nat) (b : Block) : Bool := decide (path ≤ b.row.hostPorts)

/-- A message of another type, or above 8,256 B, is dropped and counted (R250). -/
def dropMctp (path : Nat) (b : Block) : Block :=
  if asleep b || !b.dst.started || !pathExists path b then b else setHost (fun h => { h with mctpDrops := h.mctpDrops + 1 }) b

def getPath (p : Nat) (b : Block) : MgmtPath := amGetD {} p b.host.paths
def modPath (p : Nat) (f : MgmtPath → MgmtPath) (b : Block) : Block :=
  setHost (fun h => { h with paths := amPut {} p (f (amGetD {} p h.paths)) h.paths }) b

def findSpdm (path : Nat) (id : BitVec 32) (b : Block) : Option SpdmSess := b.host.sess.find? fun s => s.path == path && s.id == id
def modSpdm (path : Nat) (id : BitVec 32) (f : SpdmSess → SpdmSess) (b : Block) : Block :=
  setHost (fun h => { h with sess := h.sess.map fun s => if s.path = path && s.id = id then f s else s }) b
/-- A session ends: its held record and its staging area go (R336, R417). -/
def endSpdm (path : Nat) (id : BitVec 32) (b : Block) : Block :=
  let b := setHost (fun h => { h with sess := h.sess.filter fun s => !(s.path == path && s.id == id) }) b
  if path = 0 then setDistaff (fun d => { d with staging := match d.staging with
    | some (i, x) => if i = id then none else some (i, x)
    | none => none }) b
  else b
/-- Every session ends but one (R256, R356). -/
def endSessions (keep : Option (Nat × BitVec 32)) (b : Block) : Block :=
  (b.host.sess.filter fun s => keep != some (s.path, s.id)).foldl (fun b s => endSpdm s.path s.id b) b

/-- A completed secured session: session 0 stands for a message outside any. -/
def liveSess (path : Nat) (id : BitVec 32) (b : Block) : Option SpdmSess :=
  (findSpdm path id b).bind fun s => if s.live then some s else none

/-- The busy periods of the security firmware: activation and the controller's restart (R344, R407). -/
def firmwareBusy (b : Block) : Bool := b.regs.dstStatus.getLsbD 11 || b.fwRestart.isSome

/-- SPDM requests before their own rules: without a root, in SCRAP or LOST, and in a busy period (R259, R297, R344, R359, R407).
`version` marks GET_VERSION. -/
def spdmGate (path : Nat) (version : Bool) (k : Block → Block) (b : Block) : Block :=
  if asleep b || !b.dst.started || !pathExists path b then b
  else if lcDead b then (if version then k b else spdmError path eUnspecified b)
  else if unserved b then (if version && path == 0 then k b else spdmError path eUnspecified b)
  else if firmwareBusy b then spdmError path eBusy b
  else k b

/-! ### Frexis's own groups (R258) -/

/-- A response of a group: its payload in a VENDOR_DEFINED_RESPONSE with StandardID 4 and VendorID 0xF197. -/
def groupAnswer (path group op : Nat) (st : BitVec 8) (rest : Bytes) (b : Block) : Block :=
  let p : Bytes := leBytes 1 group ++ leBytes 1 op ++ [0, 0, st] ++ rest
  if path = 3 then answer 3 p b else
  answer path ([0x13, 0x7E, 0, 0] ++ leBytes 2 4 ++ [4] ++ leBytes 4 0x0000F197 ++ leBytes 2 p.length ++ p) b

/-- STATUS alone. -/
def groupStatus (path group op : Nat) (st : BitVec 8) (b : Block) : Block := groupAnswer path group op st [] b

/-- Who may send a group's messages (R258). -/
inductive GroupUse where
  /-- A secured session of a host port's path. -/
  | host
  /-- Any secured session of either path, or outside any where the operation allows it. -/
  | either
  /-- An operator session on I3C. -/
  | operator
deriving DecidableEq, Repr

/-- The ERROR that an entitlement failure gives (R258, R259): none when the sender is entitled. -/
def groupBar (use : GroupUse) (path : Nat) (sess : BitVec 32) (b : Block) : Option Nat := match use with
  | .host => if path = 0 then some eUnsupported else if (liveSess path sess b).isSome then none else some eSessionRequired
  | .either => if sess = 0 || (liveSess path sess b).isSome then none else some eSessionRequired
  | .operator =>
    if path != 0 then some eUnsupported
    else match liveSess path sess b with
      | none => some eSessionRequired
      | some s => if s.operator then none else some eUnsupported

/-- The operations of Frexis's groups, and who may send each group's (R258). -/
def groupOps (group : Nat) : List Nat :=
  if group = 0x10 then [1, 2] else if group = 0x20 || group = 0x50 then [1, 2, 3, 4] else if group = 0x30 then [1, 2, 3, 4, 5, 6, 0x10, 0x11, 0x12]
  else if group = 0x40 || group = 0x70 then [1, 2, 3, 4, 5] else if group = 0x60 then [1, 2, 3, 4, 5, 6, 7, 8] else []
def groupUse (group : Nat) : GroupUse := if group = 0x10 then .host else if group = 0x20 then .either else .operator

/-- A message above 8,256 B is dropped and counted (R250). One of no listed operation: the ERROR of R259 for its group's entitlement, UnsupportedRequest for an unlisted GROUP, and
InvalidRequest for an unlisted OP (DEDUCED: a field value out of range). One that is listed is another command's. -/
def otherGroup (path : Nat) (sess : BitVec 32) (msg : Bytes) (b : Block) : Block :=
  let g := leField msg 0 1
  if 8256 < msg.length then dropMctp path b
  else if (groupOps g).contains (leField msg 1 1) then b
  else spdmGate path false (fun b =>
    spdmError path (if groupOps g = [] then eUnsupported else (groupBar (groupUse g) path sess b).getD eInvalidRequest) b) b

/-- A group message: gates, entitlement, header and length, then the operation (R258, R259). `bad` is a malformed request. -/
def groupOp (use : GroupUse) (group op path : Nat) (sess : BitVec 32) (msg : Bytes) (size : Nat) (bad : Bool) (k : Block → Block)
    (b : Block) : Block :=
  if leField msg 0 1 != group || leField msg 1 1 != op || 8256 < msg.length then otherGroup path sess msg b
  else spdmGate path false (fun b => match groupBar use path sess b with
    | some e => spdmError path e b
    | none => if msg.length != size || leField msg 2 2 != 0 || bad then spdmError path eInvalidRequest b else k b) b

/-- Whether bytes of a message other than the listed (offset, size) fields are all zero. -/
def restZero (msg : Bytes) (from' upto : Nat) : Bool := (sliceBytes msg from' (upto - from')).all (· == 0)

end Sys2Proof.Machine
end

