-- ==== Sys2Proof/Machine/HostPort.lean ====
section
/-! DEFINITION. Host ports: IDE, IDE_KM, TDISP, configuration accesses and events (08, R238 to R249, R483). Choices marked in the
log: DEDUCED 43, 68, 69, 144; DESIGN CHOICE 17; PRESUMED 16, 70. -/

namespace Sys2Proof.Machine

/-! ### TDIs (R244 to R249) -/

/-- What waited for a TDI leaves ERROR with it: parked completions, and records held on chip (R249). -/
def unpark (n : Nat) (b : Block) : Block :=
  let ps := b.descs.filter fun x => x.ring == .skein n && x.phase.isParked
  let b := ps.foldl (fun b x => match x.phase with
    | .parked st res => complete x st res b
    | _ => b) b
  flushQueued 64 (.skein n) b

/-! ### IDE (R239 to R243) -/

/-- IDE_TLP_RECEIVE (R238, R241, R242). -/
def doIdeTlp (h i sub : Nat) (k : Bool) (hdr data mac : Bytes) (orderOk pcrcOk : Bool) (b : Block) : Block :=
  if b.row.hostPorts ≤ h || 64 < i || 2 < sub then b
  else if b.pwr.st != .active then emit (.tlp h (Config.stdBody 0 hdr)) b
  else if !b.dst.started then b
  else if !(getPort h b).flit then emit (.tlpIn h (hdr ++ data)) b
  else
    let s := getStream h i b
    let j := setIndex false sub k
    let drop (b : Block) : Block :=
      let b := modStream h i (fun s => { s with drops := s.drops + 1 }) b
      let (ns, b) := streamInsecure h i b
      ns.foldl (fun b n => raiseViews { cls := 4, skein := some n } b) b
    match amGet j s.sets with
    | none => drop b
    | some ks =>
      let b := submitLink false (ledgerLink (18 + h) i ks.ctr.toNat) noSlot 5 ((data.length + 15) / 16 + 1) b
      if !s.secure || !orderOk || !pcrcOk || (gcmTag ks.key (ideIv ks.ctr) hdr data).take 12 != mac || ks.ctr = 0xFFFFFFFFFFFFFFFF then drop b
      else
        let b := modStream h i (fun s => { s with sets := amSet j { ks with ctr := ks.ctr + 1 } s.sets }) b
        let b := bumpGlob (704 + 8 * h) data.length b
        emit (.tlpIn h (hdr ++ gcmCrypt ks.key (ideIv ks.ctr) data)) b

/-- The bits that a 4-byte access's lanes select. -/
def laneMask (be : BitVec 4) : BitVec 32 := BitVec.ofNat 32 (sumNat ((bitsOf 4 be.toNat).map fun i => 0xFF * 256 ^ i))

/-- The IDE Capability Register with what R239's table fixes: link and selective streams, PCRC, IDE_KM and configuration requests
supported; no aggregation, no partial header encryption; AES-256-GCM with the 96-bit MAC alone; 64 selective streams. The standard places
the fields (PRESUMED); those that the table does not name are free. -/
def ideCapReg (row func : Nat) : BitVec 32 :=
  BitVec.ofNat 32 (0x003F00E3) ||| (Config.cfgFixed row func 1 &&& 0xFF00E004)
/-- A Selective IDE Stream Capability Register: how many address association blocks the stream has, up to 4 (R239). -/
def selCapReg (row func i : Nat) : BitVec 32 := BitVec.ofNat 32 ((Config.cfgFixed row func (Config.ideBlock i)).toNat % 5)
/-- Stream Status Register: state 2 Secure, 0 Insecure. -/
def ideStatus (s : IdeStream) : BitVec 32 := if s.secure then 2 else 0

/-- A Stream Control Register of the link stream or a selective one. -/
def isStreamControl (dw : Nat) : Bool := dw == Config.ideBlock 64 || (List.range 64).any fun i => dw == Config.ideBlock i + 1

/-- What a register of the capability reads as whatever is written: the fields that R239 or a stream's state fixes, and the
standard's own elsewhere. `dw` is the dword from the capability's start. -/
def cfgFixedBits (h func dw : Nat) (b : Block) : BitVec 32 :=
  if dw = 1 then ideCapReg b.row.code func
  else match (List.range 64).find? fun i => dw == Config.ideBlock i || dw == Config.ideBlock i + 2 with
    | some i => if dw = Config.ideBlock i then selCapReg b.row.code func i else ideStatus (getStream h i b)
    | none =>
      if dw = Config.ideBlock 64 + 1 then ideStatus (getStream h 64 b)
      else if isStreamControl dw then Config.cfgFixed b.row.code func dw &&& 0xFFF80303
      else Config.cfgFixed b.row.code func dw

/-- Bits of a register that a write changes: none of the capability and status registers, the standard's elsewhere. Control fields for
aggregation and partial header encryption stay 0 (R239). -/
def cfgWritable (dw : Nat) : BitVec 32 :=
  if dw = 1 || (List.range 64).any (fun i => dw == Config.ideBlock i || dw == Config.ideBlock i + 2) || dw = Config.ideBlock 64 + 1 then 0
  else if isStreamControl dw then Config.cfgMask dw &&& 0xFFF80303
  else Config.cfgMask dw

/-- CFG_ACCESS: the IDE Extended Capability of a function, at IDE_CAP_OFFSET of its configuration space (R239, R483). A read gives the
bits written where they are writable, and the fixed ones elsewhere. -/
def doCfgAccess (h func off : Nat) (read : Bool) (data : BitVec 32) (be : BitVec 4) (b : Block) : Block :=
  if b.row.hostPorts ≤ h || 1024 < func || !b.dst.started then b
  else
    let key := func * 4096 + off / 4 * 4
    let dw := (off / 4 + 1024 - Config.ideCapOffset / 4) % 1024
    let old := amGetD 0 key (getPort h b).cap
    if read then emit (.cfg h (mergeBits (cfgFixedBits h func dw b) old (cfgWritable dw))) b
    else emit (.cfg h 0) (modPort h (fun p => { p with cap := amPut 0 key (mergeBits old data (laneMask be &&& cfgWritable dw)) p.cap }) b)

/-! ### IDE_KM (R238, R240, R241) -/

/-- A PCI-SIG message's answer: VENDOR_DEFINED_RESPONSE with StandardID 3, VendorID 1, and the payload. -/
def pciAnswer (path : Nat) (p : Bytes) (b : Block) : Block :=
  answer path ([0x13, 0x7E, 0, 0] ++ leBytes 2 3 ++ [2] ++ leBytes 2 1 ++ leBytes 2 p.length ++ p) b

/-- IDE_KM and TDISP requests: only in a mutually authenticated session of the same host port's path (R240). -/
def hostSess (path : Nat) (sess : BitVec 32) (k : SpdmSess → Block → Block) (b : Block) : Block :=
  spdmGate path false (fun b => match liveSess path sess b with
    | some s => if path != 0 && s.authd then k s b else spdmError path eUnsupported b
    | none => spdmError path eUnsupported b) b

/-- The answer of an IDE_KM request: object, status, stream and key-set selector. -/
def kmAnswer (path object status stream sel : Nat) (b : Block) : Block :=
  pciAnswer path ([0, BitVec.ofNat 8 object, 0, 0, BitVec.ofNat 8 stream, BitVec.ofNat 8 status, BitVec.ofNat 8 sel, 0]) b

/-- An IDE_KM request that names a key set: refused in Non-Flit Mode and where the set does not exist (R238, R239). -/
def doKm (object : Nat) (path : Nat) (sess : BitVec 32) (stream sub : Nat) (tx k : Bool) (run : Nat → Nat → Block → Bool × Block) (b : Block) : Block :=
  hostSess path sess (fun _ b =>
    let h := path - 1
    let sel := b2n k + 2 * b2n tx + 16 * sub
    if !(getPort h b).flit || 64 < stream || 2 < sub then kmAnswer path object 4 stream sel b
    else
      let (ok, b) := run h (setIndex tx sub k) b
      kmAnswer path object (if ok then 0 else 4) stream sel b) b

/-- KEY_PROG (R241): a set in use is not replaced. -/
def doKeyProg (path : Nat) (sess : BitVec 32) (stream sub : Nat) (tx k : Bool) (key : Key) (ifv : BitVec 64) (b : Block) : Block :=
  doKm 3 path sess stream sub tx k (fun h j b => match amGet j (getStream h stream b).sets with
    | some ⟨_, _, true⟩ => (false, b)
    | _ => (true, modStream h stream (fun s => { s with sets := amSet j { key := key, ctr := ifv } s.sets }) b)) b

/-- Every sub-stream of both directions has a key set programmed and started (R241). -/
def IdeStream.ready (s : IdeStream) : Bool :=
  (List.range 6).all fun q => [0, 1].any fun k => match amGet (2 * q + k) s.sets with
    | some x => x.started
    | none => false

/-- A key set in use; a transmit set is the one that its sub-stream sends with (R241). -/
def IdeStream.go (s : IdeStream) (j sub : Nat) (tx k : Bool) (x : IdeSet) : IdeStream :=
  { s with sets := amSet j { x with started := true } s.sets, txSet := if tx then amSet sub (b2n k) s.txSet else s.txSet }
/-- A stream whose sub-streams are all ready is Secure (R241). -/
def IdeStream.up (s : IdeStream) : IdeStream := { s with secure := s.secure || s.ready }

/-- K_SET_GO (R241). -/
def doKSetGo (path : Nat) (sess : BitVec 32) (stream sub : Nat) (tx k : Bool) (b : Block) : Block :=
  doKm 6 path sess stream sub tx k (fun h j b => match amGet j (getStream h stream b).sets with
    | none => (false, b)
    | some x => (true, modStream h stream (fun s => (s.go j sub tx k x).up) b)) b

/-- K_SET_STOP: the set is erased; a stream left without a started set in some sub-stream leaves Secure (R241, R249). -/
def doKSetStop (path : Nat) (sess : BitVec 32) (stream sub : Nat) (tx k : Bool) (b : Block) : Block :=
  doKm 6 path sess stream sub tx k (fun h j b =>
    let used := tx && amGet sub (getStream h stream b).txSet == some (b2n k)
    let b := modStream h stream (fun s => { s with sets := amDel j s.sets, txSet := if used then amDel sub s.txSet else s.txSet }) b
    let s := getStream h stream b
    if s.secure && (!s.ready || used) then (true, (streamInsecure h stream b).2) else (true, b)) b

/-- The port's IDE configuration for QUERY: its index, the highest port index, the IDE Capability and Control Registers, and the
streams' registers (R239). -/
def queryBody (h : Nat) (b : Block) : Bytes :=
  let reg (dw : Nat) := toBytes 4 (mergeBits (cfgFixedBits h 0 dw b) (amGetD 0 (Config.ideCapOffset + 4 * dw) (getPort h b).cap) (cfgWritable dw))
  let streams := (List.range 64).flatMap fun i => (List.range 3).flatMap fun j => reg (Config.ideBlock i + j)
  [0, 1, 0, BitVec.ofNat 8 h] ++ sliceBytes (Config.stdBody 1 []) 0 3 ++ leBytes 1 (b.row.hostPorts - 1) ++ reg 1 ++ reg 2 ++
    reg (Config.ideBlock 64) ++ reg (Config.ideBlock 64 + 1) ++ streams

/-- QUERY (R239). -/
def doQuery (path : Nat) (sess : BitVec 32) (b : Block) : Block :=
  hostSess path sess (fun _ b =>
    let h := path - 1
    if !(getPort h b).flit then kmAnswer path 1 4 0 0 b
    else pciAnswer path (queryBody h b) b) b

/-! ### TDISP (R245 to R249) -/

/-- TDISP error codes. -/
def tInvalidRequest : Nat := 0x0001
def tInvalidState : Nat := 0x0004
def tUnsupported : Nat := 0x0007
def tInvalidInterface : Nat := 0x0101
def tInvalidNonce : Nat := 0x0102

/-- A TDISP message: version, type, the function, and its content. -/
def tdispMsg (path type func : Nat) (rest : Bytes) (b : Block) : Block :=
  pciAnswer path ([1, 0x10, BitVec.ofNat 8 type, 0, 0] ++ leBytes 4 func ++ zeroBytes 8 ++ rest) b
def tdispError (path func code : Nat) (b : Block) : Block := tdispMsg path 0x7F func (leBytes 4 code ++ zeroBytes 4) b

/-- A TDISP request for a TDI: function 1 to 1,024; while locked, only in the session that locked it (R244, R246). -/
def onTdi (path : Nat) (sess : BitVec 32) (func : Nat) (k : SpdmSess → Nat → TdiRec → Block → Block) (b : Block) : Block :=
  hostSess path sess (fun s b =>
    if func = 0 || 1024 < func then tdispError path func tInvalidInterface b
    else
      let t := getTdi (func - 1) b
      if t.held && (t.sess != sess || t.port + 1 != path) then tdispError path func tInvalidRequest b else k s (func - 1) t b) b

/-- GET_TDISP_VERSION (code 0x81). The six other requests of R245's table have commands of their own; any other code is answered
UNSUPPORTED_REQUEST. -/
def doTdispVersion (path : Nat) (sess : BitVec 32) (func code : Nat) (b : Block) : Block :=
  if 0x82 ≤ code && code ≤ 0x87 then b
  else hostSess path sess (fun _ b =>
    if code = 0x81 then tdispMsg path 0x01 func [1, 0x10] b else tdispError path func tUnsupported b) b
def doTdispCaps (path : Nat) (sess : BitVec 32) (func : Nat) (b : Block) : Block :=
  hostSess path sess (fun _ b => tdispMsg path 0x02 func (Config.stdBody 2 []) b) b

/-- A TDI may be locked: CONFIG_UNLOCKED, of a defined skein not DESTROYING, to a Secure selective stream of the port (R246). -/
def lockable (path n stream : Nat) (t : TdiRec) (b : Block) : Bool :=
  decide (t.st = .unlocked) && decide (stream < 64) && (getStream (path - 1) stream b).secure &&
    (match getSkein n b with | some k => k.st != .destroying | none => false)

/-- Another host port has the TDI locked (R246). -/
def lockedElsewhere (path func : Nat) (b : Block) : Bool :=
  func != 0 && decide (func ≤ 1024) && (getTdi (func - 1) b).held && (getTdi (func - 1) b).port + 1 != path

/-- LOCK_INTERFACE_REQUEST (R246). -/
def doTdiLock (path : Nat) (sess : BitVec 32) (func stream : Nat) (mmio : BitVec 64) (flags : BitVec 16) (b : Block) : Block :=
  if lockedElsewhere path func b then hostSess path sess (fun _ b => tdispError path func tInvalidState b) b
  else onTdi path sess func (fun s n t b =>
    if !lockable path n stream t b then tdispError path func tInvalidState b
    else
      let (nonce, b) := draw 256 b
      let t : TdiRec :=
        { st := .locked, port := path - 1, stream := stream, nonce := nonce, mmioOff := mmio, flags := flags, sess := sess,
          chain := s.chainDigest }
      tdispMsg path 0x03 func (toBytes 32 nonce) (putTdi n t b)) b

/-- The device interface report (R247): the virtual function's BAR 0, one 4 KiB page (R244), in the standard's layout; then the skein's
index, the stream, the row and the certificate chain's digest. -/
def tdiReport (n : Nat) (t : TdiRec) (b : Block) : Bytes :=
  let own := leBytes 2 n ++ leBytes 1 t.stream ++ leBytes 1 b.row.code ++ toBytes 48 t.chain
  sliceBytes (Config.stdBody 3 []) 0 12 ++ leBytes 4 1 ++ sliceBytes (Config.stdBody 8 (leBytes 2 n ++ toBytes 8 t.mmioOff)) 0 8 ++ leBytes 4 1 ++
    leBytes 4 0 ++ leBytes 4 own.length ++ own

/-- GET_DEVICE_INTERFACE_REPORT (R245, R247). -/
def doTdiReport (path : Nat) (sess : BitVec 32) (func off len : Nat) (b : Block) : Block :=
  onTdi path sess func (fun _ n t b =>
    if !t.held then tdispError path func tInvalidState b
    else
      let r := tdiReport n t b
      if r.length ≤ off then tdispError path func tInvalidRequest b
      else
        let part := (r.drop off).take len
        tdispMsg path 0x04 func (leBytes 2 part.length ++ leBytes 2 (r.length - off - part.length) ++ part) b) b

/-- GET_DEVICE_INTERFACE_STATE (R245). -/
def doTdiState (path : Nat) (sess : BitVec 32) (func : Nat) (b : Block) : Block :=
  onTdi path sess func (fun _ _ t b =>
    let c : Byte := match t.st with | .unlocked => 0 | .locked => 1 | .run => 2 | .error => 3
    tdispMsg path 0x05 func [c] b) b

/-- START_INTERFACE_REQUEST (R245): with the nonce of the lock. -/
def doTdiStart (path : Nat) (sess : BitVec 32) (func : Nat) (nonce : BitVec 256) (b : Block) : Block :=
  onTdi path sess func (fun _ n t b =>
    if t.st != .locked then tdispError path func tInvalidState b
    else if t.nonce != nonce then tdispError path func tInvalidNonce b
    else tdispMsg path 0x06 func [] (putTdi n { t with st := .run, nonce := 0 } b)) b

/-- STOP_INTERFACE_REQUEST: any state to CONFIG_UNLOCKED, the only way out of ERROR (R245, R249). -/
def doTdiStop (path : Nat) (sess : BitVec 32) (func : Nat) (b : Block) : Block :=
  onTdi path sess func (fun _ n _ b => tdispMsg path 0x07 func [] (unpark n (putTdi n {} b))) b

/-! ### Events of the PCIe controller (R249, R483) -/

/-- An event of a virtual function whose TDI is locked to this port: it enters ERROR (R249). -/
def doFuncEvent (h func : Nat) (b : Block) : Block :=
  if func = 0 || 1024 < func || !b.dst.started then b
  else
    let t := getTdi (func - 1) b
    if t.held && t.port = h then putTdi (func - 1) { t with st := .error } b else b

/-- The host link goes down or comes up in a mode (R238, R483). -/
def doHostLink (h : Nat) (up flit : Bool) (b : Block) : Block :=
  if b.row.hostPorts ≤ h then b else modPort h (fun p => { p with linkUp := up, flit := if up then flit else p.flit }) b

def execIdeTlpReceive (port : BitVec 2) (stream : BitVec 7) (sub : BitVec 2) (kbit : Bool) (hdr data mac : Bytes) (orderOk pcrcOk : Bool) (s : State) : Out :=
  onSettled (doIdeTlp port.toNat stream.toNat sub.toNat kbit hdr data mac orderOk pcrcOk) s
def execCfgAccess (port : BitVec 2) (func : BitVec 11) (off : BitVec 12) (read : Bool) (data : BitVec 32) (be : BitVec 4) (s : State) : Out :=
  onBlock (doCfgAccess port.toNat func.toNat off.toNat read data be) s
def execFunctionLevelReset (port : BitVec 2) (func : BitVec 11) (s : State) : Out := onSettled (doFuncEvent port.toNat func.toNat) s
def execBarReprogrammed (port : BitVec 2) (func : BitVec 11) (s : State) : Out := onSettled (doFuncEvent port.toNat func.toNat) s
def execHostLinkDown (port : BitVec 2) (s : State) : Out := onBlock (doHostLink port.toNat false true) s
def execHostLinkUp (port : BitVec 2) (flit : Bool) (s : State) : Out := onBlock (doHostLink port.toNat true flit) s
def execKeyProg (path : BitVec 2) (sess : BitVec 32) (stream : BitVec 8) (sub : BitVec 4) (tx kset : Bool) (key : Key) (ifv : BitVec 64) (s : State) : Out :=
  onSettled (doKeyProg path.toNat sess stream.toNat sub.toNat tx kset key ifv) s
def execQuery (path : BitVec 2) (sess : BitVec 32) (s : State) : Out := onSettled (doQuery path.toNat sess) s
def execKSetGo (path : BitVec 2) (sess : BitVec 32) (stream : BitVec 8) (sub : BitVec 4) (tx kset : Bool) (s : State) : Out :=
  onSettled (doKSetGo path.toNat sess stream.toNat sub.toNat tx kset) s
def execKSetStop (path : BitVec 2) (sess : BitVec 32) (stream : BitVec 8) (sub : BitVec 4) (tx kset : Bool) (s : State) : Out :=
  onSettled (doKSetStop path.toNat sess stream.toNat sub.toNat tx kset) s
def execGetTdispVersion (path : BitVec 2) (sess : BitVec 32) (msg : TdispMsg) (s : State) : Out :=
  onSettled (doTdispVersion path.toNat sess msg.func.toNat msg.code.toNat) s
def execGetTdispCapabilities (path : BitVec 2) (sess : BitVec 32) (func : BitVec 16) (s : State) : Out :=
  onSettled (doTdispCaps path.toNat sess func.toNat) s
def execLockInterfaceRequest (path : BitVec 2) (sess : BitVec 32) (func : BitVec 16) (stream : BitVec 8) (mmio : BitVec 64) (flags : BitVec 16) (s : State) : Out :=
  onSettled (doTdiLock path.toNat sess func.toNat stream.toNat mmio flags) s
def execGetDeviceInterfaceReport (path : BitVec 2) (sess : BitVec 32) (func : BitVec 16) (off len : BitVec 16) (s : State) : Out :=
  onSettled (doTdiReport path.toNat sess func.toNat off.toNat len.toNat) s
def execGetDeviceInterfaceState (path : BitVec 2) (sess : BitVec 32) (func : BitVec 16) (s : State) : Out :=
  onSettled (doTdiState path.toNat sess func.toNat) s
def execStartInterfaceRequest (path : BitVec 2) (sess : BitVec 32) (func : BitVec 16) (nonce : BitVec 256) (s : State) : Out :=
  onSettled (doTdiStart path.toNat sess func.toNat nonce) s
def execStopInterfaceRequest (path : BitVec 2) (sess : BitVec 32) (func : BitVec 16) (s : State) : Out :=
  onSettled (doTdiStop path.toNat sess func.toNat) s

end Sys2Proof.Machine
end

