-- ==== Sys2Proof/Machine/Mctp.lean ====
section
/-! DEFINITION. MCTP control commands and the I3C target's common command codes (R250 to R253). Choices marked in the log: DEDUCED
144; DESIGN CHOICE 73; PRESUMED 18, 70. -/

namespace Sys2Proof.Machine

/-! ### MCTP control -/

/-- An MCTP control command: answered in every life-cycle state, without a root on I3C only; otherwise dropped and counted
(R250, R297, R359). -/
def mctp (path cmd : Nat) (k : Block → Bytes × Block) (b : Block) : Block :=
  if asleep b || !b.dst.started || !pathExists path b then b
  else if unserved b && path != 0 && !lcDead b then setHost (fun h => { h with mctpDrops := h.mctpDrops + 1 }) b
  else
    let (r, b) := k b
    answer path ([0, BitVec.ofNat 8 cmd] ++ r) b

/-- Set Endpoint ID: operations 0 set and 1 force assign it; 2 reset finds no static one; 3 set discovered is not of these
bindings. An ID of 0 or 0xFF is invalid data. -/
def doSetEid (path op eid : Nat) (b : Block) : Block :=
  mctp path 1 (fun b =>
    if op = 2 || op = 3 || eid = 0 || eid = 255 then ([0x02], b)
    else ([0, 0, BitVec.ofNat 8 eid, 0], modPath path (fun p => { p with eid := eid }) b)) b

def doGetEid (path : Nat) (b : Block) : Block := mctp path 2 (fun b => ([0, BitVec.ofNat 8 (getPath path b).eid, 0, 0], b)) b

/-- Get MCTP Version Support: the base specification is 1.3; completion code 0x80 for a type not supported. -/
def doMctpVersion (path type : Nat) (b : Block) : Block :=
  mctp path 4 (fun b =>
    if type = 0xFF || type = 0 then ([0, 1, 0xF1, 0xF3, 0xFF, 0x00], b)
    else if type = 5 || type = 6 then ([0, 1] ++ Config.stdBody 4 [BitVec.ofNat 8 type], b)
    else ([0x80], b)) b

/-- Get Message Type Support: SPDM and secured messages, beside MCTP control itself. The commands 1, 2 and 4 and the messages of types 5 and 6
have commands of their own; any other control command is answered ERROR_UNSUPPORTED_CMD, and any other message dropped (R250). -/
def doMctpTypes (path type cmd len : Nat) (b : Block) : Block :=
  if 8256 < len || (type != 0 && type != 5 && type != 6) then dropMctp path b
  else if type != 0 || cmd = 1 || cmd = 2 || cmd = 4 then b
  else mctp path cmd (fun b => (if cmd = 5 then [0, 2, 5, 6] else [0x05], b)) b

/-! ### I3C common command codes (R252, R253) -/

def setI3c (f : I3c → I3c) (b : Block) : Block := setHost (fun h => { h with i3c := f h.i3c }) b

/-- The target takes a command code: not before a start, and not in a low-power state (R253). -/
def ccc (k : Block → Block) (b : Block) : Block := if b.pwr.st != .active || !b.dst.started then b else k b
/-- A code for one target or, without an address, for all. -/
def cccFor (dest : Option (BitVec 7)) (k : Block → Block) (b : Block) : Block :=
  ccc (fun b => match dest with
    | none => k b
    | some a => if b.host.i3c.da = some a.toNat then k b else b) b
/-- A direct read of this target. -/
def cccGet (dest : BitVec 7) (bs : Block → Bytes) (b : Block) : Block := cccFor (some dest) (fun b => emit (.i3c (bs b)) b) b

/-- Bytes of a number, most significant first. -/
def beBytes (n v : Nat) : Bytes := (leBytes n v).reverse

/-- ENTDAA: a target without a dynamic address takes the one assigned. -/
def doEntdaa (da : Nat) (b : Block) : Block := ccc (fun b => if b.host.i3c.da.isSome then b else setI3c (fun i => { i with da := some da }) b) b
/-- SETDASA: from the static address of the strap; 0 disables it (R492). -/
def doSetdasa (sa da : Nat) (b : Block) : Block :=
  ccc (fun b => if b.regs.i3cSa = 0 || sa != b.regs.i3cSa || b.host.i3c.da.isSome then b else setI3c (fun i => { i with da := some da }) b) b
def doRstdaa (b : Block) : Block := ccc (setI3c fun i => { i with da := none }) b
def doEnec (dest : Option (BitVec 7)) (ev : BitVec 8) (b : Block) : Block := cccFor dest (setI3c fun i => { i with events := i.events ||| ev.toNat }) b
def doDisec (dest : Option (BitVec 7)) (ev : BitVec 8) (b : Block) : Block :=
  cccFor dest (setI3c fun i => { i with events := i.events - (i.events &&& ev.toNat) }) b
/-- BCR: IBI-capable with a mandatory data byte. -/
def bcr : Byte := 0x06
/-- DCR of an MCTP target. -/
def dcr : Byte := 0xCC

def execSetEndpointId (path : BitVec 2) (op : BitVec 2) (eid : BitVec 8) (s : State) : Out := onBlock (doSetEid path.toNat op.toNat eid.toNat) s
def execGetEndpointId (path : BitVec 2) (s : State) : Out := onBlock (doGetEid path.toNat) s
def execGetMctpVersionSupport (path : BitVec 2) (type : BitVec 8) (s : State) : Out := onBlock (doMctpVersion path.toNat type.toNat) s
def execGetMessageTypeSupport (msg : MctpMsg) (s : State) : Out :=
  onBlock (doMctpTypes msg.path.toNat msg.type.toNat msg.cmd.toNat msg.len.toNat) s
def execEntdaa (da : BitVec 7) (s : State) : Out := onBlock (doEntdaa da.toNat) s
def execSetdasa (sa : BitVec 7) (da : BitVec 7) (s : State) : Out := onBlock (doSetdasa sa.toNat da.toNat) s
def execRstdaa (s : State) : Out := onBlock doRstdaa s
def execEnec (dest : Option (BitVec 7)) (ev : BitVec 8) (s : State) : Out := onBlock (doEnec dest ev) s
def execDisec (dest : Option (BitVec 7)) (ev : BitVec 8) (s : State) : Out := onBlock (doDisec dest ev) s
def execGetpid (dest : BitVec 7) (s : State) : Out := onBlock (cccGet dest fun _ => (toBytes 6 Config.i3cPid).reverse) s
def execGetbcr (dest : BitVec 7) (s : State) : Out := onBlock (cccGet dest fun _ => [bcr]) s
def execGetdcr (dest : BitVec 7) (s : State) : Out := onBlock (cccGet dest fun _ => [dcr]) s
/-- GETSTATUS: the standard's status word, a free value of what this target holds. -/
def execGetstatus (dest : BitVec 7) (s : State) : Out :=
  onBlock (cccGet dest fun b => sliceBytes (Config.stdBody 5 (leBytes 1 b.host.i3c.events)) 0 2) s
def execSetmwl (dest : Option (BitVec 7)) (len : BitVec 16) (s : State) : Out := onBlock (cccFor dest (setI3c fun i => { i with mwl := len.toNat })) s
def execGetmwl (dest : BitVec 7) (s : State) : Out := onBlock (cccGet dest fun b => beBytes 2 b.host.i3c.mwl) s
def execSetmrl (dest : Option (BitVec 7)) (len : BitVec 16) (ibi : Option (BitVec 8)) (s : State) : Out :=
  onBlock (cccFor dest (setI3c fun i => { i with mrl := len.toNat, ibi := (ibi.map (·.toNat)).getD i.ibi })) s
def execGetmrl (dest : BitVec 7) (s : State) : Out := onBlock (cccGet dest fun b => beBytes 2 b.host.i3c.mrl ++ leBytes 1 b.host.i3c.ibi) s

end Sys2Proof.Machine
end

