-- ==== Sys2Proof/Machine/Fronthaul.lean ====
section
/-! DEFINITION. Fronthaul streams and MACsec (R260 to R265). Choices marked in the log: DEDUCED 72; PRESUMED 71. -/

namespace Sys2Proof.Machine

def getFth (f : Nat) (b : Block) : FthStream := amGetD {} f b.host.fth
def FthStream.sa (s : FthStream) (sc an : Nat) : Option MacSa := amGet (4 * sc + an) s.sas
def FthStream.putSa (s : FthStream) (sc an : Nat) (x : MacSa) : FthStream := { s with sas := amSet (4 * sc + an) x s.sas }
def FthStream.dropSa (s : FthStream) (sc an : Nat) : FthStream := { s with sas := amDel (4 * sc + an) s.sas }

/-! ### Group 0x50 (R263) -/

/-- A stream as a STREAM_SET leaves it: disabling drops its SAs, and its counts stay (R263). -/
def fthSet (msg : Bytes) (s : FthStream) : FthStream :=
  let sci := sliceBytes msg 8 8
  let types := ((List.range 4).map fun i => leField msg (16 + 2 * i) 2).filter (· != 0)
  if leField msg 5 1 = 0 then
    { enable := false, window := leField msg 6 2, sci := sci, clear := types, drops := s.drops, lastPn := s.lastPn, alarm := s.alarm }
  else { s with enable := true, window := leField msg 6 2, sci := sci, clear := types }

/-- STREAM_SET's malformed cases (R263). -/
def fthSetBad (msg : Bytes) (b : Block) : Bool :=
  let f := leField msg 4 1
  decide (b.row.fthStreams ≤ f) || decide (1 < leField msg 5 1) || decide (1023 < leField msg 6 2) ||
    ((getFth f b).enable && (getFth f b).sci != sliceBytes msg 8 8)

/-- STREAM_SET: STREAM, ENABLE, REPLAY_WINDOW, the transmit SCI and four clear EtherTypes. -/
def doStreamSet (path : Nat) (sess : BitVec 32) (msg : Bytes) (b : Block) : Block :=
  let f := leField msg 4 1
  groupOp .operator 0x50 1 path sess msg 24 (fthSetBad msg b) (fun b =>
    groupStatus path 0x50 1 cOK (modFth f (fthSet msg) b)) b

/-- SA_INSTALL's malformed cases (R263). -/
def saBad (msg : Bytes) (b : Block) : Bool :=
  let f := leField msg 4 1
  let sc := leField msg 5 1
  let an := leField msg 6 1
  let suite := leField msg 7 1
  let pn := leField msg 16 8
  let s := getFth f b
  decide (b.row.fthStreams ≤ f) || decide (15 < sc) || decide (3 < an) || decide (1 < suite) ||
    !restZero msg 28 32 || !restZero msg 44 48 || !restZero msg 56 64 ||
    (suite == 0 && (!restZero msg 24 28 || !restZero msg 32 44 || decide (0xFFFFFFFF < pn))) ||
    (sc == 0 && (!restZero msg 8 16 || pn == 0 || s.cur == some an || (s.next.isSome && s.next != some an))) ||
    (sc != 0 && !restZero msg 48 56)

/-- The SA that a SA_INSTALL describes, and the stream that holds it: a transmit SA is the next one (R263, R264). -/
def saOf (msg : Bytes) : MacSa :=
  { xpn := leField msg 7 1 = 1, pn := leField msg 16 8, low := leField msg 16 8, ssci := ofBytes 32 (sliceBytes msg 24 4),
    salt := sliceBytes msg 32 12, activate := ofBytes 64 (sliceBytes msg 48 8), key := ofBytes 256 (sliceBytes msg 64 32) }
def saPut (msg : Bytes) (s : FthStream) : FthStream :=
  let sc := leField msg 5 1
  let an := leField msg 6 1
  if sc = 0 then { s.putSa 0 an (saOf msg) with next := some an }
  else { s.putSa sc an (saOf msg) with scis := amSet sc (sliceBytes msg 8 8) s.scis }

/-- SA_INSTALL: a receive SA replaces what its AN held; a transmit SA becomes the next one (R263, R264). -/
def doSaInstall (path : Nat) (sess : BitVec 32) (msg : Bytes) (b : Block) : Block :=
  groupOp .operator 0x50 2 path sess msg 96 (saBad msg b) (fun b =>
    groupStatus path 0x50 2 cOK (modFth (leField msg 4 1) (saPut msg) b)) b

/-- A SA_RETIRE names the current transmit SA. -/
def namesCurrent (msg : Bytes) (s : FthStream) : Bool := leField msg 5 1 == 0 && s.cur == some (leField msg 6 1)

/-- SA_RETIRE's malformed cases (R263). -/
def retireBad (msg : Bytes) (b : Block) : Bool :=
  let s := getFth (leField msg 4 1) b
  decide (b.row.fthStreams ≤ leField msg 4 1) || decide (15 < leField msg 5 1) || decide (3 < leField msg 6 1) || leField msg 7 1 != 0 ||
    (s.sa (leField msg 5 1) (leField msg 6 1)).isNone || (namesCurrent msg s && s.next.isNone)

/-- A stream as a SA_RETIRE leaves it: the SA is gone, or goes with the switch to the next (R263). -/
def saDrop (msg : Bytes) (s : FthStream) : FthStream :=
  let sc := leField msg 5 1
  let an := leField msg 6 1
  if namesCurrent msg s then { s with retire := true }
  else
    let s := s.dropSa sc an
    if sc = 0 then { s with next := if s.next = some an then none else s.next }
    else if (List.range 4).all fun a => (s.sa sc a).isNone then { s with scis := amDel sc s.scis } else s

/-- SA_RETIRE, its fields placed as SA_INSTALL's: the current transmit SA only where a next is installed, and then with the
switch (R263). -/
def doSaRetire (path : Nat) (sess : BitVec 32) (msg : Bytes) (b : Block) : Block :=
  groupOp .operator 0x50 3 path sess msg 8 (retireBad msg b) (fun b =>
    groupStatus path 0x50 3 cOK (modFth (leField msg 4 1) (saDrop msg) b)) b

/-- STREAM_STATUS: the current AN, the PN issued last, whether a next SA is installed, and the drop counts (R265). -/
def doStreamStatus (path : Nat) (sess : BitVec 32) (msg : Bytes) (b : Block) : Block :=
  let f := leField msg 4 1
  groupOp .operator 0x50 4 path sess msg 8 (decide (b.row.fthStreams ≤ f) || !restZero msg 5 8) (fun b =>
    let s := getFth f b
    groupAnswer path 0x50 4 cOK ([0, 0, 0] ++ leBytes 1 (s.cur.getD 255) ++ leBytes 1 (b2n s.next.isSome) ++ zeroBytes 6 ++
      leBytes 8 s.lastPn ++ (List.range 8).flatMap fun i => leBytes 8 (amGetD 0 i s.drops)) b) b

/-! ### MACsec frames (R261, R264) -/

/-- The EtherType at an offset of a frame. -/
def etherAt (fr : Bytes) (off : Nat) : Nat := (fr.getD off 0).toNat * 256 + (fr.getD (off + 1) 0).toNat
def macsecType : Nat := 0x88E5

/-- IV of a frame: SCI and PN; under XPN, SSCI and PN, XORed with SALT. -/
def macIv (x : MacSa) (sci : Bytes) (pn : Nat) : Bytes :=
  if x.xpn then xorBytes (beBytes 4 x.ssci.toNat ++ beBytes 8 pn) x.salt else sci ++ beBytes 4 pn

/-- The transmit SecTAG: SC = 1, ES = 0, SCB = 0, E = 1, C = 1 (R261). -/
def secTag (sci : Bytes) (an pn len : Nat) : Bytes :=
  [0x88, 0xE5, BitVec.ofNat 8 (0x2C + an), BitVec.ofNat 8 (if len < 48 then len else 0)] ++ beBytes 4 pn ++ sci

/-- A clear frame protected under an SA and PN. -/
def macProtect (x : MacSa) (sci : Bytes) (an pn : Nat) (fr : Bytes) : Bytes :=
  let data := fr.drop 12
  let hdr := fr.take 12 ++ secTag sci an pn data.length
  let ct := gcmCrypt x.key (macIv x sci pn) data
  hdr ++ ct ++ gcmTag x.key (macIv x sci pn) hdr ct

/-- The last PN of a suite (R264), and that of the warning (R265). -/
def lastPn (xpn : Bool) : Nat := if xpn then 0xFFFFFFFFFFFFFFFF else 0xFFFFFFFF
def warnPn (xpn : Bool) : Nat := if xpn then 0xC000000000000000 else 0xC0000000

/-- The next SA becomes current for this frame where R264 lets it; a retirement happens with the switch (R263). -/
def macSwitch (now : BitVec 64) (s : FthStream) : FthStream := match s.next with
  | none => s
  | some an => match s.sa 0 an with
    | none => s
    | some x =>
      let spent := match s.cur.bind fun c => s.sa 0 c with | some y => y.spent | none => false
      if x.activate = 0 || x.activate ≤ now || spent then
        let s' := match s.retire, s.cur with | true, some c => s.dropSa 0 c | _, _ => s
        { s' with cur := some an, next := none, retire := false, warned := false }
      else s

/-- The frame is outside 64 to 9,216 B (R261). -/
def frameLenBad (n : Nat) : Bool := decide (n < 64) || decide (9216 < n)

/-- Fronthaul frames are dropped while nothing serves them: at a block reset until the start completes, and in a low-power state
(R408, R437). -/
def fthClosed (b : Block) : Bool := !b.dst.started || asleep b || unserved b || lcDead b

/-- Submit a fronthaul frame's slot units (R260, R64). -/
def submitFth (f sa seq len : Nat) (b : Block) : Block :=
  submitLink true (ledgerLink (20 + f) sa seq) (unitSlot ((slotClassSkein b).map (·.1)) b) 1 ((len + 15) / 16 + 1) b

/-- A PN of the current SA is used up; at three quarters of its range without a next SA, ACLASS 2 (R264, R265). -/
def takePn (f : Nat) (s : FthStream) (an : Nat) (x : MacSa) (b : Block) : Block :=
  let last := x.pn = lastPn x.xpn
  let warn := decide (x.pn = warnPn x.xpn) && s.next.isNone && !s.warned
  let x' := { x with pn := if last then x.pn else x.pn + 1, spent := last }
  let b := modFth f (fun _ => { s.putSa 0 an x' with lastPn := x.pn, warned := s.warned || warn }) b
  if warn then raiseViews { cls := 2, skein := (slotClassSkein b).map (·.1) } b else b

/-- FRONTHAUL_TRANSMIT (R262, R264, R265): `room` says that 9,248 B of the buffer are free, `err` that ERR came with EOF. -/
def doFthTransmit (f : Nat) (fr : Bytes) (room err : Bool) (b : Block) : Block :=
  if b.row.fthStreams ≤ f then b
  else if fthClosed b || !room then fthDrop f 1 b
  else
    let s := getFth f b
    if !s.enable then fthDrop f 0 b
    else if s.clear.contains (etherAt fr 12) then
      if err then fthDrop f 4 b
      else if frameLenBad fr.length then fthDrop f 2 b
      else bumpGlob (720 + 8 * f) fr.length (emit (.eth f true fr) b)
    else
      let s := macSwitch b.tim.t s
      let b := modFth f (fun _ => s) b
      match s.cur.bind fun an => (s.sa 0 an).map fun x => (an, x) with
      | none => fthDrop f 0 b
      | some (an, x) =>
        if x.spent then fthDrop f 0 b
        else
          let b := takePn f s an x b
          if err then fthDrop f 4 b
          else if frameLenBad fr.length then fthDrop f 2 b
          else
            let b := sampleTime 3 f (submitFth f an x.pn fr.length b)
            bumpGlob (720 + 8 * f) fr.length (emit (.eth f true (macProtect x s.sci an x.pn fr)) b)

/-- A received frame's SecTAG: AN, SL, PN, SCI where explicit, and its length (R261). -/
structure SecTag where
  an : Nat
  sl : Nat
  pn : Nat
  sci : Option Bytes
  len : Nat
deriving DecidableEq, Repr

/-- Parse a SecTAG; none where it is malformed or E is 0 (R261, R262). -/
def parseSecTag (fr : Bytes) : Option SecTag :=
  let tci := (fr.getD 14 0).toNat
  let sc := tci.testBit 5
  let n := if sc then 16 else 8
  let data := fr.length - 12 - n - 16
  let sl := (fr.getD 15 0).toNat
  let pn := (ofBytes 32 (sliceBytes fr 16 4).reverse).toNat
  if fr.length < 12 + n + 16 || tci.testBit 7 || tci.testBit 4 || !tci.testBit 3 || !tci.testBit 2 || tci.testBit 6 || 47 < sl ||
      (sl != 0 && sl != data) || (sl == 0 && decide (data < 48)) then none
  else some { an := tci % 4, sl := sl, pn := pn, sci := if sc then some (sliceBytes fr 20 8) else none, len := n }

/-- The SC that a received frame names: its SCI's, or the only one where the SCI is left out (R261). -/
def findSc (s : FthStream) (t : SecTag) : Option (Nat × Bytes) := match t.sci with
  | some sci => s.scis.find? fun e => e.2 == sci
  | none => match s.scis with
    | [e] => some e
    | _ => none

/-- The PN of a received frame: under XPN its high half is recovered from the next PN expected. -/
def fullPn (x : MacSa) (pn : Nat) : Nat :=
  if x.xpn then x.pn / 2 ^ 32 * 2 ^ 32 + pn + (if x.pn % 2 ^ 32 ≥ 2 ^ 31 && pn < 2 ^ 31 then 2 ^ 32 else 0) else pn

/-- An ICV failure raises ACLASS 4, at most once per 1,000 ticks per stream (R262). -/
def icvFail (f : Nat) (b : Block) : Block :=
  let quiet := match (getFth f b).alarm with | some t => decide (b.tick < t + 1000) | none => false
  let b := fthDrop f 6 b
  if quiet then b
  else raiseViews { cls := 4, skein := (slotClassSkein b).map (·.1) } (modFth f (fun s => { s with alarm := some b.tick }) b)

/-- FRONTHAUL_RECEIVE (R261, R262). -/
def doFthReceive (f : Nat) (fr : Bytes) (room err : Bool) (b : Block) : Block :=
  if b.row.fthStreams ≤ f then b
  else if fthClosed b || !room then fthDrop f 1 b
  else if err then fthDrop f 4 b
  else
    let s := getFth f b
    if !s.enable then fthDrop f 5 b
    else if etherAt fr 12 != macsecType then
      if !s.clear.contains (etherAt fr 12) then fthDrop f 3 b
      else if frameLenBad fr.length then fthDrop f 2 b
      else bumpGlob (784 + 8 * f) fr.length (emit (.eth f false fr) b)
    else match parseSecTag fr with
      | none => fthDrop f 4 b
      | some t =>
        let n := fr.length - t.len - 16
        if frameLenBad n then fthDrop f 2 b
        else match (findSc s t).bind fun e => (s.sa e.1 t.an).map fun x => (e, x) with
          | none => fthDrop f 5 b
          | some ((sc, sci), x) =>
            let pn := fullPn x t.pn
            let hdr := fr.take (12 + t.len)
            let ct := sliceBytes fr (12 + t.len) (n - 12)
            let b := submitFth f (4 * sc + t.an) pn n b
            if gcmTag x.key (macIv x sci pn) hdr ct != sliceBytes fr (12 + t.len + (n - 12)) 16 then icvFail f b
            else if pn < max x.low (x.pn - s.window) then fthDrop f 7 b
            else
              let b := modFth f (fun s => s.putSa sc t.an { x with pn := max x.pn (pn + 1) }) b
              bumpGlob (784 + 8 * f) n (emit (.eth f false (fr.take 12 ++ gcmCrypt x.key (macIv x sci pn) ct)) b)

def execStreamSet (path : BitVec 2) (sess : BitVec 32) (msg : Bytes) (s : State) : Out := onSettled (doStreamSet path.toNat sess msg) s
def execSaInstall (path : BitVec 2) (sess : BitVec 32) (msg : Bytes) (s : State) : Out := onSettled (doSaInstall path.toNat sess msg) s
def execSaRetire (path : BitVec 2) (sess : BitVec 32) (msg : Bytes) (s : State) : Out := onSettled (doSaRetire path.toNat sess msg) s
def execStreamStatus (path : BitVec 2) (sess : BitVec 32) (msg : Bytes) (s : State) : Out := onSettled (doStreamStatus path.toNat sess msg) s
def execFronthaulTransmit (stream : BitVec 3) (frame : Bytes) (room err : Bool) (s : State) : Out :=
  onSettled (doFthTransmit stream.toNat frame room err) s
def execFronthaulReceive (stream : BitVec 3) (frame : Bytes) (room err : Bool) (s : State) : Out :=
  onSettled (doFthReceive stream.toNat frame room err) s

end Sys2Proof.Machine
end

