-- ==== Sys2Proof/Machine/Spdm.lean ====
section
/-! DEFINITION. SPDM 1.3 as Frexis answers it (R254 to R257, R301, R326). Message layouts and codes of the published standard that
the spec does not repeat are PRESUMED (log entry 60). Choices marked in the log: DEDUCED 144; PRESUMED 60. -/

namespace Sys2Proof.Machine

/-! ### The certificate slot and measurements -/

/-- The DeviceID certificate: the device's key, its device ID and serial (R301). -/
def deviceCert (b : Block) : Bytes :=
  Config.certChain (Config.ecPublic (devScalar b)) (toBytes 16 b.regs.deviceId ++ toBytes 16 b.regs.serial)
/-- The alias certificate, signed by the DeviceID key: the alias key and H_FW (R301). -/
def aliasCert (b : Block) : Bytes :=
  Config.certChain (Config.ecPublic (aliasScalar b) ++ Config.ecPublic (devScalar b)) (toBytes 48 (hFw b))
/-- Slot 0: length, digest of the first certificate, and the two certificates. -/
def slotChain (b : Block) : Bytes :=
  let certs := deviceCert b ++ aliasCert b
  leBytes 4 (52 + certs.length) ++ sha384Bytes (deviceCert b) ++ certs

/-- Blocks that GET_MEASUREMENTS of an index returns (R326). -/
def measIndices (i : Nat) : List Nat := if i = 0xFF then [1, 2, 3, 4, 5, 6, 7] else if 1 ≤ i && i ≤ 7 then [i] else []

/-- Measurement summary hash of a CHALLENGE or KEY_EXCHANGE: type 0 none, 1 of the trusted computing base, 0xFF of all. -/
def measSummary (type : Nat) (b : Block) : Bytes :=
  let all := [1, 2, 3, 4, 5, 6, 7].flatMap fun i => measBlock i b
  if type = 0 then [] else if type = 1 then sliceBytes (Config.stdBody 6 all) 0 48 else sha384Bytes all
def summaryOk (type : Nat) : Bool := type = 0 || type = 1 || type = 255

/-! ### Signatures and transcripts -/

/-- What an SPDM 1.3 signature covers: the prefix, the context and the transcript's hash. -/
def spdmSigned (context : String) (h : Digest) : Digest :=
  let c := ascii context
  sha384 ((List.replicate 4 (ascii "dmtf-spdm-v1.3.*")).flatten ++ zeroBytes (36 - c.length) ++ c ++ toBytes 48 h)

/-- A response signed by the alias key over a transcript that ends with it. -/
def signResponse (context : String) (before resp : Bytes) (b : Block) : Digest × Bytes × Block :=
  let h := sha384 (before ++ resp)
  let (sig, b) := signEc (aliasScalar b) (spdmSigned context h) b
  (h, resp ++ sig, b)

/-! ### Gates -/

/-- Where a request may be sent. -/
inductive SpdmWhere where
  | outside | handshake | either
deriving DecidableEq, Repr

/-- Codes of the requests that Frexis supports (R255). -/
def spdmCodes : List Nat := [0x81, 0x82, 0x83, 0x84, 0xE0, 0xE1, 0xE3, 0xE4, 0xE5, 0xEA, 0xEB, 0xEC, 0xFE]

/-- An SPDM request of one code: the gates of R254, R259, R297, R344 and R359, its session, and the order of negotiation. A message
of another supported code is that code's command's; any other code is answered UnsupportedRequest (R255). A message for an unknown
session is dropped, and one above 8,256 B is dropped and counted (R250). -/
def spdmReq (path : Nat) (sess : BitVec 32) (msg : Bytes) (code version stage : Nat) (use : SpdmWhere) (k : Block → Block) (b : Block) : Block :=
  let s := findSpdm path sess b
  if 8256 < msg.length then dropMctp path b
  else if sess != 0 && s.isNone then b
  else if leField msg 1 1 != code then
    if spdmCodes.contains (leField msg 1 1) || leField msg 1 1 < 0x80 then b
    else spdmGate path false (fun b => spdmError path (if leField msg 0 1 != 0x13 then eVersion else eUnsupported) b) b
  else spdmGate path (code == 0x84) (fun b =>
    if leField msg 0 1 != version then spdmError path eVersion b
    else if msg.length < 4 then spdmError path eInvalidRequest b
    else if decide ((getPath path b).stage < stage) then spdmError path eUnspecified b
    else
      let fits := match use, s with
        | .outside, x => x.isNone
        | .handshake, some x => !x.live
        | .handshake, none => false
        | .either, some x => x.live
        | .either, none => true
      if fits then k b else spdmError path (if use == .handshake && s.isNone then eSessionRequired else eUnspecified) b) b

/-- Answer a negotiation request: the exchange enters the transcript (stage 1 starts it). -/
def negotiated (path stage : Nat) (msg resp : Bytes) (f : MgmtPath → MgmtPath) (b : Block) : Block :=
  answer path resp (modPath path (fun p => f { p with stage := stage, vca := p.vca ++ msg ++ resp }) b)

/-! ### Negotiation (R254) -/

/-- GET_VERSION: VERSION lists 1.3. The connection on the path starts anew. -/
def doGetVersion (path : Nat) (sess : BitVec 32) (msg : Bytes) (b : Block) : Block :=
  spdmReq path sess msg 0x84 0x10 0 .outside
    (fun b => negotiated path 1 msg [0x10, 0x04, 0, 0, 0, 1, 0x00, 0x13] id
      (modPath path (fun p => { eid := p.eid }) b)) b

/-- CERT, CHAL, MEAS with signature, ENCRYPT, MAC, MUT_AUTH, KEY_EX and ENCAP. -/
def spdmCaps : Nat := 0x13D6

/-- CAPABILITIES: the flags, and messages of at most 8,192 bytes. -/
def capsResp : Bytes := [0x13, 0x61, 0, 0, 0, 16, 0, 0] ++ leBytes 4 spdmCaps ++ leBytes 4 8192 ++ leBytes 4 8192

def doGetCapabilities (path : Nat) (sess : BitVec 32) (msg : Bytes) (b : Block) : Block :=
  spdmReq path sess msg 0xE1 0x13 1 .outside (fun b =>
    if msg.length != 20 || leField msg 4 1 != 0 || decide (leField msg 12 4 < 42) || decide (leField msg 16 4 < leField msg 12 4) then
      spdmError path eInvalidRequest b
    else negotiated path 2 msg capsResp (fun p => { p with reqCaps := leField msg 8 4 }) b) b

/-- What Frexis supports of an algorithm structure's type: 2 DHE, 3 AEAD, 4 requester's signature, 5 key schedule. -/
def algSupport (type : Nat) : Nat := if type = 2 then 0x10 else if type = 3 then 2 else if type = 4 then 0x80 else if type = 5 then 1 else 0

/-- Offset of a request's algorithm structures, and the structures: type and what the requester supports. -/
def algStart (msg : Bytes) : Nat := 32 + 4 * (leField msg 28 1 + leField msg 29 1)
def algList (msg : Bytes) : List (Nat × Nat) :=
  (List.range (leField msg 2 1)).map fun i => (leField msg (algStart msg + 4 * i) 1, leField msg (algStart msg + 4 * i + 2) 2)

/-- A request that is malformed, or that does not offer SHA-384 and ECDSA P-384. -/
def algBad (msg : Bytes) : Bool :=
  leField msg 3 1 != 0 || leField msg 4 2 != msg.length || msg.length != algStart msg + 4 * leField msg 2 1 || !restZero msg 16 28 ||
    !(leField msg 8 4).testBit 7 || !(leField msg 12 4).testBit 1 || (algList msg).any (fun a => decide (a.1 < 2) || decide (5 < a.1))

/-- ALGORITHMS: ECDSA P-384, SHA-384, secp384r1 and AES-256-GCM, of those that the requester supports. -/
def algResp (msg : Bytes) : Bytes :=
  let n := leField msg 2 1
  let body := (algList msg).flatMap fun a => leBytes 1 a.1 ++ [0x20] ++ leBytes 2 (a.2 &&& algSupport a.1)
  [0x13, 0x63] ++ leBytes 1 n ++ [0] ++ leBytes 2 (36 + 4 * n) ++ leBytes 1 (leField msg 6 1 &&& 1) ++
    leBytes 1 (leField msg 7 1 &&& 2) ++ leBytes 4 4 ++ leBytes 4 0x80 ++ leBytes 4 2 ++ zeroBytes 16 ++ body

/-- NEGOTIATE_ALGORITHMS. -/
def doNegotiate (path : Nat) (sess : BitVec 32) (msg : Bytes) (b : Block) : Block :=
  spdmReq path sess msg 0xE3 0x13 2 .outside (fun b =>
    if algBad msg then spdmError path eInvalidRequest b else negotiated path 3 msg (algResp msg) id b) b

/-! ### Certificates (R301) -/

/-- The certificate exchanges of a connection enter its transcript for CHALLENGE. -/
def certAnswer (path : Nat) (sess : BitVec 32) (msg resp : Bytes) (b : Block) : Block :=
  answer path resp (if sess = 0 then modPath path (fun p => { p with certs := p.certs ++ msg ++ resp }) b else b)

def doGetDigests (path : Nat) (sess : BitVec 32) (msg : Bytes) (b : Block) : Block :=
  spdmReq path sess msg 0x81 0x13 3 .either
    (fun b => certAnswer path sess msg ([0x13, 0x01, 1, 1] ++ sha384Bytes (slotChain b)) b) b

def doGetCertificate (path : Nat) (sess : BitVec 32) (msg : Bytes) (b : Block) : Block :=
  spdmReq path sess msg 0x82 0x13 3 .either (fun b =>
    let c := slotChain b
    let off := leField msg 4 2
    if msg.length != 8 || leField msg 2 1 != 0 || c.length ≤ off then spdmError path eInvalidRequest b
    else
      let len := min (min (leField msg 6 2) (c.length - off)) 8184
      certAnswer path sess msg ([0x13, 0x02, 0, 0] ++ leBytes 2 len ++ leBytes 2 (c.length - off - len) ++ sliceBytes c off len) b) b

/-! ### Signed responses (R255, R326) -/

/-- Record that a signed response covered a transcript hash (R335). -/
def noteSigned (path : Nat) (sess : BitVec 32) (h : Digest) (b : Block) : Block :=
  if sess = 0 then modPath path (fun p => { p with signed := some h }) b else modSpdm path sess (fun s => { s with signed := some h }) b

/-- CHALLENGE_AUTH, signed over the connection so far and the request. -/
def challengeAuth (path : Nat) (sess : BitVec 32) (msg : Bytes) (b : Block) : Block :=
  let (nonce, b) := draw 256 b
  let resp := [0x13, 0x03, 0, 1] ++ sha384Bytes (slotChain b) ++ toBytes 32 nonce ++ measSummary (leField msg 3 1) b ++ [0, 0] ++
    sliceBytes msg 36 8
  let p := getPath path b
  let (h, bs, b) := signResponse "responder-challenge_auth signing" (p.vca ++ p.certs ++ msg) resp b
  answer path bs (noteSigned path sess h (modPath path (fun p => { p with certs := [] }) b))

def doChallenge (path : Nat) (sess : BitVec 32) (msg : Bytes) (b : Block) : Block :=
  spdmReq path sess msg 0x83 0x13 3 .outside (fun b =>
    let type := leField msg 3 1
    if msg.length != 44 || leField msg 2 1 != 0 || !summaryOk type then spdmError path eInvalidRequest b
    else if trngStopped b then hold none (.challenge (BitVec.ofNat 2 path) sess msg) b
    else challengeAuth path sess msg b) b

/-- The MEASUREMENTS response before a signature: index 0 gives the number of blocks. -/
def measResp (msg : Bytes) (nonce : BitVec 256) (b : Block) : Bytes :=
  let is := measIndices (leField msg 3 1)
  let rec' := is.flatMap fun i => measBlock i b
  [0x13, 0x60] ++ leBytes 1 (if leField msg 3 1 = 0 then 7 else 0) ++ [0] ++ leBytes 1 is.length ++ leBytes 3 rec'.length ++ rec' ++
    toBytes 32 nonce ++ [0, 0] ++ sliceBytes msg (if (leField msg 2 1).testBit 0 then 37 else 4) 8

/-- Keep the log of measurement exchanges since the last signed one. -/
def keepMeas (path : Nat) (sess : BitVec 32) (m : Bytes) (b : Block) : Block :=
  if sess = 0 then modPath path (fun p => { p with meas := m }) b else modSpdm path sess (fun s => { s with meas := m }) b

/-- Answer a GET_MEASUREMENTS: signed over the exchanges since the last signed one, or logged. -/
def measurements (path : Nat) (sess : BitVec 32) (msg : Bytes) (b : Block) : Block :=
  let (nonce, b) := draw 256 b
  let resp := measResp msg nonce b
  let p := getPath path b
  let log := match findSpdm path sess b with | some s => s.meas | none => p.meas
  if (leField msg 2 1).testBit 0 then
    let (h, bs, b) := signResponse "responder-measurements signing" (p.vca ++ log ++ msg) resp b
    answer path bs (noteSigned path sess h (keepMeas path sess [] b))
  else answer path resp (keepMeas path sess (log ++ msg ++ resp) b)

/-- GET_MEASUREMENTS: attribute bit 0 asks for a signature over the exchanges since the last signed one (R326). -/
def doGetMeasurements (path : Nat) (sess : BitVec 32) (msg : Bytes) (b : Block) : Block :=
  spdmReq path sess msg 0xE0 0x13 3 .either (fun b =>
    let attr := leField msg 2 1
    let sig := attr.testBit 0
    if 8 ≤ attr || msg.length != (if sig then 45 else 12) || (sig && leField msg 36 1 != 0) then spdmError path eInvalidRequest b
    else if trngStopped b then hold none (.getMeasurements (BitVec.ofNat 2 path) sess msg) b
    else measurements path sess msg b) b

/-! ### Secured sessions (R256, R257) -/

/-- Sessions of a path are at its limit: 128 in all, 8 of them kept for I3C. -/
def sessionsFull (path : Nat) (b : Block) : Bool :=
  decide (128 ≤ b.host.sess.length) || (path != 0 && decide (120 ≤ (b.host.sess.filter fun s => s.path != 0).length))

/-- The requester's public point of a KEY_EXCHANGE. -/
def dhPoint (msg : Bytes) : Bytes := 0x04 :: sliceBytes msg 40 96

/-- Mutual authentication is required on I3C (R257); on a PCIe path Frexis asks for it of a requester that declares it. -/
def asksAuth (path : Nat) (b : Block) : Bool := path == 0 || (getPath path b).reqCaps.testBit 8

/-- A KEY_EXCHANGE's session: its number is a choice among the free ones, its key and random draws, its response is signed and
confirmed. -/
def openSpdm (path : Nat) (msg : Bytes) (b : Block) : Block :=
  let taken := (b.host.sess.filter fun s => s.path == path && s.id.toNat % 65536 == leField msg 4 2).map fun s => s.id.toNat / 65536
  let free := (List.range 256).filter fun i => !taken.contains i
  let (c, b) := choose free.length b
  let rsp := free.getD c 0
  let (seed, b) := draw 512 b
  let (random, b) := draw 256 b
  let mine := ecScalar (toBytes 64 seed)
  let asks := asksAuth path b
  let resp := [0x13, 0x64, 0, 0] ++ leBytes 2 rsp ++ leBytes 1 (if asks then 2 else 0) ++ [0] ++ toBytes 32 random ++
    sliceBytes (Config.ecPublic mine) 1 96 ++ measSummary (leField msg 2 1) b ++ [0, 0]
  let before := (getPath path b).vca ++ sha384Bytes (slotChain b) ++ msg
  let (_, bs, b) := signResponse "responder-key_exchange_rsp signing" before resp b
  let secret := Config.ecdh mine (dhPoint msg)
  let bs := bs ++ sliceBytes (Config.finishRsp secret (before ++ bs)) 0 48
  let s : SpdmSess :=
    { id := BitVec.ofNat 32 (rsp * 65536 + leField msg 4 2), path := path, mustAuth := asks, trans := before ++ bs, secret := secret }
  answer path bs (setHost (fun h => { h with sess := h.sess ++ [s] }) b)

/-- KEY_EXCHANGE opens a session (R256, R257). -/
def doKeyExchange (path : Nat) (sess : BitVec 32) (msg : Bytes) (b : Block) : Block :=
  spdmReq path sess msg 0xE4 0x13 3 .outside (fun b =>
    let type := leField msg 2 1
    if b.lcBusy then spdmError path eBusy b
    else if msg.length != 138 + leField msg 136 2 || leField msg 3 1 != 0 || !summaryOk type || !Config.ecPoint (dhPoint msg) then
      spdmError path eInvalidRequest b
    else if sessionsFull path b then spdmError path eSessionLimit b
    else if trngStopped b then hold none (.keyExchange (BitVec.ofNat 2 path) sess msg) b
    else openSpdm path msg b) b

/-- The mutual authentication of a session fails, or its confirmation does: the session ends. -/
def sessionFails (path : Nat) (sess : BitVec 32) (code : Nat) (b : Block) : Block := endSpdm path sess (spdmError path code b)

/-- Leaf key of an authenticated requester. -/
def leafKey (s : SpdmSess) : Bytes := match Config.chainKeys (s.chain.drop 52) with
  | some k => k.2
  | none => []

/-- FINISH completes a session: the requester's signature where it authenticates, and its confirmation. -/
def doFinish (path : Nat) (sess : BitVec 32) (msg : Bytes) (b : Block) : Block :=
  spdmReq path sess msg 0xE5 0x13 3 .handshake (fun b => match findSpdm path sess b with
    | none => b
    | some s =>
      let sig := leField msg 2 1 == 1
      let before := s.trans ++ (if s.mustAuth then sha384Bytes s.chain else []) ++ msg.take 4
      let h := sha384 before
      let sg := sliceBytes msg 4 96
      let off := if sig then 100 else 4
      if decide (1 < leField msg 2 1) || leField msg 3 1 != 0 || msg.length != off + 48 || sig != s.mustAuth then
        spdmError path eInvalidRequest b
      else if s.mustAuth && (!s.authd || !Config.ecVerify (leafKey s) (spdmSigned "requester-finish signing" h) sg) then
        sessionFails path sess eInvalidRequest b
      else if sliceBytes msg off 48 != sliceBytes (Config.finishMac s.secret (before ++ (if sig then sg else []))) 0 48 then
        sessionFails path sess 0x06 b
      else answer path [0x13, 0x65, 0, 0] (modSpdm path sess (fun s => { s with live := true }) b)) b

def doEndSession (path : Nat) (sess : BitVec 32) (msg : Bytes) (b : Block) : Block :=
  spdmReq path sess msg 0xEC 0x13 3 .either (fun b =>
    if (findSpdm path sess b).isNone then spdmError path eSessionRequired b
    else if msg.length != 4 || decide (1 < leField msg 2 1) || leField msg 3 1 != 0 then spdmError path eInvalidRequest b
    else endSpdm path sess (answer path [0x13, 0x6C, 0, 0] b)) b

/-! ### The encapsulated flow of mutual authentication (R257) -/

/-- The encapsulated GET_CERTIFICATE for the rest of the requester's chain. -/
def encapCert (off : Nat) : Bytes := [0x13, 0x82, 0, 0] ++ leBytes 2 off ++ leBytes 2 0x1000

/-- GET_ENCAPSULATED_REQUEST: Frexis asks for the requester's digests first. -/
def doGetEncap (path : Nat) (sess : BitVec 32) (msg : Bytes) (b : Block) : Block :=
  spdmReq path sess msg 0xEA 0x13 3 .handshake (fun b => match findSpdm path sess b with
    | none => b
    | some s =>
      if !s.mustAuth || s.authd then spdmError path eUnspecified b
      else answer path ([0x13, 0x6A, 1, 0, 0x13, 0x81, 0, 0])
        (modSpdm path sess (fun s => { s with encap := 1, encapId := 1, chain := [] }) b)) b

/-- The chain of a requester is whole: it must match the digest given, verify, and on I3C end at the operator root. -/
def judgeChain (path : Nat) (sess : BitVec 32) (b : Block) : Block := match findSpdm path sess b with
  | none => b
  | some s => match Config.chainKeys (s.chain.drop 52) with
    | none => sessionFails path sess eInvalidRequest b
    | some (root, _) =>
      let op := match opCurrent b with
        | some i => sha384Bytes root == (opRecord i b).take 48
        | none => false
      if sha384Bytes s.chain != s.reqDigest || (path == 0 && !op) then sessionFails path sess eInvalidRequest b
      else answer path ([0x13, 0x6B, 0, 2] ++ leBytes 1 s.encapId ++ [0, 0, 0, 0])
        (modSpdm path sess (fun s => { s with authd := true, operator := path == 0, encap := 0, chainDigest := sha384 s.chain }) b)

/-- Acknowledge a response and ask for the requester's chain from an offset on. -/
def askCert (path : Nat) (sess : BitVec 32) (s : SpdmSess) (off : Nat) (b : Block) : Block :=
  answer path ([0x13, 0x6B] ++ leBytes 1 (s.encapId + 1) ++ [1] ++ leBytes 1 s.encapId ++ [0, 0, 0] ++ encapCert off)
    (modSpdm path sess (fun _ => { s with encap := 2, encapId := s.encapId + 1 }) b)

/-- DELIVER_ENCAPSULATED_RESPONSE: the requester's DIGESTS, then the parts of its CERTIFICATE. -/
def doDeliverEncap (path : Nat) (sess : BitVec 32) (msg : Bytes) (b : Block) : Block :=
  spdmReq path sess msg 0xEB 0x13 3 .handshake (fun b => match findSpdm path sess b with
    | none => b
    | some s =>
      let r := msg.drop 4
      if s.encap = 0 then spdmError path eUnspecified b
      else if leField msg 2 1 != s.encapId || leField msg 3 1 != 0 || leField r 0 1 != 0x13 then spdmError path eInvalidRequest b
      else if s.encap = 1 then
        if leField r 1 1 != 1 || !(leField r 3 1).testBit 0 || r.length < 52 then sessionFails path sess eInvalidRequest b
        else askCert path sess { s with reqDigest := sliceBytes r 4 48, chain := [] } 0 b
      else
        let len := leField r 4 2
        if leField r 1 1 != 2 || r.length != 8 + len || len = 0 then sessionFails path sess eInvalidRequest b
        else
          let chain := s.chain ++ r.drop 8
          if leField r 6 2 = 0 then judgeChain path sess (modSpdm path sess (fun s => { s with chain := chain }) b)
          else askCert path sess { s with chain := chain } chain.length b) b

def execGetVersion (path : BitVec 2) (sess : BitVec 32) (msg : Bytes) (s : State) : Out := onBlock (doGetVersion path.toNat sess msg) s
def execGetCapabilities (path : BitVec 2) (sess : BitVec 32) (msg : Bytes) (s : State) : Out := onBlock (doGetCapabilities path.toNat sess msg) s
def execNegotiateAlgorithms (path : BitVec 2) (sess : BitVec 32) (msg : Bytes) (s : State) : Out := onBlock (doNegotiate path.toNat sess msg) s
def execGetDigests (path : BitVec 2) (sess : BitVec 32) (msg : Bytes) (s : State) : Out := onBlock (doGetDigests path.toNat sess msg) s
def execGetCertificate (path : BitVec 2) (sess : BitVec 32) (msg : Bytes) (s : State) : Out := onBlock (doGetCertificate path.toNat sess msg) s
def execChallenge (path : BitVec 2) (sess : BitVec 32) (msg : Bytes) (s : State) : Out := onBlock (doChallenge path.toNat sess msg) s
def execGetMeasurements (path : BitVec 2) (sess : BitVec 32) (msg : Bytes) (s : State) : Out := onBlock (doGetMeasurements path.toNat sess msg) s
def execKeyExchange (path : BitVec 2) (sess : BitVec 32) (msg : Bytes) (s : State) : Out := onBlock (doKeyExchange path.toNat sess msg) s
def execFinish (path : BitVec 2) (sess : BitVec 32) (msg : Bytes) (s : State) : Out := onBlock (doFinish path.toNat sess msg) s
def execEndSession (path : BitVec 2) (sess : BitVec 32) (msg : Bytes) (s : State) : Out := onBlock (doEndSession path.toNat sess msg) s
def execGetEncapsulatedRequest (path : BitVec 2) (sess : BitVec 32) (msg : Bytes) (s : State) : Out := onBlock (doGetEncap path.toNat sess msg) s
def execDeliverEncapsulatedResponse (path : BitVec 2) (sess : BitVec 32) (msg : Bytes) (s : State) : Out :=
  onBlock (doDeliverEncap path.toNat sess msg) s

end Sys2Proof.Machine
end

