-- ==== Sys2Proof/Machine/Tenant.lean ====
section
/-! DEFINITION. Tenant provisioning, the evidence services, and the operator's keys of the slot class (R311 to R313, R319, R329 to
R336). Choices marked in the log: DEDUCED 76, 77, 78. -/

namespace Sys2Proof.Machine

/-! ### Group 0x10 (R311 to R313) -/

/-- Tenant service is full in DEPLOYED alone; group 0x40 is taken in RECLAIMED too (R349). -/
def tenantService (b : Block) : Bool := lcState b = 3
def slotService (b : Block) : Bool := lcState b = 3 || lcState b = 4

/-- A skein that PQ_START may provision (R313). -/
def tpkSkein (n : Nat) (b : Block) : Option Skein := match evSkein n b with
  | some s => if s.slotClass || !tenantService b then none else some s
  | none => none

/-- Path and session of a requester as one number. -/
def requester (path : Nat) (sess : BitVec 32) : Nat := path * 2 ^ 32 + sess.toNat

/-- The exchange of PQ_START once its checks have passed: the pending TPK, and the response from offset 5. -/
def pqExchange (path n : Nat) (sess : BitVec 32) (msg : Bytes) (rekey : Bool) (b : Block) : Bytes × Block :=
  let (seed, b) := draw 512 b
  let mine := ecScalar (toBytes 64 seed)
  let (ct, z) := Config.mlkemEncap (sliceBytes msg 105 1568) b.draws
  let b := { b with draws := b.draws + 1 }
  let resp := sliceBytes (Config.ecPublic mine) 0 97 ++ sliceBytes ct 0 1568
  let th := sha384 (toBytes 4 sess ++ sliceBytes msg 4 1669 ++ resp)
  let shared := sliceBytes (Config.ecdh mine (sliceBytes msg 8 97)) 0 48 ++ sliceBytes z 0 32
  let p : PendTpk :=
    { tpk := kdf shared "frexis tenant" (toBytes 48 th ++ leBytes 2 n), provisioner := sha384 (sliceBytes msg 8 1665), th := th,
      session := requester path sess, rekey := rekey, since := b.tick }
  let b := setSrv (fun v => { v with tpks := amSet n p v.tpks }) b
  let (ec, b) := signEc (aliasScalar b) th b
  (zeroBytes 3 ++ resp ++ ec ++ signPq (aliasSeed b) (ascii "frexis pq" ++ toBytes 48 th), b)

/-- A PQ_START's right to provision: none needed for a skein without a TPK, else a MAC under its TPK (R313). -/
def pqAuth (s : Skein) (msg : Bytes) : Bool := match s.tpk with
  | none => leField msg 6 1 != 1
  | some k => leField msg 6 1 == 1 && hmac384 (keyBytes k) (sliceBytes msg 4 1669) == sliceBytes msg 1673 48

/-- PQ_START (R311, R313). -/
def doPqStart (path : Nat) (sess : BitVec 32) (msg : Bytes) (b : Block) : Block :=
  let n := leField msg 4 2
  let flags := leField msg 6 1
  let rekey := flags == 1
  let auth := sliceBytes msg 1673 48
  groupOp .host 0x10 1 path sess msg 1721 (decide (1024 ≤ n) || decide (2 ≤ flags) || leField msg 7 1 != 0 || (!rekey && auth.any (· != 0)))
    (fun b =>
      if controlBusy n b || trngStopped b then hold (some n) (.pqStart (BitVec.ofNat 2 path) sess msg) b
      else if !Config.kemKeyOk (sliceBytes msg 105 1568) || !Config.ecPoint (sliceBytes msg 8 97) then groupStatus path 0x10 1 cInvalid b
      else match tpkSkein n b with
        | none => groupStatus path 0x10 1 cNotPermitted b
        | some s =>
          if !pqAuth s msg then groupStatus path 0x10 1 cNotPermitted b
          else
            let (rest, b) := pqExchange path n sess msg rekey b
            groupAnswer path 0x10 1 cOK rest b) b

/-- Discard a skein's pending TPK. -/
def dropTpk (n : Nat) (b : Block) : Block := setSrv (fun v => { v with tpks := amDel n v.tpks }) b

/-- A pending TPK becomes the skein's (R313). -/
def confirmTpk (n : Nat) (p : PendTpk) (b : Block) : Block :=
  modSkein n (fun s => { s with tpk := some p.tpk, provisioner := p.provisioner, hFwTpk := hFw b, fwChanges := 0 }) (dropTpk n b)

/-- PQ_FINISH (R312, R313). -/
def doPqFinish (path : Nat) (sess : BitVec 32) (msg : Bytes) (b : Block) : Block :=
  let n := leField msg 4 2
  groupOp .host 0x10 2 path sess msg 56 (decide (1024 ≤ n) || leField msg 6 2 != 0) (fun b =>
    if controlBusy n b then hold (some n) (.pqFinish (BitVec.ofNat 2 path) sess msg) b
    else match tpkSkein n b, amGet n b.srv.tpks with
      | some s, some p =>
        if p.session != requester path sess || s.tpk.isSome != p.rekey then groupStatus path 0x10 2 cNotPermitted b
        else if hmac384 (keyBytes p.tpk) (ascii "frexis confirm" ++ toBytes 48 p.th) != sliceBytes msg 8 48 then
          groupStatus path 0x10 2 cAuthFail (dropTpk n b)
        else groupStatus path 0x10 2 cOK (confirmTpk n p b)
      | _, _ => groupStatus path 0x10 2 cNotPermitted b) b

/-- TPK_PENDING_EXPIRY: a pending TPK not confirmed within 1,000,000 ticks is discarded (R313). -/
def doTpkExpiry (n : Nat) (b : Block) : Block := match amGet n b.srv.tpks with
  | some p => if b.tick < p.since + 1000000 then b else dropTpk n b
  | none => b

/-! ### Group 0x20 (R334 to R336) -/

/-- The ML-DSA-87 public keys of a seed, 2,592 bytes. -/
def pqPublic (seed : Key) : Bytes := sliceBytes (Config.mldsaPublic seed) 0 2592

/-- ENDORSE: the DeviceID key's signature over "frexis alias", ALIAS_PQ and H_FW (R335). -/
def endorse (b : Block) : Bytes := signPq (devSeed b) (ascii "frexis alias" ++ pqPublic (aliasSeed b) ++ toBytes 48 (hFw b))

/-- PQ_SIGN (R335). -/
def doPqSign (path : Nat) (sess : BitVec 32) (msg : Bytes) (b : Block) : Block :=
  groupOp .either 0x20 1 path sess msg 4 false (fun b =>
    let h := match findSpdm path sess b with
      | some s => s.signed
      | none => (getPath path b).signed
    match h with
    | none => groupStatus path 0x20 1 cNotPermitted b
    | some h => groupAnswer path 0x20 1 cOK (zeroBytes 3 ++ signPq (aliasSeed b) (ascii "frexis spdm" ++ toBytes 48 h)) b) b

/-- PQ_CHAIN (R334, R335). -/
def doPqChain (path : Nat) (sess : BitVec 32) (msg : Bytes) (b : Block) : Block :=
  groupOp .either 0x20 2 path sess msg 5 (decide (1 < leField msg 4 1)) (fun b =>
    groupAnswer path 0x20 2 cOK (zeroBytes 3 ++
      (if leField msg 4 1 = 0 then pqPublic (devSeed b) else pqPublic (aliasSeed b) ++ toBytes 48 (hFw b) ++ endorse b)) b) b

/-- Bytes of a record that one message carries. -/
def evPart (rec' : Bytes) (off : Nat) : Bytes := (rec'.drop off).take 4096

/-- SKEIN_EVIDENCE (R329, R333, R336). -/
def doSkeinEvidence (path : Nat) (sess : BitVec 32) (msg : Bytes) (b : Block) : Block :=
  let n := leField msg 4 2
  groupOp .either 0x20 3 path sess msg 40 (decide (1024 ≤ n) || leField msg 6 2 != 0) (fun b =>
    if sess = 0 then spdmError path eSessionRequired b
    else if trngStopped b then hold none (.skeinEvidence (BitVec.ofNat 2 path) sess msg) b
    else
      let b := modSpdm path sess (fun s => { s with record := none }) b
      match evSkein n b with
      | none => groupStatus path 0x20 3 cNotPermitted b
      | some s =>
        let (r, b) := evRecord n s (sliceBytes msg 8 32) b
        let b := modSpdm path sess (fun s => { s with record := some r }) b
        groupAnswer path 0x20 3 (if s.st = .resetting then cResetting else cOK) (zeroBytes 3 ++ leBytes 4 r.length ++ zeroBytes 4 ++ evPart r 0) b) b

/-- SKEIN_EVIDENCE_PART (R336). -/
def doSkeinEvidencePart (path : Nat) (sess : BitVec 32) (msg : Bytes) (b : Block) : Block :=
  let off := leField msg 4 4
  groupOp .either 0x20 4 path sess msg 8 false (fun b =>
    if sess = 0 then spdmError path eSessionRequired b
    else match (findSpdm path sess b).bind (·.record) with
      | none => spdmError path eInvalidRequest b
      | some r =>
        if off % 4096 != 0 || r.length ≤ off then spdmError path eInvalidRequest b
        else groupAnswer path 0x20 4 cOK (zeroBytes 11 ++ evPart r off) b) b

/-! ### The EVIDENCE descriptor (R329) -/

def evidenceChecks (d : Line) : Checks := { c4 := bodyReserved d [(16, 8), (24, 32)] }

/-- EVIDENCE: the record of the ring's skein, written to host memory whole. -/
def startEvidence (x : Desc) (b : Block) : Block :=
  let n := (ringOwner x.ring).getD 0
  if trngStopped b then setPhase x.id .ready b
  else match evSkein n b with
    | none => finish x cNotPermitted b
    | some s =>
      let (r, b) := evRecord n s (toBytes 32 (BitVec.ofNat 256 (fieldAt x.raw 24 32))) b
      complete x cOK (resAt 12 4 r.length) (skeinWrite n (fieldAt x.raw 16 8) r b)

def doEvidence (r : Ring) (d : Line) (b : Block) : Block :=
  fetch r d 0x28 (.evidence r d) (fun _ => evidenceChecks d) (fun _ => []) startEvidence b

/-! ### Group 0x40 (R319) -/

/-- An operation of group 0x40 on the slot-class skein, with its order under R34. -/
def slotOp (op path : Nat) (sess : BitVec 32) (msg : Bytes) (size : Nat) (bad : Bool) (cmd : Instr) (k : Nat → Block → Block) (b : Block) :
    Block :=
  groupOp .operator 0x40 op path sess msg size bad (fun b => match slotClassSkein b with
    | none => groupStatus path 0x40 op cNotPermitted b
    | some (n, s) =>
      if s.st = .destroying || !slotService b then groupStatus path 0x40 op cNotPermitted b
      else if controlBusy n b then hold (some n) cmd b
      else k n b) b

def slotKeyInstall (path : Nat) (msg : Bytes) (n : Nat) (b : Block) : Block :=
  match installKey n .E (leField msg 4 1) (leField msg 5 1) (leField msg 6 1 == 1) (ofBytes 256 (sliceBytes msg 16 32)) b with
  | (.ok k, b) => groupAnswer path 0x40 1 cOK ([0] ++ leBytes 2 k) b
  | (.error st, b) => groupStatus path 0x40 1 st b

def doSlotKeyInstall (path : Nat) (sess : BitVec 32) (msg : Bytes) (b : Block) : Block :=
  slotOp 1 path sess msg 48 (!restZero msg 7 16 || !regionParams (leField msg 4 1) (leField msg 5 1) (leField msg 6 1))
    (.slotKeyInstall (BitVec.ofNat 2 path) sess msg) (slotKeyInstall path msg) b

/-- EPOCH: an advance of the region, at once or when its microsecond allows (R112, R526). -/
def slotAdvance (r : Nat) (b : Block) : BitVec 8 × Block := match amGet r b.mem.regions with
  | none => (cNotPermitted, b)
  | some g =>
    if g.adv != 0 then (cNotPermitted, b)
    else if mayAdvance r b && g.advs.isEmpty then
      let (ok, b) := advanceRegion r b
      (if ok then cOK else cQuota, b)
    else (cOK, setMem (fun m => { m with regions := amMod r (fun x => { x with advs := x.advs ++ [none] }) m.regions }) b)

def slotKeyRotate (path : Nat) (msg : Bytes) (n : Nat) (b : Block) : Block :=
  let k := leField msg 4 2
  let flags := leField msg 6 1
  match checkKey n k b with
  | some st => groupStatus path 0x40 2 st b
  | none =>
    if flags.testBit 0 then
      let (st, b) := slotAdvance (((getKey k b).map (·.region)).getD 0) b
      groupStatus path 0x40 2 st b
    else groupStatus path 0x40 2 cOK (rotateKey none k (if flags.testBit 1 then none else some (ofBytes 256 (sliceBytes msg 16 32))) b)

def doSlotKeyRotate (path : Nat) (sess : BitVec 32) (msg : Bytes) (b : Block) : Block :=
  slotOp 2 path sess msg 48 (!restZero msg 7 16 || decide (4096 ≤ leField msg 4 2) || decide (4 ≤ leField msg 6 1))
    (.slotKeyRotate (BitVec.ofNat 2 path) sess msg) (slotKeyRotate path msg) b

def slotKeyRetire (path : Nat) (msg : Bytes) (n : Nat) (b : Block) : Block :=
  match checkKey n (leField msg 4 2) b with
  | some st => groupStatus path 0x40 3 st b
  | none => groupStatus path 0x40 3 cOK (retireKey none (leField msg 4 2) b)

def doSlotKeyRetire (path : Nat) (sess : BitVec 32) (msg : Bytes) (b : Block) : Block :=
  slotOp 3 path sess msg 6 (decide (4096 ≤ leField msg 4 2)) (.slotKeyRetire (BitVec.ofNat 2 path) sess msg) (slotKeyRetire path msg) b

def doSlotSecretSet (path : Nat) (sess : BitVec 32) (msg : Bytes) (b : Block) : Block :=
  let which := leField msg 4 1
  slotOp 4 path sess msg 48 (!restZero msg 5 16 || (which != 2 && which != 3)) (.slotSecretSet (BitVec.ofNat 2 path) sess msg)
    (fun n b => groupStatus path 0x40 4 cOK (installSecret (which == 3) n (ofBytes 256 (sliceBytes msg 16 32)) b)) b

/-- A part of the list: one out of order discards what is assembled; the last installs the list (R319). -/
def slotMembers (path : Nat) (msg : Bytes) (n : Nat) (b : Block) : Block :=
  let first := leField msg 4 2
  let count := leField msg 6 2
  let total := leField msg 8 2
  let set (x : Option (Bytes × Nat)) (b : Block) : Block := setSrv (fun v => { v with slotList := x }) b
  let old : Option Bytes := if first = 0 then some [] else match b.srv.slotList with
    | some (bs, t) => if t = total && bs.length = 24 * first then some bs else none
    | none => none
  match old with
  | none => groupStatus path 0x40 5 cInvalid (set none b)
  | some bs =>
    let bs := bs ++ msg.drop 16
    if total < first + count then groupStatus path 0x40 5 cInvalid (set none b)
    else if first + count < total then groupStatus path 0x40 5 cOK (set (some (bs, total)) b)
    else match memberList bs total with
      | none => groupStatus path 0x40 5 cInvalid (set none b)
      | some ms =>
        let (st, b) := installMembers n ms (set none b)
        groupStatus path 0x40 5 st b

def doSlotMembers (path : Nat) (sess : BitVec 32) (msg : Bytes) (b : Block) : Block :=
  let count := leField msg 6 2
  slotOp 5 path sess msg (16 + 24 * count)
    (!restZero msg 10 16 || count = 0 || decide (256 < count) || leField msg 8 2 = 0 || decide (16384 < leField msg 8 2))
    (.slotMembers (BitVec.ofNat 2 path) sess msg) (slotMembers path msg) b

def execPqStart (path : BitVec 2) (sess : BitVec 32) (msg : Bytes) (s : State) : Out := onBlock (doPqStart path.toNat sess msg) s
def execPqFinish (path : BitVec 2) (sess : BitVec 32) (msg : Bytes) (s : State) : Out := onBlock (doPqFinish path.toNat sess msg) s
def execTpkPendingExpiry (skein : BitVec 10) (s : State) : Out := onBlock (doTpkExpiry skein.toNat) s
def execPqSign (path : BitVec 2) (sess : BitVec 32) (msg : Bytes) (s : State) : Out := onBlock (doPqSign path.toNat sess msg) s
def execPqChain (path : BitVec 2) (sess : BitVec 32) (msg : Bytes) (s : State) : Out := onBlock (doPqChain path.toNat sess msg) s
def execSkeinEvidence (path : BitVec 2) (sess : BitVec 32) (msg : Bytes) (s : State) : Out := onBlock (doSkeinEvidence path.toNat sess msg) s
def execSkeinEvidencePart (path : BitVec 2) (sess : BitVec 32) (msg : Bytes) (s : State) : Out :=
  onBlock (doSkeinEvidencePart path.toNat sess msg) s
def execEvidence (r : Ring) (d : Line) (s : State) : Out := onSettled (doEvidence r d) s
def execSlotKeyInstall (path : BitVec 2) (sess : BitVec 32) (msg : Bytes) (s : State) : Out := onSettled (doSlotKeyInstall path.toNat sess msg) s
def execSlotKeyRotate (path : BitVec 2) (sess : BitVec 32) (msg : Bytes) (s : State) : Out := onSettled (doSlotKeyRotate path.toNat sess msg) s
def execSlotKeyRetire (path : BitVec 2) (sess : BitVec 32) (msg : Bytes) (s : State) : Out := onSettled (doSlotKeyRetire path.toNat sess msg) s
def execSlotSecretSet (path : BitVec 2) (sess : BitVec 32) (msg : Bytes) (s : State) : Out := onSettled (doSlotSecretSet path.toNat sess msg) s
def execSlotMembers (path : BitVec 2) (sess : BitVec 32) (msg : Bytes) (s : State) : Out := onSettled (doSlotMembers path.toNat sess msg) s

end Sys2Proof.Machine
end

