-- ==== Sys2Proof/Machine/Firmware.lean ====
section
/-! DEFINITION. Firmware banks, activation, anti-rollback and the life cycle: group 0x30 (R337 to R359). Choices marked in the
log: DEDUCED 79, 80, 81, 82, 83. -/

namespace Sys2Proof.Machine

/-! ### Images (R338, R339, R347) -/

/-- REASON of a refused image, 0 where it is accepted. -/
def imageReason (img : Bytes) (b : Block) : Nat :=
  let head := sliceBytes img 0 128
  let len := leField img 8 4
  let target := sliceBytes img 64 16
  let svn := leField img 2 2
  if !Config.ecVerify Config.aedmelEc (sha384 head) (sliceBytes img 128 96) ||
      !Config.mldsaVerify Config.aedmelPq (ascii "frexis fw" ++ head) (sliceBytes img 224 4627) then 1
  else if leField img 0 2 != 1 || len < 4 || 1040384 < len || len % 4 != 0 ||
      sha384Bytes (sliceBytes img 8192 len) != sliceBytes img 16 48 then 11
  else if target.any (· != 0) && target != toBytes 16 b.regs.deviceId then 2
  else if !restZero img 12 16 || !restZero img 80 128 || !restZero img 4851 8192 then 11
  else if 256 < svn then 5
  else if svn < arbCounter b then 6 else 0

/-! ### Who may send group 0x30 (R258, R349, R350, R496) -/

/-- BLANK and TEST need no operator session, and have no root before enrolment. -/
def openState (b : Block) : Bool := lcState b = 0 || lcState b = 1

/-- A group 0x30 operation of a path: 3 is the JTAG mailbox. `status` marks LC_STATUS, `free` an operation that is taken on I3C
outside a session. -/
def group30 (op path : Nat) (sess : BitVec 32) (msg : Bytes) (size : Nat) (bad status free : Bool) (k : Block → Block) (b : Block) : Block :=
  let run (b : Block) : Block := if msg.length != size || leField msg 2 2 != 0 || bad then spdmError path eInvalidRequest b else k b
  if leField msg 0 1 != 0x30 || leField msg 1 1 != op || 8256 < msg.length then otherGroup path sess msg b
  else if asleep b || !b.dst.started then b
  else if path = 3 then
    if status then run b
    else if !openState b then groupStatus 3 0x30 op cNotPermitted b
    else if firmwareBusy b then spdmError 3 eBusy b else run b
  else if !pathExists path b then b
  else if path = 0 && (openState b || (lcDead b && status)) then
    if firmwareBusy b then spdmError path eBusy b else run b
  else spdmGate path false (fun b =>
    if free && path = 0 && sess = 0 then run b
    else match groupBar .operator path sess b with
      | some e => spdmError path e b
      | none => run b) b

/-- STATUS and REASON: OK with none, NOT_PERMITTED with one (R341). -/
def fwAnswer (path op reason : Nat) (b : Block) : Block :=
  groupAnswer path 0x30 op (if reason = 0 then cOK else cNotPermitted) (leBytes 1 reason) b

/-- LCS_STATE's fields that a burn or a confirmation changes (R515). -/
def lcsRefresh (next : Nat) (b : Block) : Block :=
  setRegs (fun r => { r with lcsState := setBits (setBits (setBits r.lcsState 12 8 next) 24 16 (arbCounter b)) 47 32 (bankSvn (running b)) }) b
def lcsNext (b : Block) : Nat := bitField b.regs.lcsState 12 8

/-! ### The firmware operations (R341 to R348) -/

/-- A life-cycle transition is in progress (R342). -/
def lcRuns (b : Block) : Bool := b.lcBusy || b.dst.lc.isSome

def doFwBegin (path : Nat) (sess : BitVec 32) (msg : Bytes) (b : Block) : Block :=
  group30 1 path sess msg 4 false false false (fun b =>
    if (running b).st = 3 || lcRuns b then fwAnswer path 1 3 b
    else fwAnswer path 1 0 (setOther { st := 1, img := [] } b)) b

/-- Bytes written at an offset of a bank that reads zero beyond what it holds. -/
def patchBytes (img : Bytes) (off : Nat) (bs : Bytes) : Bytes :=
  sliceBytes img 0 off ++ bs ++ img.drop (off + bs.length)

def doFwWrite (path : Nat) (sess : BitVec 32) (msg : Bytes) (b : Block) : Block :=
  let off := leField msg 4 4
  let len := leField msg 8 2
  group30 2 path sess msg (16 + len) (len = 0 || decide (4096 < len) || !restZero msg 10 16) false false (fun b =>
    let k := otherBank b
    if k.st != 1 || 1048576 < off + len then fwAnswer path 2 3 b
    else fwAnswer path 2 0 (setOther { k with img := patchBytes k.img off (msg.drop 16) } b)) b

/-- FW_STAGE: the image checks; STAGED, or EMPTY with the reason. -/
def doFwStage (path : Nat) (sess : BitVec 32) (msg : Bytes) (b : Block) : Block :=
  group30 3 path sess msg 4 false false false (fun b =>
    let k := otherBank b
    if k.st != 1 then fwAnswer path 3 3 b
    else
      let r := imageReason k.img b
      fwAnswer path 3 r (setOther (if r = 0 then { k with st := 2 } else {}) b)) b

/-- FW_ACTIVATE: answered, every session ends, ACLASS 5, the busy period begins (R343, R345). -/
def doFwActivate (path : Nat) (sess : BitVec 32) (msg : Bytes) (b : Block) : Block :=
  group30 4 path sess msg 4 false false false (fun b =>
    if (otherBank b).st != 2 then fwAnswer path 4 3 b
    else if oldWraps b then fwAnswer path 4 9 b
    else raiseViews { cls := 5 } (setDst 11 true (endSessions none (fwAnswer path 4 0 b)))) b

/-- The staged bank runs as TRIAL and the one before it is the PREVIOUS; CDI1 follows, and each provisioned skein counts the change
(R343, R330). -/
def runStaged (b : Block) : Block :=
  let k := otherBank b
  let old := running b
  let toB := !runsB b
  let b := setDistaff (fun d =>
    if toB then { d with bankA := { old with st := 5 }, bankB := { k with st := 3 } }
    else { d with bankB := { old with st := 5 }, bankA := { k with st := 3 } }) b
  let up (s : Skein) : Skein := if s.tpk.isSome then { s with fwChanges := min (s.fwChanges + 1) 65535 } else s
  deriveCdi1 { b with skeins := b.skeins.map fun e => (e.1, up e.2) }

/-- FW_ACTIVATION_RUN: once no skein reset runs and the firmware's key-ladder step has ended, the ROM checks the staged bank and runs
it as TRIAL; a failed check or self-test leaves the running bank, and empties the staged one (R343). -/
def doActivationRun (selfTest : Bool) (b : Block) : Block :=
  let resetting := b.skeins.any fun e => e.2.st == .resetting
  if !b.regs.dstStatus.getLsbD 11 || resetting || b.ladder.owner = 1 then b
  else
    let b := setDst 11 false b
    raiseViews { cls := 5 } (if imageReason (otherBank b).img b != 0 || !selfTest then setRunning { running b with st := 4 } (setOther {} b)
      else runStaged b)

/-- Burn the anti-rollback bits c to s − 1 in ascending order; `fail` names the first bit that fails verification (R348). -/
def burnSteps (c s : Nat) (fail : Option Nat) (b : Block) : Bool × Block :=
  let upTo := match fail with
    | some f => if c ≤ f && f < s then f else s
    | none => s
  (upTo == s, ((List.range (upTo - c)).map (· + c)).foldl (fun b i => otpBurn (64 + i / 64) (BitVec.ofNat 64 (2 ^ (i % 64))) b) b)

def doFwConfirm (path : Nat) (sess : BitVec 32) (msg : Bytes) (fail : Option (BitVec 9)) (b : Block) : Block :=
  group30 5 path sess msg 4 false false false (fun b =>
    let k := running b
    let c := arbCounter b
    let s := bankSvn k
    if k.st != 3 then fwAnswer path 5 3 b
    else if c < s && !b.pwr.backupGood then fwAnswer path 5 4 b
    else
      let (ok, b) := burnSteps c s (fail.map (·.toNat)) b
      let b := lcsRefresh (lcsNext b) b
      if !ok then fwAnswer path 5 10 b
      else fwAnswer path 5 0 (setRunning { k with st := 4 } b)) b

def doFwStatus (path : Nat) (sess : BitVec 32) (msg : Bytes) (b : Block) : Block :=
  group30 6 path sess msg 4 false false false (fun b =>
    groupAnswer path 0x30 6 cOK ([0, 0, 0] ++ measValue 4 b ++ measValue 7 b) b) b

/-- FW_LOAD: a write of DST_FW_LOAD; while both banks are empty it starts a load of the host image into bank A (R340, R514). -/
def doFwLoad (q : Tgt) (image : Bytes) (b : Block) : Block :=
  if !isReg q 0x070 false then b
  else answerWrite (match writeValue q b with
    | none => b
    | some v =>
      if !writesHonoured 0x070 b then b
      else
        let b := setRegs (fun r => { r with fwLoad := writeFields r.fwLoad v [fld 63 12] }) b
        if !b.regs.dstStatus.getLsbD 8 || bitField b.regs.fwLoad 63 12 = 0 then b
        else
          let img := image.take (8192 + leField image 8 4)
          let at' := bitField b.regs.fwLoad 63 12 * 4096
          let b := readHost none (at' + 8192) (img.length - 8192) (readHost none at' 8192 b)
          if imageReason img b != 0 then raiseViews { cls := 5 } (setDst 9 true b)
          else
            let b := setDistaff (fun d => { d with bankA := { st := 4, img := img } }) b
            deriveCdi1 (setDst 8 false (setDst 9 false b)))

/-! ### Life-cycle transitions (R349 to R359) -/

/-- Intent and state words carry their complement (R355). -/
def lcWord (v : Nat) : BitVec 64 := BitVec.ofNat 64 (v + (2 ^ 32 - 1 - v) * 2 ^ 32)
/-- OTP word of a slot's intent; its state word follows. -/
def lcSlotWord (slot : Nat) : Nat := lcBase / 8 + 2 * slot

/-- How a message reached Frexis. -/
inductive LcPath where
  | mailbox | outside | session
deriving DecidableEq, Repr

/-- Transitions of R350: from, to, signer and path. -/
def lcAllowed (from' into signer : Nat) (p : LcPath) : Bool :=
  let early := from' = 0 || from' = 1
  let pathOk := if early then p != .session else p == .session
  pathOk &&
    ((from' = 0 && into = 1 && signer = 0) || (from' = 1 && into = 2 && signer = 0) || (from' = 2 && into = 3 && signer = 1) ||
     (from' = 3 && into = 4 && signer = 1) || (from' = 4 && into = 3 && signer = 1) || (from' = 4 && into = 2 && signer = 0) ||
     (from' ≤ 4 && into = 5 && signer ≤ 1))

/-- Everything that TEST writes is present: helper data, SERIAL and the package binding (R349). -/
def testDone (b : Block) : Bool :=
  (otpBytes 0 256 b).any (· != 0) && serialOf b != 0 && (otpBytes 0x300 48 b).any (· != 0)

/-- The signer's key digests are those of the ROM or of the current operator record (R352). -/
def signerKnown (signer : Nat) (ec pq : Bytes) (b : Block) : Bool :=
  if signer = 0 then sha384Bytes ec == sha384Bytes Config.aedmelEc && sha384Bytes pq == sha384Bytes Config.aedmelPq
  else match opCurrent b with
    | some i => sha384Bytes ec ++ sha384Bytes pq == opRecord i b
    | none => false

def signaturesOk (ec pq signed sigEc sigPq : Bytes) (label : String) : Bool :=
  Config.ecVerify ec (sha384 signed) sigEc && Config.mldsaVerify pq (ascii label ++ signed) sigPq

/-- DEVICE_ID and SERIAL of a request are the unit's own. -/
def identityOk (dev ser : Bytes) (b : Block) : Bool := dev == toBytes 16 b.regs.deviceId && ser == toBytes 16 (serialOf b)

/-- The trial and supply checks that end R352's and R353's lists. -/
def tailReason (b : Block) : Nat :=
  if b.dst.bankA.st = 3 || b.dst.bankB.st = 3 || b.regs.dstStatus.getLsbD 11 then 8 else if !b.pwr.backupGood then 4 else 0

/-- REASON of a refused transition, 0 where every check of R352 passes. -/
def lcReason (p : LcPath) (msg : Bytes) (b : Block) : Nat :=
  let target := leField msg 4 1
  let signer := leField msg 6 1
  let slot := leField msg 7 1
  let ec := sliceBytes msg 48 97
  let pq := sliceBytes msg 145 2592
  if lcRuns b || !lcAllowed (lcState b) target signer p || (lcState b = 1 && target = 2 && !testDone b) then 3
  else if !signerKnown signer ec pq b || !signaturesOk ec pq (sliceBytes msg 4 44) (sliceBytes msg 2737 96) (sliceBytes msg 2833 4627) "frexis lc" then 1
  else if !identityOk (sliceBytes msg 8 16) (sliceBytes msg 24 16) b then 2
  else if leField msg 5 1 != lcState b then 3
  else if slot != lcsNext b || slot > (if target = 5 then 15 else 14) then 7
  else tailReason b

/-- Destroy a skein as a forced SKEIN_DESTROY does, with no descriptor of its own (R289, R358). -/
def forceDestroy (evs : MemEvs) (n : Nat) (b : Block) : Block := match getSkein n b with
  | none => b
  | some s =>
    if s.st = .destroying then b
    else
      let dr : Drain :=
        { kind := .destroy, desc := none, index := 0, opcode := 0x42, deadline := b.tick + drainTicks 0 b, late := false, wasQuiesced := false }
      let b := abandonArmed n (setSkSt n .destroying (tdiFail n (modSkein n (fun s => { s with drains := [dr], counts := {} }) b)))
      let b := releaseWaiters n cAborted b
      let b := { b with lates := b.lates.filter fun l => l.owner != some n }
      if s.st = .swapped then endDestroy evs n b else tryDrain evs n b

/-- Erasure of R358, beyond the skeins. -/
def eraseSecrets (b : Block) : Block :=
  let b := b.host.ports.foldl (fun b p => p.2.streams.foldl (fun b s => (streamInsecure p.1 s.1 b).2) b) b
  let b := setHost (fun h => { h with fth := h.fth.map fun e => (e.1, { e.2 with sas := [], cur := none, next := none, retire := false }) }) b
  let b := [28, 29].foldl (fun b p => if (getFed p b).isSome then loseDie p b else b) b
  let b := setFab (fun x => { x with sessions := [], fedKey := none, fed := [] }) b
  let b := setMem (fun m => { m with keys := [], regions := [], ktree := 0, roots := [], kbKey := 0, txns := [] }) b
  let b := setSrv (fun v => { v with tpks := [], aead := [], slotList := none }) b
  let b := setTel (fun t => { t with spool := { imageId := t.spool.imageId }, dumpSlots := [], dumpErase := none }) b
  setDistaff (fun d => { d with swapKey := 0, prevSwap := none }) b

/-- Steps 1 to 3 of R356: sessions end, the intent word is burnt, the erasure begins. `took` are the bits of the word that the burn
set. -/
def lcAccept (path : Nat) (sess : BitVec 32) (p : LcPath) (msg : Bytes) (took : BitVec 64) (evs : MemEvs) (b : Block) : Block :=
  let target := leField msg 4 1
  let slot := leField msg 7 1
  let word := lcWord (target + 16 * leField msg 5 1 + 256 * leField msg 6 1)
  let b := endSessions (if p = .session then some (path, sess) else none) (raiseViews { cls := 5 } { b with lcBusy := true })
  let b := otpBurn (lcSlotWord slot) (word &&& took) b
  let next := slot + 1
  if word &&& took != word then fwAnswer path 0x10 10 (lcsRefresh next { b with lcBusy := false })
  else
    let b := setDistaff (fun d => { d with lc := some { target := target, slot := slot, reply := some (path, sess) } }) (lcsRefresh next b)
    b.skeins.foldl (fun b e => forceDestroy evs e.1 b) b

def doLcTransition (path : Nat) (sess : BitVec 32) (msg : Bytes) (took : BitVec 64) (evs : MemEvs) (b : Block) : Block :=
  let p : LcPath := if path = 3 then .mailbox else if sess = 0 then .outside else .session
  group30 0x10 path sess msg 7460 (!restZero msg 40 48 || decide (1 < leField msg 6 1)) false false (fun b =>
    match lcReason p msg b with
    | 0 => lcAccept path sess p msg took evs b
    | r => fwAnswer path 0x10 r b) b

/-- Answer the transition's request, and end the last session. -/
def lcReply (x : LcPend) (reason : Nat) (b : Block) : Block := match x.reply with
  | none => b
  | some (path, sess) =>
    let b := fwAnswer path 0x10 reason b
    if sess = 0 || path = 3 then b else endSpdm path sess b

/-- The erasure of a transition, once (R358). -/
def lcErased (x : LcPend) (b : Block) : Block :=
  if x.reply.isSome && !x.erased then setDistaff (fun d => { d with lc := some { x with erased := true } }) (eraseSecrets b) else b

/-- The state word is burnt: the policy is cleared, the request answered, and a block reset is due 10 ms later (R357). -/
def lcBurnt (x : LcPend) (b : Block) : Block :=
  let b := setTel (fun t => { t with policy := 0 }) b
  let b := lcReply x 0 (setDistaff (fun d => { d with lc := none, resetDue := some (b.tick + 10000, 4) }) b)
  lcsRefresh (lcsNext b) b

/-- LC_STATE_BURN: the erasure ends when the last skein has gone; once every key slot holds zero and VAO_BACKUP reports good, the state
word is burnt, the request answered, and a block reset follows 10 ms later (R356 to R358). A transition that the ROM completes after a
start erases nothing again. -/
def doLcStateBurn (slotsZero : Bool) (took : BitVec 64) (b : Block) : Block := match b.dst.lc with
  | none => b
  | some x =>
    if x.reply.isSome && !b.skeins.isEmpty then b
    else
      let b := lcErased x b
      let ended (b : Block) : Block := setDistaff (fun d => { d with lc := none }) { b with lcBusy := false }
      if x.reply.isSome && !slotsZero then lcReply x 10 (ended b)
      else if !b.pwr.backupGood then b
      else
        let word := lcWord (x.target + 256 * x.slot)
        let b := otpBurn (lcSlotWord x.slot + 1) (word &&& took) b
        if word &&& took != word then lcReply x 10 (ended b)
        else
          lcBurnt x b

/-- LC_STATUS (R351). -/
def doLcStatus (path : Nat) (sess : BitVec 32) (msg : Bytes) (b : Block) : Block :=
  group30 0x11 path sess msg 4 false true false (fun b =>
    groupAnswer path 0x30 0x11 cOK ([0, 0, 0] ++ toBytes 4 b.regs.lockState ++ toBytes 16 b.regs.deviceId ++ toBytes 16 b.regs.serial ++
      otpBytes lcBase 288 b) b) b

/-- REASON of a refused OPERATOR_BIND (R353). -/
def bindReason (msg : Bytes) (b : Block) : Nat :=
  let ec := sliceBytes msg 136 97
  let pq := sliceBytes msg 233 2592
  let free := [0, 1].find? fun i => !opWritten i b
  if (lcState b != 2 && lcState b != 4) || leField msg 5 1 != lcState b || leField msg 6 1 != 0 ||
      (free.isSome && free != some (leField msg 4 1)) then 3
  else if !signerKnown 0 ec pq b || !signaturesOk ec pq (sliceBytes msg 4 132) (sliceBytes msg 2825 96) (sliceBytes msg 2921 4627) "frexis bind" then 1
  else if !identityOk (sliceBytes msg 8 16) (sliceBytes msg 24 16) b then 2
  else if free.isNone then 7
  else tailReason b

/-- OPERATOR_BIND burns the record and then the revoke bit of an earlier one; `took` are the record's bits that the burn set. -/
def doOperatorBind (path : Nat) (sess : BitVec 32) (msg : Bytes) (took : BitVec 768) (b : Block) : Block :=
  group30 0x12 path sess msg 7548 (leField msg 7 1 != 0) false (opCurrent b).isNone (fun b =>
    match bindReason msg b with
    | 0 =>
      let i := leField msg 4 1
      let rec' := sliceBytes msg 40 96
      let burnt := (List.range 96).map fun j => rec'.getD j 0 &&& byteAt took j
      let b := otpBurnBytes (lcBase + 288 + 96 * i) burnt b
      if burnt != rec' then fwAnswer path 0x12 10 b
      else fwAnswer path 0x12 0 (if i = 1 then otpBurn 94 1 b else b)
    | r => fwAnswer path 0x12 r b) b

/-- A mailbox message that names no operation of group 0x30: NOT_PERMITTED outside BLANK and TEST (R496). -/
def mailboxOther (msg : Bytes) (b : Block) : Block :=
  if asleep b || !b.dst.started then b
  else if openState b then spdmError 3 eInvalidRequest b
  else groupStatus 3 (leField msg 0 1) (leField msg 1 1) cNotPermitted b

/-- LC_MAILBOX: a group 0x30 message through JTAG (R350, R496). -/
def doLcMailbox (msg : Bytes) (took : BitVec 768) (fail : Option (BitVec 9)) (evs : MemEvs) (b : Block) : Block :=
  if leField msg 0 1 != 0x30 then mailboxOther msg b else
  match leField msg 1 1 with
  | 1 => doFwBegin 3 0 msg b
  | 2 => doFwWrite 3 0 msg b
  | 3 => doFwStage 3 0 msg b
  | 4 => doFwActivate 3 0 msg b
  | 5 => doFwConfirm 3 0 msg fail b
  | 6 => doFwStatus 3 0 msg b
  | 0x10 => doLcTransition 3 0 msg (took.setWidth 64) evs b
  | 0x11 => doLcStatus 3 0 msg b
  | 0x12 => doOperatorBind 3 0 msg took b
  | _ => mailboxOther msg b

def execFwBegin (path : BitVec 2) (sess : BitVec 32) (msg : Bytes) (s : State) : Out := onBlock (doFwBegin path.toNat sess msg) s
def execFwWrite (path : BitVec 2) (sess : BitVec 32) (msg : Bytes) (s : State) : Out := onBlock (doFwWrite path.toNat sess msg) s
def execFwStage (path : BitVec 2) (sess : BitVec 32) (msg : Bytes) (s : State) : Out := onBlock (doFwStage path.toNat sess msg) s
def execFwActivate (path : BitVec 2) (sess : BitVec 32) (msg : Bytes) (s : State) : Out := onSettled (doFwActivate path.toNat sess msg) s
def execFwActivationRun (selfTest : Bool) (s : State) : Out := onSettled (doActivationRun selfTest) s
def execFwConfirm (path : BitVec 2) (sess : BitVec 32) (msg : Bytes) (fail : Option (BitVec 9)) (s : State) : Out :=
  onBlock (doFwConfirm path.toNat sess msg fail) s
def execFwStatus (path : BitVec 2) (sess : BitVec 32) (msg : Bytes) (s : State) : Out := onBlock (doFwStatus path.toNat sess msg) s
def execFwLoad (q : Tgt) (image : Bytes) (s : State) : Out := onAccess (.fwLoad q image) (doFwLoad q image) s
def execLcTransition (path : BitVec 2) (sess : BitVec 32) (msg : Bytes) (took : BitVec 64) (evs : MemEvs) (s : State) : Out :=
  onSettled (doLcTransition path.toNat sess msg took evs) s
def execLcStateBurn (slotsZero : Bool) (took : BitVec 64) (s : State) : Out := onSettled (doLcStateBurn slotsZero took) s
def execLcStatus (path : BitVec 2) (sess : BitVec 32) (msg : Bytes) (s : State) : Out := onBlock (doLcStatus path.toNat sess msg) s
def execOperatorBind (path : BitVec 2) (sess : BitVec 32) (msg : Bytes) (took : BitVec 768) (s : State) : Out :=
  onBlock (doOperatorBind path.toNat sess msg took) s
def execLcMailbox (msg : Bytes) (took : BitVec 768) (fail : Option (BitVec 9)) (evs : MemEvs) (s : State) : Out :=
  onSettled (doLcMailbox msg took fail evs) s

end Sys2Proof.Machine
end

