-- ==== Sys2Proof/Machine/Ecc.lean ====
section
/-! DEFINITION. The internal code, the background sweep and what a double-bit error brings; the firmware controller's restart
(R105, R197, R206, R394 to R397, R407). Choices marked in the log: DEDUCED 84, 85, 86, 89. -/

namespace Sys2Proof.Machine

/-! ### The code (R394) -/

/-- Position of a data bit: the positions from 3 upward that are not powers of two, in order. -/
def eccPositions : List Nat := (List.range 266).filter fun p => decide (3 ≤ p) && !isPow2 p
def eccPos (j : Nat) : Nat := eccPositions.getD j 0

/-- Parity of the bits of a number. -/
def parityOf (bits : List Bool) : Bool := bits.foldl (fun p b => p != b) false

/-- Check bits c[8:0] and c[9] of a 256-bit word. -/
def eccEncode (d : BitVec 256) : BitVec 10 :=
  let s := (List.range 256).foldl (fun s j => if d.getLsbD j then s ^^^ eccPos j else s) 0
  let p := parityOf ((List.range 256).map d.getLsbD) != parityOf ((List.range 9).map s.testBit)
  BitVec.ofNat 10 (s + 512 * b2n p)

/-- What a word decodes to. -/
inductive EccOut where
  | clean
  | corrected (d : BitVec 256)
  | uncorrectable
deriving DecidableEq, Repr

/-- Decode a word with its check bits. -/
def eccDecode (d : BitVec 256) (c : BitVec 10) : EccOut :=
  let t := (List.range 256).foldl (fun t j => if d.getLsbD j then t ^^^ eccPos j else t) (c.toNat % 512)
  let p := parityOf ((List.range 256).map d.getLsbD) != parityOf ((List.range 10).map c.getLsbD)
  if t = 0 && !p then .clean
  else if p && (t = 0 || isPow2 t) then .corrected d
  else match if p then findBelow 256 (fun j => eccPos j == t) else none with
    | some j => .corrected (d ^^^ (1 <<< j))
    | none => .uncorrectable

/-- A word whose content is zero, with some bits flipped: what the decoder makes of the flips alone. The code is linear, so the class of
the outcome is that of any word with these flips. -/
def flipOutcome (flips : List (Fin 266)) : EccOut :=
  let v : BitVec 266 := flips.foldl (fun v i => v ^^^ (1 <<< i.val)) 0
  eccDecode (v.setWidth 256) ((v >>> 256).setWidth 10)

/-! ### The security firmware controller's restart (R407) -/

/-- Restart the controller: its sessions end, ACLASS 5 and the fault record of KIND 0x08. -/
def beginRestart (b : Block) : Block :=
  if b.fwRestart.isSome then b
  else
    let b := endSessions none (setDst 10 true { b with fwRestart := some b.tick })
    let (id, b) := faultRecord { kind := 8, action := 9, aclass := 5 } b
    raiseViews { cls := 5, fault := id } (spoolFree 1 4 ownBlock 8 0 b)

/-- A block reset follows: tick and cause of R421. An earlier one keeps its place. -/
def dueReset (at' cause : Nat) (b : Block) : Block := match b.dst.resetDue with
  | some (t, _) => if t ≤ at' then b else setDistaff (fun d => { d with resetDue := some (at', cause) }) b
  | none => setDistaff (fun d => { d with resetDue := some (at', cause) }) b

/-- FIRMWARE_WATCHDOG_EXPIRY: the kick is late by its 10 ms; a second expiry within 1,000,000 ticks leads to a block reset. -/
def doWatchdog (b : Block) : Block :=
  if !b.dst.started || asleep b || b.fwHalted || b.fwRestart.isSome || b.tick < b.fwKick + 10000 then b
  else
    let again := match b.fwExpiry with
      | some t => decide (b.tick < t + 1000000)
      | none => false
    let b := { b with fwExpiry := some b.tick }
    if again then dueReset b.tick 3 (setDistaff (fun d => { d with stalled := 0x16 }) b) else beginRestart b

/-- CONTROLLER_RESTART_DONE: the ROM's check of the running bank passes, or it fails and the fall-back image runs; with neither the
restart does not complete (R339, R407). -/
def doRestartDone (b : Block) : Block :=
  if b.fwRestart.isNone then b
  else
    let good := imageReason (running b).img b == 0
    let back := (otherBank b).st == 5 && imageReason (otherBank b).img b == 0
    if !good && !back then b
    else
      let b := if good then b
        else
          let k := otherBank b
          let toB := !runsB b
          deriveCdi1 (setDistaff (fun d =>
            if toB then { d with bankA := {}, bankB := { k with st := 4 } } else { d with bankB := {}, bankA := { k with st := 4 } }) b)
      raiseViews { cls := 5 } (spoolFree 1 4 ownBlock 8 1 (setDst 10 false { b with fwRestart := none, fwKick := b.tick }))

/-- CONTROLLER_RESTART_TIMEOUT: 5 ms have passed; a block reset follows. -/
def doRestartTimeout (b : Block) : Block := match b.fwRestart with
  | some t => if b.tick < t + 5000 then b else dueReset b.tick 3 (setDistaff (fun d => { d with stalled := 0x16 }) b)
  | none => b

/-! ### Double-bit errors (R397) -/

def descByIndex (r : Ring) (index : BitVec 16) (b : Block) : Option Desc := b.descs.find? fun x => x.ring == r && x.index == index

/-- Fail a descriptor with INTERNAL_ECC. -/
def failDesc (r : Ring) (index : BitVec 16) (unit : Nat) (b : Block) : Block := match descByIndex r index b with
  | none => b
  | some x => (dbeRecord 1 0 unit 0 (ringOwner r).toList [] (dropStale (finish x cEcc b))).2

/-- A key ID is lost: it retires as KEY_RETIRE does, with ACLASS 3, and ACLASS 2 to its owner. -/
def loseKey (unit k : Nat) (b : Block) : Block := match getKey k b with
  | none => b
  | some e =>
    if e.st != .valid then b
    else
      let (id, b) := dbeRecord 7 3 unit k [e.skein] [] (modKey k (fun e => { e with lost := true }) (retireKey none k b))
      raiseViews { cls := 2, skein := some e.skein, cause := cEcc, object := k, fault := id }
        (raiseViews { cls := 3, cause := cEcc, object := k, fault := id } b)

/-- The operation that owns a queued unit (R64). -/
def failUnit (u : WUnit) (b : Block) : Block :=
  let e := u.entry.toNat
  let kind := e / 2 ^ 62
  if kind = 0 then
    let line := e % 2 ^ 46 * 64
    match b.mem.txns.find? fun t => t.line == line && t.keyId == e / 2 ^ 46 % 4096 with
    | some t => finishTxn t cEcc 0 b
    | none => b
  else if kind = 2 then
    match slotSkein (e / 2 ^ 56 % 64) b with
    | some (n, _) => match descByIndex (.skein n) (BitVec.ofNat 16 (e / 2 ^ 40)) b with
      | some x => dropStale (finish x cEcc b)
      | none => b
    | none => b
  else b

/-- Bits of a 32-B word flipped in a byte image. -/
def flipImage (img : Bytes) (i : Nat) (flips : List (Fin 266)) : Bytes :=
  let v : BitVec 256 := flips.foldl (fun v j => if j.val < 256 then v ^^^ (1 <<< j.val) else v) 0
  let old := sliceBytes img (32 * i) 32
  patchBytes img (32 * i) (List.zipWith (· ^^^ ·) old (toBytes 32 v))

/-- The skein whose extent it is. -/
def extentSkein : ExtOwner → List Nat
  | .members n => [n]
  | .swap n _ => [n]
  | _ => []

/-- Consequences of a double-bit error by kind of word (R105, R197, R206, R397). The values of a lost root word are free. -/
def eccLoss (x : EccErr) (b : Block) : Block := match x.word with
  | .warp i => match b.mem.txns[i]? with
    | none => b
    | some t =>
      let port := match t.src with | .warp p _ => p | .peer _ _ => 0
      let (id, b) := dbeRecord 1 2 (unitCode 1 port) t.addr [t.skein] [] (finishTxn t cEcc 0 b)
      raiseViews { cls := 2, skein := some t.skein, cause := cEcc, object := t.addr, fault := id } b
  | .key k => loseKey (unitCode 6 0) k b
  | .region r => match amGet r b.mem.regions with
    | some g => loseKey (unitCode 0x13 0) g.keyId b
    | none => b
  | .bitmap g second =>
    let p := amGetD {} g b.mem.words
    let q := if second then { p with bits1 := BitVec.allOnes 256, bad1 := true } else { p with bits0 := BitVec.allOnes 256, bad0 := true }
    (dbeRecord 1 0 (unitCode 0x13 0) (g * 16384) [(getHank (g * 16384 / hankBytes) b).skein] [] (setMem (fun m => { m with words := amPut {} g q m.words }) b)).2
  | .hank h =>
    if (getHank h b).st = .free then b
    else
      let b := absDropHank h (revokeHank none h b)
      (dbeRecord 8 0 (unitCode 7 0) (h * hankBytes) [(getHank h b).skein] [] (setHank h { getHank h b with st := .retired, lost := true } b)).2
  | .quar i => match b.mem.quar[i]? with
    | none => b
    | some q => (dbeRecord 1 0 (unitCode 7 0) q.base [] [] (setMem (fun m => { m with quar := m.quar.eraseIdx i }) b)).2
  | .extent i => match b.mem.extents[i]? with
    | none => b
    | some e =>
      match e.owner with
      | .spill a => loseAbs (a / 64 * 64) (getHank (a / hankBytes) b).keyId (getHank (a / hankBytes) b).skein b
      | _ =>
        (dbeRecord 1 0 (unitCode 7 0) e.base (extentSkein e.owner) [] (setMem (fun m => { m with extents := m.extents.set i { e with lost := true } }) b)).2
  | .fence o i => (dbeRecord 1 0 (unitCode 0x12 0) i o.toList [] (modFence o i (fun f => { f with error := true, code := cEcc, value := 0 }) b)).2
  | .desc r i => failDesc r i (unitCode 0x12 0) b
  | .unit sp i => match (queueOf sp b)[i]? with
    | none => b
    | some u => (dbeRecord 1 0 (unitCode 4 sp) 0 ((slotSkein u.slot b).map (·.1)).toList [] (failUnit u (setQueue sp ((queueOf sp b).eraseIdx i) b))).2
  | .context r i => if b.srv.aead.any fun m => (descByIndex r i b).any fun d => d.id == m.desc then failDesc r i (unitCode 0x11 0) b else b
  | .session si => match getSess si b with
    | none => b
    | some s => (dbeRecord 1 0 (unitCode 0x0C 0) si [s.skein] [] (endSess si cKeyRetired b)).2
  | .ledger w i =>
    let es := amGetD [] w b.wh.ledgers
    let b := setWh (fun x => { x with ledgers := amPut [] w (es.take (4 * i) ++ es.drop (4 * i + 4)) x.ledgers, badLedgers := w :: x.badLedgers.erase w }) b
    (dbeRecord 1 0 (unitCode 3 w) 0 [] [] b).2
  | .bobbin lv ix both => loseBobbin [] lv ix both b
  | .root w =>
    let b := (List.range 4).foldl (fun b i => let (v, b) := draw 64 b; setMem (fun m => { m with roots := amPut 0 (4 * w + i) v m.roots }) b) b
    let b := setMem (fun m => { m with badRoots := w :: m.badRoots.erase w }) b
    let (id, b) := dbeRecord 1 3 (unitCode 2 0) (4 * w * covers 4) [] [] b
    raiseViews { cls := 3, cause := cEcc, object := 4 * w * covers 4, fault := id } b
  | .absorber line => match b.mem.abs.find? fun e => e.line == line with
    | none => b
    | some e => loseAbs line e.keyId e.skein b
  | .highWater r =>
    let lost : HwEntry := { amGetD {} r b.mem.hw with lost := true }
    let (id, b) := dbeRecord 1 3 (unitCode 0x0B 0) r lost.skein.toList [] (setMem (fun m => { m with hw := amSet r lost m.hw }) b)
    raiseViews { cls := 3, cause := cEcc, object := r, fault := id } b
  | .retiredMap =>
    let (id, b) := dbeRecord 1 3 (unitCode 0x16 0) 0 [] [] b
    raiseViews { cls := 3, cause := cEcc, fault := id } b
  | .bank isB i =>
    let b := setDistaff (fun d =>
      if isB then { d with bankB := { d.bankB with img := flipImage d.bankB.img i x.flips } }
      else { d with bankA := { d.bankA with img := flipImage d.bankA.img i x.flips } }) b
    beginRestart (dbeRecord 9 0 (unitCode 0x16 0) (32 * i) [] [] b).2
  | .spool i => match b.tel.spool.hist[i]? with
    | none => b
    | some r =>
      let l : SpoolLoss := { stream := 0xFF, lost := 1, first := r.stamp }
      let g := gapRec l (gapData l) b
      let b := setSpool (fun s => { s with hist := s.hist.eraseIdx i }) b
      match b.tel.spool.window with
      | some w => if w.closed then histPut g b else setWindow (fun w => gapPut l g w) b
      | none => histPut g b

/-- One word of a sweep: corrected and counted, or lost (R395 to R397). -/
def eccOne (x : EccErr) (b : Block) : Block := match flipOutcome x.flips with
  | .clean => b
  | .corrected _ => bumpHealth 16 1 b
  | .uncorrectable => eccLoss x (bumpHealth 24 1 b)

/-- ECC_SWEEP: every stored word is read once; the words named are those that do not decode as clean (R395). -/
def doEccSweep (errs : List EccErr) (b : Block) : Block := errs.foldl (fun b x => eccOne x b) b

def execEccSweep (errs : List EccErr) (s : State) : Out := onSettled (doEccSweep errs) s
def execFirmwareWatchdogExpiry (s : State) : Out := onSettled doWatchdog s
def execControllerRestartDone (s : State) : Out := onSettled doRestartDone s
def execControllerRestartTimeout (s : State) : Out := onSettled doRestartTimeout s

end Sys2Proof.Machine
end

