-- ==== Sys2Proof/Machine/Faults.lean ====
section
/-! DEFINITION. Work stealing, spot re-spin, catches and suspect sweeps, whorl and spindle hangs (R42, R43, R59 to R65, R400 to
R406). Choices marked in the log: DEDUCED 87, 88, 148; DESIGN CHOICE 4, 45, 127. -/

namespace Sys2Proof.Machine

/-! ### Stealing (R42, R43) -/

/-- The spindles that a steal request passes, in order, fenced ones bypassed. -/
def ringFrom (sp : Nat) (up : Bool) (b : Block) : List Nat :=
  let n := b.row.spindles
  ((List.range (n - 1)).map fun i => if up then (sp + i + 1) % n else (sp + n - i - 1) % n).filter fun v => !b.wh.fenced.contains v

/-- The next request of the spindle goes round the other way. -/
def stealTurn (sp : Nat) (b : Block) : Block :=
  setWh (fun w => { w with stealUp := if w.stealUp.contains sp then w.stealUp.erase sp else sp :: w.stealUp }) b

/-- The first spindle that the request reaches with at least 8 units, and none being reset. DESIGN CHOICE: a spindle's first request goes
down the ring; the spec says that its requests alternate and names no first direction (R43). -/
def stealVictim (sp : Nat) (b : Block) : Option Nat :=
  (ringFrom sp (b.wh.stealUp.contains sp) b).find? fun v => decide (8 ≤ (queueOf v b).length) && spindleIn v b

/-- The units of a queue that a steal takes: of its least tier, oldest first, half of the queue and at most 16; slot units go to reserved
spindles alone. -/
def stolen (sp v : Nat) (b : Block) : List WUnit :=
  let may := (queueOf v b).filter fun u => !u.slotUnit || decide (firstReserved b ≤ sp)
  match argMin (·.tier) may with
  | none => []
  | some t => (may.filter fun u => u.tier == t.tier).take (min 16 ((queueOf v b).length / 2))

/-- The taken units move to the asking spindle's queue in their order, with the spindle they came from; its arbiter starts and charges
them. A victim whose arbiter stands still answers nothing (R405). -/
def stealFrom (sp v : Nat) (b : Block) : Block := onArray (fun b =>
  if Config.spindleStalls b.tick v then
    setWh (fun w => { w with stillSince := amSet v (amGetD b.tick v w.stillSince) w.stillSince }) b
  else
    let us := stolen sp v b
    startIdle 64 sp (setQueue sp (us.map fun u => { u with home := some v })
      (setQueue v ((queueOf v b).filter fun u => !us.contains u) b))) b

/-- STEAL_REQUEST: a spindle with an idle whorl and an empty queue takes units from the first spindle on the ring that holds at least 8;
its requests alternate direction. -/
def doSteal (sp : Nat) (b : Block) : Block :=
  if !spindleIn sp b || !(queueOf sp b).isEmpty || (startersOf sp b).isEmpty then b
  else
    match stealVictim sp b with
    | none => stealTurn sp b
    | some v => stealFrom sp v (stealTurn sp b)

/-! ### Comparisons (R61, R62, R400) -/

/-- The oldest check that a checker runs for a producer. -/
def checkOf (p c : Nat) (b : Block) : Option Check := b.wh.checks.find? fun k => k.producer == p && k.checker == c

/-- A check is over. -/
def endCheck (k : Check) (b : Block) : Block := setWh (fun w => { w with checks := w.checks.erase k }) b

/-- A third whorl computes a block: one that takes work, outside the spindles of producer and checker. -/
def thirdOk (p c t : Nat) (b : Block) : Bool := whorlTakes t b && spindleOf t != spindleOf p && spindleOf t != spindleOf c

/-- Results differ: the whorls in service whose result is not the third's are caught. -/
def respinCaught (p c t : Nat) (badP badC : Bool) (b : Block) : Block :=
  let ws := ((if badP then [p] else []) ++ (if badC then [c] else [])).filter fun w => whorlIn w b
  let b := setWh (fun w => { w with checked := w.checked + 1 }) b
  ws.foldl (fun b w => catchWhorl w p c t (b2n badP + 2 * b2n badC) b) b

/-- RESPIN_COMPARE: the results of a check under way, of producer, checker and, where they differ, a third whorl (R62, R400). -/
def doRespin (p c t : Nat) (rp rc rt : Block128) (b : Block) : Block := match checkOf p c b with
  | none => b
  | some k =>
    if rp = rc then endCheck k b
    else if thirdOk p c t b then settleSuspects (respinCaught p c t (rt != rp) (rt != rc) (endCheck k b))
    else b

/-! ### The sweep (R401, R402) -/

/-- How the sweep reads: as tier-4 work with every block re-spun. -/
def sweepWork : Work := { tier := 4, forced := true }

/-- Outcome of a verification: 0 VERIFIED, 1 FAILED. -/
def outcomeOf (r : LineRes) : Nat := match r with
  | .ok _ => 0
  | _ => 1

/-- Outcome of a class B line: read under the block's class B key where an extent still holds it. -/
def sweepB (evs : MemEvs) (line : Nat) (b : Block) : Nat × Block :=
  match b.mem.extents.find? fun e => decide (e.base ≤ line) && decide (line < e.base + 64 * e.lines) && !e.lost with
  | none => (2, b)
  | some e => match readLineB sweepWork evs e.count line b with
    | (.ok _, b) => (0, b)
    | (.error _, b) => (1, b)

/-- Outcome of a class E line, which can be checked where it carries a MAC and a key still reads it. -/
def sweepE (evs : MemEvs) (h : Hank) (region line : Nat) (b : Block) : Nat × Block :=
  let (ep, g, hit) := fixE h.keyId line b
  if h.eblock.isNone || !hit || g.isNone then (2, b)
  else
    let (r, b) := readE evs sweepWork h.skein h.keyId g ep region true line b
    (outcomeOf r, b)

/-- Outcome of a class S line, read with the placement, generation and step that the marks give it now. -/
def sweepS (evs : MemEvs) (h : Hank) (line : Nat) (b : Block) : Nat × Block :=
  let g := genAt h.keyId line b
  if g.isNone then (2, b)
  else match ensureLeaf evs line b with
    | (st, b) =>
      if st != cOK then (1, b)
      else
        let (r, _, b) := readUnder evs sweepWork g h.keyId (stepAt line b) line b
        (outcomeOf r, b)

/-- Outcome of one suspect entry: 0 VERIFIED, 1 FAILED, 2 UNCHECKED. The line is read as it stands, and a failure raises nothing of its own:
the sweep's records name it (R402). DESIGN CHOICE: a tree node's entry is UNCHECKED, since R401 reads lines of classes S, B and E alone. -/
def sweepEntry (evs : MemEvs) (e : BitVec 64) (b : Block) : Nat × Block :=
  let v := e.toNat
  let line := v % 2 ^ 46 * 64
  let key := v / 2 ^ 46 % 4096
  if v / 2 ^ 62 != 0 || key == treeKeyId then (2, b)
  else if key == classBKeyId then sweepB evs line b
  else
    let h := getHank (line / hankBytes) b
    match amGet h.keyId b.mem.keys with
    | none => (2, b)
    | some k =>
      if h.st != .allocated || k.st == .retiring || h.keyId != key then (2, b)
      else if h.cls = .E then sweepE evs h k.region line b
      else sweepS evs h line b

/-- Judge a suspect set: the entries of the fault record's list. -/
def sweepSet (evs : MemEvs) (es : List (BitVec 64)) (b : Block) : List FaultEntry × Block :=
  es.foldl (fun (acc : List FaultEntry × Block) e =>
    let (o, b) := sweepEntry evs e acc.2
    (acc.1 ++ [{ entry := e, outcome := o, skein := (entrySkein e b).getD 0xFFFF }], b)) ([], b)

/-- OBJECT of a suspect's ATTENTION record (R402). -/
def suspectObject (e : BitVec 64) : Nat :=
  let v := e.toNat
  if v / 2 ^ 62 = 0 then (v / 2 ^ 46 % 4096) * 2 ^ 52 + v % 2 ^ 46 * 64 else v

/-- ATTENTION records in the views of the skeins that own FAILED or UNCHECKED entries, at most 64 for each (R402). -/
def postSuspects (id : Nat) (l : List FaultEntry) (b : Block) : Block :=
  b.skeins.foldl (fun b s =>
    let mine := (l.filter fun e => e.skein == s.1 && (e.outcome == 1 || e.outcome == 2)).take 64
    mine.foldl (fun b e => triggerOn 2 (enterOvf (.skein s.1)
      { cls := 2, skein := some s.1, cause := cWhorlSuspect, object := suspectObject e.entry, fault := id } b)) b) b

/-- The fault record of a sweep with its judged entries, then their ATTENTION records (R402). -/
def endSweep (x : Sweep) (l : List FaultEntry) (b : Block) : Block :=
  let played : List FaultEntry := x.replayed.map fun e => { entry := e, outcome := 3, skein := (entrySkein e b).getD 0xFFFF }
  let (id, b) := faultRecord
    { kind := x.kind, action := 3, aclass := 3, cause := cWhorlSuspect.toNat, incomplete := x.incomplete, unit := x.whorl, slots := x.slots,
      list := l ++ played, producer := x.producer, checker := x.checker, third := x.third, caught := x.caught } b
  postSuspects id l b

/-- SUSPECT_SWEEP_END: the oldest sweep ends; its fault record is written, then the ATTENTION records (R402). -/
def doSweepEnd (evs : MemEvs) (b : Block) : Block := match b.wh.sweeps with
  | [] => b
  | x :: xs =>
    let (l, b) := sweepSet evs x.entries (setWh (fun w => { w with sweeps := xs }) b)
    settleSuspects (endSweep x l b)

/-! ### Hangs (R403 to R406) -/

/-- Entries replayed, as a record's list. -/
def replayedList (es : List (BitVec 64)) (b : Block) : List FaultEntry :=
  es.map fun e => { entry := e, outcome := 3, skein := (entrySkein e b).getD 0xFFFF }

def hangRecord (kind action unit : Nat) (replayed : List (BitVec 64)) (b : Block) : Block :=
  (faultRecord
    { kind := kind, action := action, aclass := 0, unit := unit, slots := slotBits replayed b, list := replayedList replayed b } b).2

/-- A whorl starts its reset, and its units run again elsewhere. -/
def resetWhorl (w : Nat) (b : Block) : Block :=
  let b := setWh (fun x => { x with resetWhorls := x.resetWhorls ++ [{ index := w, since := b.tick }] }) b
  let (r, b) := replayWhorls [w] b
  setWh (fun x => { x with resetWhorls := x.resetWhorls.map fun u => if u.index = w then { u with replayed := r } else u }) b

/-- A whorl hung again: it leaves service, its units run again elsewhere, and its record is written. -/
def hangAgain (w : Nat) (b : Block) : Block :=
  let (r, b) := replayWhorls [w] (retireWhorls [w] b)
  hangRecord 2 3 w r b

/-- The whorl's last hang lies less than 1,000,000 ticks back. -/
def hungBefore (w : Nat) (b : Block) : Bool := match amGet w b.wh.lastHang with
  | some t => decide (b.tick < t + 1000000)
  | none => false

/-- The whorl has held a block for 20 ticks without acknowledging it. -/
def whorlHung (w : Nat) (b : Block) : Bool := whorlTakes w b && b.wh.running.any fun r => r.whorl == w && decide (r.since + 20 ≤ b.tick)

/-- WHORL_HANG: the whorl's units are replayed and it is reset; a second hang within 1,000,000 ticks retires it. -/
def doWhorlHang (w : Nat) (b : Block) : Block :=
  if !whorlHung w b then b
  else
    let hung := setWh (fun x => { x with lastHang := amSet w b.tick x.lastHang }) b
    settleSuspects (if hungBefore w b then hangAgain w hung else resetWhorl w hung)

/-- WHORL_RESET_DONE: the reset completes and the known-answer blocks run; a failure retires the whorl with the suspect sweep. -/
def doWhorlResetDone (w : Nat) (pass : Bool) (b : Block) : Block := match b.wh.resetWhorls.find? fun u => u.index == w with
  | none => b
  | some u =>
    let b := setWh (fun x => { x with resetWhorls := x.resetWhorls.filter fun u => u.index != w }) b
    if pass then hangRecord 2 2 w u.replayed b
    else settleSuspects (beginSweep { kind := 2, whorl := w, entries := [], replayed := u.replayed, incomplete := false, slots := 0 } b)

/-- WHORL_RESET_TIMEOUT: 50 ticks have passed; the whorl is fenced and retired. -/
def doWhorlResetTimeout (w : Nat) (b : Block) : Block := match b.wh.resetWhorls.find? fun u => u.index == w with
  | none => b
  | some u =>
    if b.tick < u.since + 50 then b
    else
      let b := setWh (fun x => { x with resetWhorls := x.resetWhorls.filter fun u => u.index != w }) b
      hangRecord 2 3 w u.replayed (retireWhorls [w] b)

/-- Units leave a spindle's queue for their homes among the others, as though newly submitted (R40, R43, R405). -/
def rehome (us : List WUnit) (b : Block) : Block :=
  onArray (fun b => us.foldl (fun b u => place { u with home := none } b) b) b

/-- A spindle starts its reset: what its pipelines ran runs again elsewhere, its queue goes to other spindles, and its slot units are lost. -/
def resetSpindle (sp : Nat) (b : Block) : Block :=
  let q := queueOf sp b
  let b := setWh (fun x => { x with
    resetSpindles := x.resetSpindles ++ [{ index := sp, since := b.tick }], stillSince := amDel sp x.stillSince }) (setQueue sp [] b)
  let (r, b) := replayWhorls (whorlsOf sp) b
  let b := rehome (q.filter fun u => !u.slotUnit) { b with lostUnits := b.lostUnits ++ q.filter (·.slotUnit) }
  setWh (fun x => { x with resetSpindles := x.resetSpindles.map fun u => if u.index = sp then { u with replayed := r } else u }) b

/-- The spindle has started nothing, or answered no steal request, for 20 ticks. -/
def spindleHung (sp : Nat) (b : Block) : Bool := spindleIn sp b && ((amGet sp b.wh.stillSince).any fun t => decide (t + 20 ≤ b.tick))

/-- SPINDLE_HANG: the pipelines' units are replayed, the queued units re-homed, and the spindle is reset (R404, R405). -/
def doSpindleHang (sp : Nat) (b : Block) : Block := if spindleHung sp b then settleSuspects (resetSpindle sp b) else b

/-- SPINDLE_RESET_DONE: the spindle returns to service, its ledgers kept. -/
def doSpindleResetDone (sp : Nat) (b : Block) : Block := match b.wh.resetSpindles.find? fun u => u.index == sp with
  | none => b
  | some u => hangRecord 3 4 sp u.replayed (setWh (fun x => { x with resetSpindles := x.resetSpindles.filter fun u => u.index != sp }) b)

/-- Fence a spindle: its 64 whorls count as retired, what they ran runs again elsewhere, and its queue goes to other spindles (R43, R47, R66,
R405). -/
def fenceSpindle (sp : Nat) (b : Block) : Block :=
  let b := spoolFree 1 9 ownBlock (64 * sp) 3 b
  let q := queueOf sp b
  let b := setWh (fun x => { x with fenced := sp :: x.fenced.erase sp, adopted := x.adopted.filter fun w => spindleOf w != sp }) (setQueue sp [] b)
  let b := rehome q (replayWhorls (whorlsOf sp) b).2
  checkThreshold (keepReservation (reissueChecks b))

/-- A spindle whose reset did not complete is fenced, and its isolation begins. -/
def isolateSpindle (u : UReset) (b : Block) : Block :=
  let b := setWh (fun x => { x with
    resetSpindles := x.resetSpindles.filter fun v => v.index != u.index,
    isolating := x.isolating.filter (fun v => v.index != u.index) ++ [{ u with since := b.tick }] }) b
  hangRecord 3 5 u.index u.replayed (fenceSpindle u.index b)

/-- SPINDLE_RESET_TIMEOUT: 50 ticks have passed; the spindle is fenced through its isolation elements. -/
def doSpindleResetTimeout (sp : Nat) (b : Block) : Block := match b.wh.resetSpindles.find? fun u => u.index == sp with
  | none => b
  | some u =>
    if b.tick < u.since + 50 then b
    else isolateSpindle u b

/-- SPINDLE_ISOLATION_TIMEOUT: the isolation has not completed within 50 ticks; a block reset follows (R408). -/
def doIsolationTimeout (sp : Nat) (b : Block) : Block := match b.wh.isolating.find? fun u => u.index == sp with
  | none => b
  | some u => if b.tick < u.since + 50 then b else dueReset b.tick 2 (setDistaff (fun d => { d with stalled := 4 }) b)

/-- Codes of the units without a reset domain of their own (R408, R456). -/
def watchedUnits : List Nat := [1, 2, 5, 6, 8, 9, 0x0C, 0x0D, 0x0E, 0x0F, 0x12]

/-- The lowest and the highest port of a link engine, as R64 numbers them. -/
def enginePorts (code : Nat) : Nat × Nat := if code = 0x0C then (0, 17) else if code = 0x0D then (18, 19) else if code = 0x0E then (20, 27) else (28, 29)

/-- A watched unit holds work: requests in flight, lines at the controllers, descriptors, a pass, or link units. -/
def holdsWork (code : Nat) (b : Block) : Bool :=
  if code = 1 || code = 6 then !b.mem.txns.isEmpty
  else if code = 2 then !b.mem.reads.isEmpty || !b.mem.writes.isEmpty
  else if code = 5 then b.mem.txns.any fun t => t.phase == .walk
  else if code = 8 then !b.mem.reel.pass.isEmpty
  else if code = 9 then b.mem.txns.any fun t => t.kind == .ply
  else if code = 0x12 then !b.descs.isEmpty || !b.held.isEmpty
  else
    let mine (u : WUnit) : Bool := u.entry.toNat / 2 ^ 62 == 1 &&
      decide ((enginePorts code).1 ≤ u.entry.toNat / 2 ^ 57 % 32) && decide (u.entry.toNat / 2 ^ 57 % 32 ≤ (enginePorts code).2)
    b.wh.waiting.any mine || (b.wh.running.any fun r => mine r.unit) || b.wh.queues.any fun q => q.2.any mine

/-- Note which watched units stand still in this tick while they hold work. -/
def noteUnits (b : Block) : Block :=
  { b with unitStuck := watchedUnits.foldl (fun m c =>
      if Config.unitStalls b.tick c && holdsWork c b then amSet c (amGetD b.tick c b.unitStuck) m else m) [] }

/-- A unit has stood still for 100 ticks. -/
def unitHung (code : Nat) (b : Block) : Bool := (amGet code b.unitStuck).any fun t => decide (t + 100 ≤ b.tick)

/-- UNIT_HANG: a unit without a reset domain of its own has held work for 100 ticks without an acknowledge (R408). -/
def doUnitHang (code : Nat) (b : Block) : Block :=
  if asleep b || !unitHung code b then b
  else dueReset b.tick 1 (setDistaff (fun d => { d with stalled := code }) b)

def execStealRequest (spindle : BitVec 6) (s : State) : Out := onBlock (doSteal spindle.toNat) s
def execRespinCompare (producer checker third : BitVec 12) (rp rc rt : Block128) (s : State) : Out :=
  onSettled (doRespin producer.toNat checker.toNat third.toNat rp rc rt) s
def execSuspectSweepEnd (evs : MemEvs) (s : State) : Out := onSettled (doSweepEnd evs) s
def execWhorlHang (whorl : BitVec 12) (s : State) : Out := onSettled (doWhorlHang whorl.toNat) s
def execWhorlResetDone (whorl : BitVec 12) (pass : Bool) (s : State) : Out := onSettled (doWhorlResetDone whorl.toNat pass) s
def execWhorlResetTimeout (whorl : BitVec 12) (s : State) : Out := onSettled (doWhorlResetTimeout whorl.toNat) s
def execSpindleHang (spindle : BitVec 6) (s : State) : Out := onSettled (doSpindleHang spindle.toNat) s
def execSpindleResetDone (spindle : BitVec 6) (s : State) : Out := onSettled (doSpindleResetDone spindle.toNat) s
def execSpindleResetTimeout (spindle : BitVec 6) (s : State) : Out := onSettled (doSpindleResetTimeout spindle.toNat) s
def execSpindleIsolationTimeout (spindle : BitVec 6) (s : State) : Out := onSettled (doIsolationTimeout spindle.toNat) s
def execUnitHang (unit : BitVec 8) (s : State) : Out := onBlock (doUnitHang unit.toNat) s

end Sys2Proof.Machine
end

