-- ==== Sys2Proof/Machine/Carder.lean ====
section
/-! DEFINITION. The carder: its passes, its digest, PLY_CHECK and standing checks (R410 to R414). Choices marked in the log:
DEDUCED 102, 103; DESIGN CHOICE 44. -/

namespace Sys2Proof.Machine

/-! ### The digest (R412) -/

/-- Kc of a weft secret. -/
def carderKey (w : Secret) : Key := kdf (keyBytes w.key) "frexis carder" (leBytes 1 w.gen)

/-- The four 16-B blocks of a line, in order. -/
def lineBlocks (x : Line) : List Block128 := (List.range 4).map fun i => (x >>> (128 * i)).setWidth 128

/-- The digest of a run of lines under Kc. -/
def carderDigest (kc : Key) (xs : List Line) : BitVec 64 :=
  let h := aes256 kc 0
  let t := (xs.flatMap lineBlocks).foldl (fun t x => gmul (t ^^^ x) h) 0
  let t := gmul (t ^^^ BitVec.ofNat 128 xs.length) h
  (t ^^^ aes256 kc 1).setWidth 64

/-- Index of the first 64 KiB window whose digests differ; 0xFFFF_FFFF where all are equal. -/
def firstDiff (kc : Key) : Nat → List Line → List Line → Nat → Nat
  | 0, _, _, _ => 0xFFFFFFFF
  | k + 1, xs, ys, i =>
    if xs.isEmpty then 0xFFFFFFFF
    else if carderDigest kc (xs.take 1024) != carderDigest kc (ys.take 1024) then i
    else firstDiff kc k (xs.drop 1024) (ys.drop 1024) (i + 1)

/-! ### PLY_CHECK (R413, R414) -/

def pcA (d : Line) : Nat := fieldAt d 16 8
def pcB (d : Line) : Nat := fieldAt d 24 8
def pcLen (d : Line) : Nat := fieldAt d 32 8
def pcPeriod (d : Line) : Nat := fieldAt d 40 4

/-- A range that lies wholly in class S hanks ALLOCATED to the skein and bound to its key ID. -/
def rangeOk (n ra len : Nat) (b : Block) : Bool :=
  ra % 64 == 0 && decide (raAddr ra + len ≤ 2 ^ 52) && (hanksOf (raAddr ra) len).all fun h =>
    let x := getHank h b
    x.st == .allocated && x.skein == n && x.cls == .S && x.keyId == raKey ra

def skeinWeft (n : Nat) (b : Block) : Option Secret := (getSkein n b).bind (·.weft)

/-- Checks of PLY_CHECK; with LENGTH 0 it names a standing check alone. -/
def plyCheckChecks (r : Ring) (d : Line) (b : Block) : Checks :=
  let n := (ringOwner r).getD 0
  let body := bodyReserved d [(16, 8), (24, 8), (32, 8), (40, 4)]
  if pcLen d = 0 then { c4 := body }
  else
    { c4 := body || pcLen d % 64 != 0 || decide (2 ^ 36 < pcLen d) || !rangeOk n (pcA d) (pcLen d) b ||
        (pcB d != 0 && !rangeOk n (pcB d) (pcLen d) b),
      c6 := (skeinWeft n b).isNone,
      c7 := (checkKey n (raKey (pcA d)) b).orElse fun _ => if pcB d = 0 then none else checkKey n (raKey (pcB d)) b }

/-- Hanks of both ranges. -/
def pcHanks (d : Line) : List Nat :=
  if pcLen d = 0 then [] else hanksOf (raAddr (pcA d)) (pcLen d) ++ (if pcB d = 0 then [] else hanksOf (raAddr (pcB d)) (pcLen d))

/-- The outcome of one comparison: the status of a line that fails, or WINDOW, DIGEST_A and DIGEST_B. -/
def compareRanges (evs : MemEvs) (wk : Work) (w : Secret) (d : Line) (b : Block) : Except (BitVec 8) (Nat × BitVec 64 × BitVec 64) × Block :=
  let kc := carderKey w
  let k := pcLen d / 64
  let (xs, st, b) := readLines evs wk (raAddr (pcA d)) k b
  if st != cOK then (.error st, b)
  else if pcB d = 0 then (.ok (0xFFFFFFFF, carderDigest kc xs, 0), b)
  else
    let (ys, st, b) := readLines evs wk (raAddr (pcB d)) k b
    if st != cOK then (.error st, b)
    else (.ok (firstDiff kc (k / 1024 + 1) xs ys 0, carderDigest kc xs, carderDigest kc ys), b)

def standingOf (r : Ring) (b : Block) : List Standing := b.standing.filter fun c => c.ring == r

/-- What a PLY_CHECK meets in memory. -/
def checkEvs : Instr → MemEvs
  | .plyCheck _ _ evs => evs
  | _ => []

/-- The standing check that a PLY_CHECK with PERIOD leaves (R413, R414). -/
def standingOn (x : Desc) (b : Block) : Standing :=
  { ring := x.ring, raw := x.raw, index := x.index, hanks := pcHanks x.raw, due := b.tick + 1000 * pcPeriod x.raw }

/-- PLY_CHECK: compare once and, with PERIOD, leave a standing check; with LENGTH 0, end one. -/
def startPlyCheck (x : Desc) (b : Block) : Block :=
  let d := x.raw
  let n := (ringOwner x.ring).getD 0
  if pcLen d = 0 then
    let hit (c : Standing) : Bool := c.ring == x.ring && pcA c.raw == pcA d
    if b.standing.any hit then finish x cOK { b with standing := b.standing.filter fun c => !hit c } else finish x cNotPermitted b
  else if pcPeriod d != 0 && decide (16 ≤ (standingOf x.ring b).length) then finish x cQuota b
  else match skeinWeft n b with
    | none => finish x cNotPermitted b
    | some w =>
      let (r, b) := compareRanges (checkEvs x.cmd) (descWork d) w d b
      match r with
      | .error st => finish x st b
      | .ok (win, da, db) =>
        let b := if pcPeriod d = 0 then b else { b with standing := b.standing ++ [standingOn x b] }
        complete x cOK (resAt 12 4 win ||| resAt 16 8 da.toNat ||| resAt 24 8 db.toNat) b

def doPlyCheck (r : Ring) (d : Line) (evs : MemEvs) (b : Block) : Block :=
  fetch r d 0x30 (.plyCheck r d evs) (plyCheckChecks r d) (fun _ => pcHanks d) startPlyCheck b

/-- STANDING_CHECK_END: a PLY_CHECK with LENGTH 0. -/
def doCheckEnd (r : Ring) (d : Line) (b : Block) : Block :=
  if dOpcode d = 0x30 && pcLen d != 0 then b
  else fetch r d 0x30 (.standingCheckEnd r d) (plyCheckChecks r d) (fun _ => pcHanks d) startPlyCheck b

/-- The carder's work is tier 7 (R49, R54, R414). -/
def carderWork : Work := { tier := 7 }

/-- A standing check is next due a period later. -/
def nextCheck (c : Standing) (b : Block) : Block :=
  { b with standing := b.standing.map fun x => if x = c then { x with due := x.due + 1000 * pcPeriod x.raw } else x }

/-- A standing check's mismatch: a fault record, and an ATTENTION record of its skein (R414). -/
def checkMismatch (n base : Nat) (b : Block) : Block :=
  let slots := match (getSkein n b).bind (·.slot) with | some s => 2 ^ s | none => 0
  let (id, b) := faultRecord { kind := 6, aclass := 2, unit := n, object := base, slots := slots } b
  triggerOn 2 (enterOvf (.skein n) { cls := 2, skein := some n, object := base, fault := id } b)

/-- STANDING_CHECK_REPEAT: the check of a skein on BASE_A is due; a mismatch writes a fault record and posts an ATTENTION record. -/
def doCheckRepeat (n base : Nat) (evs : MemEvs) (b : Block) : Block :=
  let hit (c : Standing) : Bool := c.ring == .skein n && pcA c.raw == base && decide (c.due ≤ b.tick)
  if asleep b then b
  else match b.standing.find? hit, skeinWeft n b with
    | some c, some w =>
      let (r, b) := compareRanges evs carderWork w c.raw (nextCheck c b)
      match r with
      | .error _ => b
      | .ok (win, _, _) => if win = 0xFFFFFFFF then b else checkMismatch n base b
    | _, _ => b

/-! ### Passes (R410, R411) -/

/-- Lines of a class S page that hold content. -/
def pageContent (p : Nat) (b : Block) : List Nat :=
  if bobHas 0 p b then ((List.range 64).filter fun i => nodeMinor (bobLine 0 p b) i != 0).map fun i => 4096 * p + 64 * i else []

/-- A failure of the carder is a read's failure, with a fault record of its own where the failure has written none. -/
def carderFault (skein line : Nat) (st : BitVec 8) (before : Nat) (b : Block) : Block :=
  if b.faultNext != before then b
  else
    let slots := match (getSkein skein b).bind (·.slot) with | some s => 2 ^ s | none => 0
    let e : FaultEntry := { entry := BitVec.ofNat 64 line, outcome := 1, skein := skein }
    (faultRecord { kind := 5, cause := st.toNat, aclass := 2, unit := stackOf line b, object := line, slots := slots, list := [e] } b).2

/-- Read one class S line; a corrected error is written back. -/
def carderS (evs : MemEvs) (h : Hank) (line : Nat) (b : Block) : Block :=
  let before := b.faultNext
  let (r, ce, b) := getLineS evs carderWork h.keyId line (bumpGlob 920 64 b)
  match r with
  | .ok x => if ce then (putLineS evs carderWork none h.keyId line x b).2 else b
  | .error st => carderFault h.skein line st before b

/-- Read one class E line. -/
def carderE (evs : MemEvs) (h : Hank) (line : Nat) (b : Block) : Block :=
  let before := b.faultNext
  let (r, b) := getLine evs carderWork line (bumpGlob 920 64 b)
  match r with
  | .ok _ => b
  | .error st => carderFault h.skein line st before b

/-- Lines of a class E page with a bit set in the current or the previous word (R118, R161). -/
def epochContent (h : Hank) (page : Nat) (b : Block) : List Nat :=
  ((List.range 64).map fun i => page + 64 * i).filter fun a => (fixE h.keyId a b).2.2

/-- Read one page of an ALLOCATED hank in ascending address order; the lines read, its counter block among them. -/
def carderPage (evs : MemEvs) (page : Nat) (b : Block) : Nat × Block :=
  let h := getHank (page / hankBytes) b
  if h.cls = .S then
    let before := b.faultNext
    let (st, b) := ensureLeaf evs page b
    if st != cOK then (1, carderFault h.skein page st before b)
    else
      let ls := pageContent (page / 4096) b
      (ls.length + 1, ls.foldl (fun b a => carderS evs h a b) b)
  else
    let ls := epochContent h page b
    (ls.length + 1, ls.foldl (fun b a => carderE evs h a b) b)

/-- The first page from an address on that lies in an ALLOCATED hank. -/
def pageFrom (a : Nat) (b : Block) : Option Nat :=
  if (getHank (a / hankBytes) b).st = .allocated then some a
  else (b.mem.hanks.find? fun e => decide (a / hankBytes < e.1) && e.2.st == .allocated).map fun e => e.1 * hankBytes

/-- Read pages while lines are left of a tick's ceiling; past the last page the pass ends. -/
def carderRun : Nat → Nat → Block → Block
  | 0, _, b => b
  | k + 1, n, b => match pageFrom b.dst.carderMark b with
    | none => setDistaff (fun d => { d with carder := false, carderMark := 0, carderEvs := [] }) b
    | some a =>
      let (c, b) := carderPage b.dst.carderEvs a b
      let b := setDistaff (fun d => { d with carderMark := a + 4096 }) b
      if n ≤ c then b else carderRun k (n - c) b

/-- Lines that the ceiling of FLT_CARDER.RATE allows in a tick: five blocks a line, in units of 5 GB/s of keystream (R54). -/
def carderLines (b : Block) : Nat := bitField b.regs.fltCarder 15 8 * 125 / 2

/-- The carder's work in a tick: it stops while the last tick left any unit waiting (R54). -/
def carderTick (b : Block) : Block :=
  if b.dst.carder && b.wh.unmet.isEmpty then carderRun (carderLines b) (carderLines b) b else b

/-- CARDER_PASS_START: a pass over every ALLOCATED hank begins, or one is skipped and counted while a pass still runs. -/
def doCarderPass (evs : MemEvs) (b : Block) : Block :=
  let due := b.dst.carderAt.getD 0 + bitField b.regs.fltCarder 31 16 * 1000000
  if asleep b || !b.dst.started || !b.regs.fltCarder.getLsbD 0 || b.tick < due then b
  else
    let b := setDistaff (fun d => { d with carderAt := some b.tick }) b
    if b.dst.carder then bumpHealth 56 1 b
    else setDistaff (fun d => { d with carder := true, carderMark := 0, carderEvs := evs }) b

def execPlyCheck (r : Ring) (d : Line) (evs : MemEvs) (s : State) : Out := onSettled (doPlyCheck r d evs) s
def execStandingCheckEnd (r : Ring) (d : Line) (s : State) : Out := onSettled (doCheckEnd r d) s
def execStandingCheckRepeat (skein : BitVec 10) (base : BitVec 64) (evs : MemEvs) (s : State) : Out :=
  onSettled (doCheckRepeat skein.toNat base.toNat evs) s
def execCarderPassStart (evs : MemEvs) (s : State) : Out := onSettled (doCarderPass evs) s

end Sys2Proof.Machine
end

