-- ==== Sys2Proof/Machine/FieldTest.lean ====
section
/-! DEFINITION. Field tests, their packs, and group 0x60 (R415 to R420, R425). Choices marked in the log: DEDUCED 104; DESIGN
CHOICE 105. -/

namespace Sys2Proof.Machine

/-! ### Packs (R415 to R417) -/

/-- A vector's total length where its body is well formed, from offset 0 of the vector (R416). -/
def vectorLen (v : Bytes) : Option Nat :=
  let n := leField v 2 2
  let ok := match leField v 0 1 with
    | 1 => n == 72 && decide (1 ≤ leField v 4 4) && decide (leField v 4 4 ≤ 65536)
    | 2 => n == 208
    | 3 => decide (leField v 4 1 ≤ 1) && restZero v 5 8 && decide (leField v 8 4 ≤ 4096) && n == 60 + leField v 8 4
    | 4 => decide (6 ≤ n)
    | _ => false
  if ok && leField v 1 1 == 0 && decide (n ≤ v.length) then some n else none

/-- The vectors fill the bytes exactly. -/
def vectorsOk : Nat → Bytes → Bool
  | 0, v => v.isEmpty
  | k + 1, v => match vectorLen v with
    | some n => vectorsOk k (v.drop n)
    | none => false

/-- Status of a commit's checks (R339, R415 to R417). -/
def packStatus (img : Bytes) (b : Block) : BitVec 8 :=
  let head := sliceBytes img 0 128
  let id := leField img 4 4
  let len := leField img 8 4
  let target := sliceBytes img 64 16
  let vs := sliceBytes img 8192 len
  if !Config.ecVerify Config.aedmelEc (sha384 head) (sliceBytes img 128 96) ||
      !Config.mldsaVerify Config.aedmelPq (ascii "frexis pack" ++ head) (sliceBytes img 224 4627) then cAuthFail
  else if leField img 0 2 != 1 || leField img 2 2 != 0 || id = 0 || 253952 < len || sha384Bytes vs != sliceBytes img 16 48 ||
      !restZero img 80 128 || !restZero img 4851 8192 || !vectorsOk (leField img 12 4) vs then cInvalid
  else if (target.any (· != 0) && target != toBytes 16 b.regs.deviceId) || (b.dst.packs.any fun p => p.id == id) then cNotPermitted
  else if 7 ≤ b.dst.packs.length || 262144 < sumNat (b.dst.packs.map fun p => p.bytes.length) + 8192 + len then cQuota
  else cOK

/-- The staging area of a session. -/
def stagingOf (sess : BitVec 32) (b : Block) : Bytes := match b.dst.staging with
  | some (i, x) => if i = sess then x else []
  | none => []

def doPackWrite (path : Nat) (sess : BitVec 32) (msg : Bytes) (b : Block) : Block :=
  let off := leField msg 4 4
  let len := leField msg 8 2
  groupOp .operator 0x60 1 path sess msg (16 + len)
    (len = 0 || decide (4096 < len) || decide (262144 < off + len) || !restZero msg 10 16) (fun b =>
      groupStatus path 0x60 1 cOK (setDistaff (fun d => { d with staging := some (sess, patchBytes (stagingOf sess b) off (msg.drop 16)) }) b)) b

/-- Store a staged pack. -/
def storePack (img : Bytes) (manager : Bool) (b : Block) : Block :=
  let p : Pack := { id := leField img 4 4, manager := manager, bytes := sliceBytes img 0 (8192 + leField img 8 4) }
  setDistaff (fun d => { d with packs := d.packs ++ [p] }) b

def doPackCommit (path : Nat) (sess : BitVec 32) (msg : Bytes) (b : Block) : Block :=
  groupOp .operator 0x60 2 path sess msg 5 (decide (1 < leField msg 4 1)) (fun b =>
    let img := stagingOf sess b
    if packStatus img b != cOK then groupStatus path 0x60 2 (packStatus img b) b
    else groupAnswer path 0x60 2 cOK (zeroBytes 3 ++ leBytes 4 (leField img 4 4)) (storePack img (leField msg 4 1 == 1) b)) b

def doPackDrop (path : Nat) (sess : BitVec 32) (msg : Bytes) (b : Block) : Block :=
  let id := leField msg 4 4
  groupOp .operator 0x60 3 path sess msg 8 false (fun b =>
    if b.dst.packs.any fun p => p.id == id then
      groupStatus path 0x60 3 cOK (setDistaff (fun d => { d with packs := d.packs.filter fun p => p.id != id }) b)
    else groupStatus path 0x60 3 cNotPermitted b) b

/-! ### Tests (R418 to R420) -/

/-- INDEX is in range of the row for a SCOPE. -/
def testIndexOk (scope index : Nat) (b : Block) : Bool := match scope with
  | 0 => decide (index < b.row.whorls)
  | 1 => decide (index < b.row.spindles)
  | 4 => decide (index < b.row.stackCount)
  | _ => index == 0

/-- PACK names pack 0 or a stored pack, which the manager needs leave to run. -/
def packOk (pack : Nat) (manager : Bool) (b : Block) : Bool :=
  pack == 0 || b.dst.packs.any fun p => p.id == pack && (!manager || p.manager)

def fieldTestChecks (d : Line) (b : Block) : Checks :=
  { c4 := bodyReserved d [(16, 1), (18, 2), (20, 4)] || decide (5 < fieldAt d 16 1) || !testIndexOk (fieldAt d 16 1) (fieldAt d 18 2) b,
    c6 := !packOk (fieldAt d 20 4) true b }

def addTest (t : FieldTest) (b : Block) : Block := setDistaff (fun d => { d with tests := d.tests ++ [t] }) b

def startFieldTest (x : Desc) (b : Block) : Block :=
  addTest { desc := some x.id, scope := fieldAt x.raw 16 1, index := fieldAt x.raw 18 2, pack := fieldAt x.raw 20 4, fault := 0 } b

def doFieldTest (r : Ring) (d : Line) (b : Block) : Block :=
  fetch r d 0x58 (.fieldTest r d) (fieldTestChecks d) (fun _ => []) startFieldTest b

/-- FT_RUN: answered at once with the FAULT_ID of the record to come. -/
def doFtRun (path : Nat) (sess : BitVec 32) (msg : Bytes) (b : Block) : Block :=
  let scope := leField msg 4 1
  let index := leField msg 6 2
  let pack := leField msg 8 4
  groupOp .operator 0x60 4 path sess msg 12 (decide (5 < scope) || leField msg 5 1 != 0) (fun b =>
    if !testIndexOk scope index b then groupStatus path 0x60 4 cInvalid b
    else if !packOk pack false b then groupStatus path 0x60 4 cNotPermitted b
    else
      let (id, b) := takeFaultId b
      groupAnswer path 0x60 4 cOK (zeroBytes 3 ++ leBytes 4 id) (addTest { desc := none, scope := scope, index := index, pack := pack, fault := id } b)) b

/-- What a test is over: spindle arbiters, whorls, ply lanes, hash lanes. -/
structure Engines where
  arbiters : List Nat := []
  whorls : List Nat := []
  lanes : List Nat := []
  hashes : List Nat := []

/-- The engines of a SCOPE. -/
def enginesOf (scope index : Nat) (b : Block) : Engines := match scope with
  | 0 => { whorls := [index] }
  | 1 => { arbiters := [index], whorls := whorlsOf index }
  | 2 =>
    let ws := b.wh.fenced.flatMap whorlsOf
    { arbiters := b.wh.fenced, whorls := ws ++ b.wh.retired.filter fun w => !ws.contains w }
  | 3 => { whorls := (List.range b.row.whorls).filter fun w => whorlIn w b }
  | 4 => { lanes := [index] }
  | _ => { hashes := (List.range 256).filter fun i => !b.dst.hashRetired.contains i }

/-! ### Whorls under test (R419) -/

/-- Blocks that a pack's whorl vectors run, each as often as it repeats. -/
def packBlocks : Nat → Bytes → Nat
  | 0, _ => 0
  | k + 1, v => match vectorLen v with
    | some n => (if leField v 0 1 = 1 then leField v 4 4 else 0) + packBlocks k (v.drop n)
    | none => 0

/-- Blocks that each whorl under a test runs: the 16 of pack 0 and those of the named pack (R420). -/
def testBlocks (pack : Nat) (b : Block) : Nat := match b.dst.packs.find? fun p => p.id == pack with
  | some p => 16 + packBlocks (leField p.bytes 12 4) (p.bytes.drop 8192)
  | none => 16

/-- The ledger word of no unit: vectors leave no entry. -/
def emptyEntry : BitVec 64 := 3 <<< 62

/-- Whorls run the vectors, with re-spin forced on every block. -/
def runVectors (pack : Nat) (ws : List Nat) (b : Block) : Block :=
  onArray (fun b => ws.foldl (fun b w => issueCheck w emptyEntry (testBlocks pack b) b) b) b

/-- The oldest test begins: retired whorls run its vectors at once, and those in service wait to be taken. -/
def beginTest (x : FieldTest) (xs : List FieldTest) (b : Block) : Block :=
  let ws := (enginesOf x.scope x.index b).whorls
  let x := { x with begun := true, todo := ws.filter fun w => whorlIn w b }
  runVectors x.pack (ws.filter fun w => !whorlIn w b) (setDistaff (fun d => { d with tests := x :: xs }) b)

/-- Tested whorls come back to service, and the next are taken, as many as R419 allows at once. -/
def nextBatch (x : FieldTest) (xs : List FieldTest) (b : Block) : Block :=
  let b := takeForTest x.todo (backFromTest b.wh.testing b)
  let x := { x with todo := x.todo.filter fun w => !b.wh.testing.contains w }
  runVectors x.pack b.wh.testing (setDistaff (fun d => { d with tests := x :: xs }) b)

/-- The oldest test's work in a tick. -/
def testTick (b : Block) : Block := match b.dst.tests with
  | [] => b
  | x :: xs => if x.begun then (if x.todo.isEmpty then b else nextBatch x xs b) else beginTest x xs b

/-! ### The end of a test (R420) -/

/-- What the outcomes amount to. -/
structure Tally where
  returned : Nat := 0
  retired : Nat := 0
  entries : List (BitVec 64) := []
  incomplete : Bool := false

/-- An arbiter's outcome: a fenced spindle returns, its whorls to be judged one by one; an in-service one is fenced. -/
def judgeArbiter (sp : Nat) (fail : Bool) (t : Tally) (b : Block) : Tally × Block :=
  if b.wh.fenced.contains sp then
    if fail then (t, b)
    else
      let b := setWh (fun x => { x with
        fenced := x.fenced.erase sp, isolating := x.isolating.filter (fun u => u.index != sp), retired := x.retired ++ (whorlsOf sp).filter fun w => !x.retired.contains w }) b
      ({ t with returned := t.returned + 1 }, spoolFree 1 9 ownBlock (64 * sp) 1 b)
  else if fail then ({ t with retired := t.retired + 1 }, fenceSpindle sp b)
  else (t, b)

/-- A whorl's outcome; `was` are the whorls in service before the test. -/
def judgeWhorl (was : List Nat) (w : Nat) (fail : Bool) (t : Tally) (b : Block) : Tally × Block :=
  if b.wh.fenced.contains (spindleOf w) then (t, b)
  else if was.contains w then
    if !fail then (t, b)
    else
      let b := retireWhorls [w] b
      let (es, bad, b) := takeLedger w b
      ({ t with retired := t.retired + 1, entries := t.entries ++ es, incomplete := t.incomplete || bad }, failSuspects es b)
  else if fail then (t, retireWhorls [w] b)
  else ({ t with returned := t.returned + 1 }, restoreWhorls [w] b)

/-- The outcomes of a test, applied: engines that failed leave service, others return to it. -/
def judgeTest (x : FieldTest) (bad : Nat → Nat → Bool) (b : Block) : Tally × Block :=
  let e := enginesOf x.scope x.index b
  let was := e.whorls.filter fun w => whorlIn w b
  let a := e.arbiters.foldl (fun (a : Tally × Block) sp => judgeArbiter sp (bad 4 sp) a.1 a.2) ({}, b)
  let a := e.whorls.foldl (fun (a : Tally × Block) w => judgeWhorl was w (bad 3 w) a.1 a.2) a
  let lanes := e.lanes.filter (bad 9)
  let hashes := e.hashes.filter (bad 0x11)
  ({ a.1 with retired := a.1.retired + hashes.length }, setDistaff (fun d => { d with
    lanesFaulty := d.lanesFaulty ++ lanes.filter (fun l => !d.lanesFaulty.contains l), hashRetired := d.hashRetired ++ hashes }) a.2)

/-- RESULT of a test: engines tested, failed, returned and retired, the FAULT_ID, and the vectors run. -/
def testResult (e : Engines) (bad : Nat → Nat → Bool) (t : Tally) (id vectors : Nat) : BitVec 160 :=
  let tested := e.arbiters.length + e.whorls.length + e.lanes.length + e.hashes.length
  let nFailed := (e.arbiters.filter (bad 4)).length + (e.whorls.filter (bad 3)).length + (e.lanes.filter (bad 9)).length +
    (e.hashes.filter (bad 0x11)).length
  resAt 12 2 tested ||| resAt 14 2 nFailed ||| resAt 16 2 t.returned ||| resAt 18 2 t.retired ||| resAt 20 4 id ||| resAt 24 4 vectors

/-- The test's fault record, its ATTENTION records, and its descriptor's completion. -/
def closeTest (x : FieldTest) (lanes : List Nat) (t : Tally) (l : List FaultEntry) (id : Nat) (res : BitVec 160) (b : Block) : Block :=
  let b := writeFault id
    { kind := 7, action := if t.retired != 0 then 3 else if t.returned != 0 then 11 else 0, aclass := if lanes.isEmpty then 0 else 3,
      unit := x.scope * 65536 + x.index, object := x.pack, slots := slotBits t.entries b, incomplete := t.incomplete, list := l,
      test := res.toNat % 2 ^ 128 } b
  let b := postSuspects id l b
  let b := lanes.foldl (fun b lane => raiseViews { cls := 3, object := lane, fault := id } b) b
  match x.desc.bind fun i => findDesc i b with
  | some d => complete d cOK res b
  | none => b

/-- FIELD_TEST_END: once the last whorls have been taken, the running test's outcomes are applied, its record is written and its descriptor completes (R420). `failed` names
the engines that failed a vector, as R456 numbers units. -/
def doTestEnd (failed : List Nat) (vectors : BitVec 32) (evs : MemEvs) (b : Block) : Block := match b.dst.tests with
  | [] => b
  | x :: xs =>
    if !x.begun || !x.todo.isEmpty then b
    else
    let b := backFromTest b.wh.testing (setDistaff (fun d => { d with tests := xs }) b)
    let e := enginesOf x.scope x.index b
    let bad (code i : Nat) : Bool := failed.contains (unitCode code i)
    let (t, b) := judgeTest x bad b
    let (l, b) := sweepSet evs t.entries b
    let (id, b) := if x.fault = 0 then takeFaultId b else (x.fault, b)
    settleSuspects (closeTest x (e.lanes.filter (bad 9)) t l id (testResult e bad t id vectors.toNat) b)

/-! ### The rest of group 0x60 (R425) -/

def faultHeld (id : Nat) (b : Block) : Option (BitVec 1024) := (b.faults.find? fun f => f.1 == id).map (·.2)

def doFaultRead (path : Nat) (sess : BitVec 32) (msg : Bytes) (b : Block) : Block :=
  groupOp .operator 0x60 5 path sess msg 8 false (fun b =>
    match faultHeld (leField msg 4 4) b with
    | none => groupStatus path 0x60 5 cNotPermitted b
    | some w => groupAnswer path 0x60 5 cOK (zeroBytes 3 ++ toBytes 128 w) b) b

/-- FAULT_LIST: the list lives in a class B extent, which newer lists may have taken. -/
def doFaultList (path : Nat) (sess : BitVec 32) (msg : Bytes) (evs : MemEvs) (b : Block) : Block :=
  let id := leField msg 4 4
  let off := leField msg 8 4
  groupOp .operator 0x60 6 path sess msg 12 (off % 4096 != 0) (fun b =>
    match faultHeld id b with
    | none => groupStatus path 0x60 6 cNotPermitted b
    | some w =>
      let size := 16 * fieldAt w 40 4
      let part (bs : Bytes) (b : Block) : Block := groupAnswer path 0x60 6 cOK (zeroBytes 11 ++ ((bs.take size).drop off).take 4096) b
      if size = 0 then part [] b
      else match findExtent (.fault id) b with
        | none => groupStatus path 0x60 6 cNotPermitted b
        | some e => match readExtent evs e b with
          | (.error st, b) => groupStatus path 0x60 6 st b
          | (.ok xs, b) => part (lineBytes xs) b) b

/-- LANE_SET disables or enables a ply lane. -/
def doLaneSet (path : Nat) (sess : BitVec 32) (msg : Bytes) (b : Block) : Block :=
  let lane := leField msg 4 1
  let on := leField msg 5 1
  groupOp .operator 0x60 7 path sess msg 6 (decide (b.row.stackCount ≤ lane) || decide (1 < on)) (fun b =>
    groupStatus path 0x60 7 cOK (setDistaff (fun d => { d with
      lanesOff := if on = 1 then d.lanesOff.filter (· != lane) else lane :: d.lanesOff.filter (· != lane) }) b)) b

/-- BLOCK_RESET: answered OK, and the reset follows 10 ms later. -/
def doBlockReset (path : Nat) (sess : BitVec 32) (msg : Bytes) (b : Block) : Block :=
  groupOp .operator 0x60 8 path sess msg 4 false (fun b => groupStatus path 0x60 8 cOK (dueReset (b.tick + 10000) 4 b)) b

def execFieldTest (r : Ring) (d : Line) (s : State) : Out := onSettled (doFieldTest r d) s
def execFieldTestEnd (failed : List Nat) (vectors : BitVec 32) (evs : MemEvs) (s : State) : Out := onSettled (doTestEnd failed vectors evs) s
def execPackWrite (path : BitVec 2) (sess : BitVec 32) (msg : Bytes) (s : State) : Out := onBlock (doPackWrite path.toNat sess msg) s
def execPackCommit (path : BitVec 2) (sess : BitVec 32) (msg : Bytes) (s : State) : Out := onBlock (doPackCommit path.toNat sess msg) s
def execPackDrop (path : BitVec 2) (sess : BitVec 32) (msg : Bytes) (s : State) : Out := onBlock (doPackDrop path.toNat sess msg) s
def execFtRun (path : BitVec 2) (sess : BitVec 32) (msg : Bytes) (s : State) : Out := onBlock (doFtRun path.toNat sess msg) s
def execFaultRead (path : BitVec 2) (sess : BitVec 32) (msg : Bytes) (s : State) : Out := onBlock (doFaultRead path.toNat sess msg) s
def execFaultList (path : BitVec 2) (sess : BitVec 32) (msg : Bytes) (evs : MemEvs) (s : State) : Out :=
  onBlock (doFaultList path.toNat sess msg evs) s
def execLaneSet (path : BitVec 2) (sess : BitVec 32) (msg : Bytes) (s : State) : Out := onBlock (doLaneSet path.toNat sess msg) s
def execBlockReset (path : BitVec 2) (sess : BitVec 32) (msg : Bytes) (s : State) : Out := onBlock (doBlockReset path.toNat sess msg) s

end Sys2Proof.Machine
end

