-- ==== Sys2Proof/Machine/Trace.lean ====
section
/-! DEFINITION. Counter sections, group 0x70, snapshots, TRACE_MARK and the spool's images (R449 to R472). Choices marked in the
log: DEDUCED 106, 107, 114. -/

namespace Sys2Proof.Machine

/-! ### Sections (R449 to R461) -/

/-- TELEMETRY_OPEN, unless LCS_GATE closes it (R450, R516). -/
def telemetryOpen (b : Block) : Bool := b.regs.lockState.getLsbD 6 && !b.regs.lcsGate.getLsbD 3

/-- The health section, 4 KiB (R454). -/
def healthSection (b : Block) : Bytes :=
  toBytes 8 b.tim.t ++ leBytes 1 b.tim.quality ++ leBytes 1 b.tel.policy ++ leBytes 2 (inServiceCount b) ++
    leBytes 2 (retiredCount b) ++ leBytes 2 b.wh.adopted.length ++
    ((List.range 15).flatMap fun i => leBytes 8 (amGetD 0 (16 + 8 * i) b.health)) ++ zeroBytes 3960

/-- The global section, 16 KiB (R455). -/
def globalSection (b : Block) : Bytes :=
  ((List.range 117).flatMap fun i => leBytes 8 (amGetD 0 (8 * i) b.glob)) ++ leBytes 8 b.wh.checked ++ zeroBytes 3152 ++
    ((List.range 2048).flatMap fun i => leBytes 4 (amGetD 0 (4096 + 4 * i) b.glob)) ++ zeroBytes 4096

def getMonitor (i : Nat) (b : Block) : Monitor := amGetD {} i b.tel.monitors

/-- A monitor's 160-B record (R461). -/
def Monitor.bytes (m : Monitor) : Bytes :=
  leBytes 1 m.probe ++ [0] ++ leBytes 2 m.index ++ leBytes 1 (b2n (probeIsLevel m.probe)) ++ zeroBytes 3 ++ leBytes 8 m.count ++
    leBytes 8 m.sum ++ leBytes 4 m.least ++ leBytes 4 m.most ++ (List.range 32).flatMap fun k => leBytes 4 (amGetD 0 k m.bins)

/-- The monitor section, 8 KiB (R461). -/
def monitorSection (b : Block) : Bytes := ((List.range 48).flatMap fun i => (getMonitor i b).bytes) ++ zeroBytes 512

/-- The section of a COUNTER_READ. -/
def sectionOf (i : Nat) (b : Block) : Bytes := match i with
  | 0 => healthSection b
  | 1 => globalSection b
  | _ => monitorSection b

/-! ### Group 0x70 (R452, R462, R463) -/

def doPolicySet (path : Nat) (sess : BitVec 32) (msg : Bytes) (b : Block) : Block :=
  groupOp .operator 0x70 1 path sess msg 5 (decide (7 < leField msg 4 1)) (fun b =>
    groupStatus path 0x70 1 cOK (setTel (fun t => { t with policy := leField msg 4 1 }) b)) b

def doCounterRead (path : Nat) (sess : BitVec 32) (msg : Bytes) (b : Block) : Block :=
  let i := leField msg 4 1
  let off := leField msg 8 4
  let size := if i = 0 then 4096 else if i = 1 then 16384 else 8192
  groupOp .operator 0x70 2 path sess msg 12 (decide (2 < i) || !restZero msg 5 8 || off % 4096 != 0 || decide (size ≤ off)) (fun b =>
    groupAnswer path 0x70 2 cOK (zeroBytes 11 ++ sliceBytes (sectionOf i b) off 4096) b) b

/-- Range of INDEX for a listed probe (R462). -/
def probeIndexOk (probe index : Nat) (b : Block) : Bool :=
  if [1, 2, 4, 0x14, 0x15, 0x17, 0x19].contains probe then index == 0
  else if probe = 3 then decide (index < b.row.fthStreams)
  else if [0x10, 0x11, 0x16].contains probe then decide (index < b.row.stackCount)
  else if probe = 0x12 then decide (index < b.row.spindles)
  else if probe = 0x13 then decide (index < b.row.weftPorts)
  else if probe = 0x18 then decide (index < b.row.slots) || index == 64
  else false

def putMonitor (i : Nat) (m : Monitor) (b : Block) : Block := setTel (fun t => { t with monitors := amSet i m t.monitors }) b

def doMonitorSet (path : Nat) (sess : BitVec 32) (msg : Bytes) (b : Block) : Block :=
  let m := leField msg 4 1
  let probe := leField msg 5 1
  let index := leField msg 6 2
  groupOp .operator 0x70 3 path sess msg 8 (decide (47 < m)) (fun b =>
    if m < 4 || !probeIndexOk probe index b then groupStatus path 0x70 3 cNotPermitted b
    else groupStatus path 0x70 3 cOK (putMonitor m { probe := probe, index := index } b)) b

/-- MONITOR_READ returns the record and, with CLEAR, empties it (R463). -/
def doMonitorRead (path : Nat) (sess : BitVec 32) (msg : Bytes) (b : Block) : Block :=
  let i := leField msg 4 1
  let clear := leField msg 5 1
  groupOp .operator 0x70 4 path sess msg 6 (decide (47 < i) || decide (1 < clear)) (fun b =>
    let m := getMonitor i b
    let b := groupAnswer path 0x70 4 cOK (zeroBytes 11 ++ m.bytes) b
    if clear = 0 then b else putMonitor i { probe := m.probe, index := m.index } b) b

def doSpoolTrigger (path : Nat) (sess : BitVec 32) (msg : Bytes) (b : Block) : Block :=
  groupOp .operator 0x70 5 path sess msg 4 false (fun b => groupStatus path 0x70 5 cOK (spoolTrigger 3 b)) b

/-! ### TRACE_MARK and snapshots -/

def markChecks (d : Line) (_ : Block) : Checks := { c4 := bodyReserved d [(16, 8), (24, 1)] || decide (1 < fieldAt d 24 1) }

/-- A mark, and with TRIGGER a trigger where SPL_CTRL allows it (R464 to R466). -/
def startMark (x : Desc) (b : Block) : Block :=
  let b := spoolPut 2 5 (ownerOf (ringOwner x.ring)) (putAt 128 0 8 (fieldAt x.raw 16 8)) b
  let b := if (fieldAt x.raw 24 1).testBit 0 && b.regs.splCtrl.getLsbD 48 then spoolTrigger 1 b else b
  finish x cOK b

def doTraceMark (r : Ring) (d : Line) (b : Block) : Block := fetch r d 0x38 (.traceMark r d) (markChecks d) (fun _ => []) startMark b

/-- A section as the manager may read it: zeros where it may not (R449, R460). -/
def forManager (flag : Nat) (bs : Bytes) (b : Block) : Bytes :=
  if telemetryOpen b || b.tel.policy.testBit flag then bs else zeroBytes bs.length

/-- Counter windows of slots 0 to 63 (R460). -/
def windowBytes (b : Block) : Bytes := (List.range 64).flatMap fun s => match slotSkein s b with
  | some (n, _) => (List.range 64).flatMap fun i => toBytes 64 (counterLine n (64 * i) b)
  | none => zeroBytes 4096

/-- What a snapshot writes behind the health section's STAMP (R460). -/
def snapshotRest (b : Block) : Bytes :=
  (healthSection b).drop 8 ++ forManager 0 (globalSection b) b ++ forManager 1 (monitorSection b) b ++
    (if telemetryOpen b then windowBytes b else [])

/-- SNAPSHOT: a period of TEL_SNAP has passed; the health STAMP is written last (R460). -/
def doSnapshot (b : Block) : Block :=
  let period := bitField b.regs.telSnap 11 0
  let base := bitField b.regs.telSnap 63 12 * 4096
  if asleep b || !b.dst.started || lcDead b || period = 0 || b.tick < b.tel.lastSnap + 1000 * period then b
  else setTel (fun t => { t with lastSnap := b.tick })
    (hostWrite base ((healthSection b).take 8) (hostWrite (base + 8) (snapshotRest b) b))

/-! ### Windows and images (R466 to R472) -/

/-- SPOOL_WINDOW_CLOSE: the post part is full, or POST_MS has passed. -/
def doWindowClose (b : Block) : Block := match b.tel.spool.window with
  | none => b
  | some w =>
    if w.closed then b
    else if w.size ≤ w.post.length || (w.limit != 0 && decide (w.since + w.limit ≤ b.tick)) then closeWindowNow b
    else b

/-- The 32 bytes of a spool record (R464). -/
def SpoolRec.bytes (r : SpoolRec) : Bytes :=
  leBytes 1 r.kind ++ leBytes 1 r.stream ++ leBytes 2 (r.owner % 1024) ++ leBytes 1 r.quality ++ zeroBytes 3 ++ toBytes 8 r.stamp ++ toBytes 16 r.data

/-- A window's records in stamp order. -/
def Window.records (w : Window) : List SpoolRec :=
  (w.pre.reverse ++ [w.trigger] ++ w.post.reverse ++ w.gaps.reverse).mergeSort fun x y => decide (x.stamp.toNat ≤ y.stamp.toNat)

/-- A skein's records sealed as an EXPORT: the header, the ciphertext and the tag (R321, R470). -/
def sealRecords (key : Key) (rInst : BitVec 128) (n : BitVec 64) (label : Bytes) (bs : Bytes) : Bytes :=
  let k := kdf (keyBytes key) "frexis export" (toBytes 16 rInst)
  let hdr := exportHeader rInst n bs.length
  let ct := gcmCrypt k (exportIv n) bs
  hdr ++ ct ++ gcmTag k (exportIv n) (hdr ++ label) ct

/-- A skein's part with its opening (R469). -/
def partBytes (n : Nat) (body : Bytes) : Bytes := leBytes 2 (n % 1024) ++ zeroBytes 6 ++ leBytes 8 body.length ++ body

/-- The key, R_inst and counter that seal a skein's part: transfer key 0, which a SWAPPED skein's extents hold alone, or for a dump its dump
slot. -/
def partKey (dump : Bool) (n : Nat) (b : Block) : Option (Key × BitVec 128 × BitVec 64) :=
  if dump then (b.tel.dumpSlots.find? fun s => s.skein == n).map fun s => (s.key, s.rInst, s.exportN)
  else ((getSkein n b).bind fun s => if s.slot.isNone then none else amGet 0 s.tkeys).map fun t => (t.key, t.rInst, t.exportN)

/-- The next export counter of the key that sealed a part. -/
def bumpExport (dump : Bool) (n : Nat) (b : Block) : Block :=
  if dump then setTel (fun t => { t with dumpSlots := t.dumpSlots.map fun s => if s.skein = n then { s with exportN := s.exportN + 1 } else s }) b
  else modSkein n (fun s => { s with tkeys := amMod 0 (fun t => { t with exportN := t.exportN + 1 }) s.tkeys }) b

/-- The image's skein parts, in ascending index; a part that no key can seal is omitted and accounted for (R468, R470). -/
def imageParts (w : Window) (b : Block) : List Bytes × Window × Block :=
  let label := if w.dump then ascii "frexis dump" ++ zeroBytes 5 else ascii "frexis spool" ++ zeroBytes 4
  let recs := w.records
  let owners := (recs.map (·.owner)).eraseDups.mergeSort (fun x y => decide (x ≤ y)) |>.filter (· != ownBlock)
  owners.foldl (fun (acc : List Bytes × Window × Block) n =>
    let mine := recs.filter fun r => r.owner == n
    let bs := mine.flatMap SpoolRec.bytes
    let (ps, w, b) := acc
    if telemetryOpen b then (ps ++ [partBytes n bs], w, b)
    else match partKey w.dump n b with
      | some (k, r, c) => (ps ++ [partBytes n (sealRecords k r c label bs)], w, bumpExport w.dump n b)
      | none =>
        let l : SpoolLoss := { stream := 0xFE, lost := mine.length, first := ((mine.head?).map (·.stamp)).getD 0 }
        (ps, gapPut l (gapRec l (gapData l) b) w, b)) ([], w, b)

/-- As many leading items as fit in `n` bytes. -/
def fitting : Nat → List Bytes → List Bytes
  | _, [] => []
  | n, x :: xs => if x.length ≤ n then x :: fitting (n - x.length) xs else []

/-- An image of at most `size` bytes (R469). -/
def imageBytes (w : Window) (id : Nat) (parts : List Bytes) (size : Nat) (isOpen : Bool) : Bytes :=
  let recs := (w.records.filter fun r => r.owner == ownBlock).map SpoolRec.bytes
  let rs := fitting (size - 64) recs
  let ps := if rs.length = recs.length then fitting (size - 64 - 32 * rs.length) parts else []
  let cut := rs.length != recs.length || ps.length != parts.length
  leBytes 2 1 ++ leBytes 1 (1 + b2n w.dump) ++ leBytes 1 (b2n isOpen + 2 * b2n cut) ++ leBytes 4 id ++ toBytes 8 w.trigger.stamp ++
    leBytes 1 w.trigger.quality ++ leBytes 1 w.source ++ leBytes 2 ps.length ++ leBytes 4 rs.length ++ zeroBytes 8 ++ w.trigger.bytes ++
    rs.flatten ++ ps.flatten

/-- Write a closed window as an image: to the host area with IMAGE_ID last, and on the trace output; then unpin it (R469). -/
def writeImage (w : Window) (b : Block) : Block :=
  if windowStuck w b then b
  else
    let (parts, w, b) := imageParts w b
    let id := b.tel.spool.imageId % (2 ^ 32 - 1) + 1
    let base := bitField b.regs.splDump 63 12 * 4096
    let whole := imageBytes w id parts (2 ^ 40) (telemetryOpen b)
    let b := if base = 0 then b
      else
        let img := imageBytes w id parts (2 ^ (20 + bitField b.regs.splDump 3 0)) (telemetryOpen b)
        hostWrite (base + 4) (leBytes 4 id) (hostWrite (base + 8) (img.drop 8) (hostWrite base (img.take 4) b))
    let b := if b.regs.splCtrl.getLsbD 49 then emit (.trace whole) b else b
    unpin (setSpool (fun s => { s with imageId := id, image := whole, window := some w }) b)

/-- SPOOL_IMAGE_WRITE. -/
def doImageWrite (b : Block) : Block := match b.tel.spool.window with
  | some w => if asleep b || !b.dst.started || !w.closed || w.dump then b else writeImage w b
  | none => b

/-- HANG_DUMP_WRITE: after the start; the dump slots are then erased (R472). -/
def doDumpWrite (b : Block) : Block := match b.tel.spool.window with
  | some w =>
    if asleep b || !b.dst.started || !w.dump || windowStuck w b then b
    else setTel (fun t => { t with dumpSlots := [], dumpErase := none }) (writeImage w b)
  | none => b

/-- DUMP_SLOT_ERASE: 1 s after the start. -/
def doDumpErase (b : Block) : Block := match b.tel.dumpErase with
  | some t => if b.tick < t then b else setTel (fun t => { t with dumpSlots := [], dumpErase := none }) b
  | none => b

def execPolicySet (path : BitVec 2) (sess : BitVec 32) (msg : Bytes) (s : State) : Out := onBlock (doPolicySet path.toNat sess msg) s
def execCounterRead (path : BitVec 2) (sess : BitVec 32) (msg : Bytes) (s : State) : Out := onBlock (doCounterRead path.toNat sess msg) s
def execMonitorSet (path : BitVec 2) (sess : BitVec 32) (msg : Bytes) (s : State) : Out := onBlock (doMonitorSet path.toNat sess msg) s
def execMonitorRead (path : BitVec 2) (sess : BitVec 32) (msg : Bytes) (s : State) : Out := onBlock (doMonitorRead path.toNat sess msg) s
def execSpoolTrigger (path : BitVec 2) (sess : BitVec 32) (msg : Bytes) (s : State) : Out := onBlock (doSpoolTrigger path.toNat sess msg) s
def execTraceMark (r : Ring) (d : Line) (s : State) : Out := onSettled (doTraceMark r d) s
def execSnapshot (s : State) : Out := onBlock doSnapshot s
def execSpoolWindowClose (s : State) : Out := onBlock doWindowClose s
def execSpoolImageWrite (s : State) : Out := onBlock doImageWrite s
def execHangDumpWrite (s : State) : Out := onBlock doDumpWrite s
def execDumpSlotErase (s : State) : Out := onBlock doDumpErase s

end Sys2Proof.Machine
end

