-- ==== Sys2Proof/Machine/Time.lean ====
section
/-! DEFINITION. Time: quality, locking, the tick, the slot strobe and its register (R441 to R448). Choices marked in the log:
DEDUCED 40, 108; DESIGN CHOICE 19. -/

namespace Sys2Proof.Machine

def setTim (f : Tim → Tim) (b : Block) : Block := { b with tim := f b.tim }

/-- LOCK_TOL in nanoseconds. -/
def lockTol (b : Block) : Nat := 10 * bitField b.regs.timCtrl 15 8

/-- TICK_LOST: substitute edges begin, and T runs free (R443). -/
def doTickLost (b : Block) : Block :=
  if b.tim.substitute then b
  else
    let b := setTim (fun t => { t with substitute := true }) b
    setQuality (qualityNow b) b

/-- TICK_REGAINED: after 1,000 good intervals the tick is taken back (R443). -/
def doTickRegained (b : Block) : Block :=
  if !b.tim.substitute then b
  else
    let b := setTim (fun t => { t with substitute := false }) b
    setQuality (qualityNow b) b

/-- The bus is seen with a value. -/
def seeBus (b : Block) : Block := setTim (fun t => { t with busAt := b.tick }) b

/-- Compare the bus with T: T goes on without a step, or steps with a time gap record; then the quality is locked (R444). -/
def takeLock (bus : BitVec 64) (b : Block) : Block :=
  let t := b.tim.t
  let apart := if t.toNat ≤ bus.toNat then bus.toNat - t.toNat else t.toNat - bus.toNat
  let b := if apart ≤ lockTol b then b
    else
      let b := setTim (fun x => { x with t := bus, gaps := satAdd 16 x.gaps 1 }) b
      raiseBlock 7 (bus - t).toNat (bumpHealth 112 1 (spoolFree 1 3 ownBlock 4 (bus - t).toNat b))
  setQuality 3 (setTim (fun x => { x with everLocked := true }) b)

/-- The bus value lies within LOCK_TOL of a whole second. -/
def nearSecond (bus : BitVec 64) (b : Block) : Bool :=
  let m := bus.toNat % 1000000000
  decide (m ≤ lockTol b) || decide (1000000000 - m ≤ lockTol b)

/-- PPS_EDGE: the edge that PPS_EDGE selects, with the bus value where the bus is valid (R442, R444). It is a lock decision, at which a
TIM_CTRL written before applies (R523). -/
def doPpsEdge (bus : Option (BitVec 64)) (b : Block) : Block :=
  if !b.regs.timCtrl.getLsbD 0 || !b.regs.timCtrl.getLsbD 1 || b.tim.substitute then setQuality (qualityNow b) b
  else match bus with
    | none => b
    | some v =>
      let b := seeBus b
      if nearSecond v b then takeLock v (setTim (fun t => { t with ppsAt := some b.tick }) b)
      else
        let b := setTim (fun t => { t with ppsAt := none, disagree := t.disagree + 1 }) b
        setQuality (qualityNow b) b

/-- TOD_BUS_LOST: the bus has not changed for 2 ticks (R442). The model sees the bus at commands alone, and this one says that it did not
change between them. -/
def doBusLost (b : Block) : Block := if b.tim.quality = 3 && decide (b.tim.busAt + 2 ≤ b.tick) then setQuality 2 b else b

/-- PPS_LOST: no PPS edge that agreed has come within 1.1 s while PPS_EN is 1 (R442). -/
def doPpsLost (b : Block) : Block := setQuality (qualityNow b) b

/-- TOD_BUS_SAMPLE_LOCK: with PPS_EN 0, the first bus sample after 1,000 good intervals (R444). -/
def doBusSample (bus : BitVec 64) (b : Block) : Block :=
  if !b.regs.timCtrl.getLsbD 0 then setQuality (qualityNow b) b
  else if b.regs.timCtrl.getLsbD 1 || b.tim.substitute || b.tim.quality = 3 then seeBus b else takeLock bus (seeBus b)

/-! ### The slot strobe (R446) -/

/-- One strobe for the regions that advance on it (R108, R112). -/
def strobeRegions (b : Block) : Block :=
  (b.mem.regions.filter fun e => e.2.adv == 1).foldl (fun b e =>
    let n := e.2.strobes + 1
    let put (v : Nat) (b : Block) : Block := setMem (fun m => { m with regions := amMod e.1 (fun r => { r with strobes := v }) m.regions }) b
    if n < e.2.strobeDiv then put n b else (advanceRegion e.1 (put 0 b)).2) b

/-- The edge comes sooner than MIN_US after the last accepted one. -/
def strobeEarly (b : Block) : Bool := match b.tim.lastStrobe with
  | some t => decide (b.tick < t + bitField b.regs.timStrobe 15 0)
  | none => false

/-- The interval starts again at an accepted strobe; a missing one has then ended. -/
def noteStrobe (b : Block) : Block :=
  let c := setTim (fun t => { t with lastStrobe := some b.tick, strobeFrom := b.tick, strobeMissing := false }) b
  if b.tim.strobeMissing then raiseBlock 7 0 (spoolFree 1 3 ownBlock 6 0 c) else c

/-- SLOT_STROBE: an edge sooner than MIN_US after the last accepted one is discarded. -/
def doStrobe (b : Block) : Block :=
  if strobeEarly b then raiseBlock 7 0 (bumpHealth 120 1 (spoolFree 1 3 ownBlock 5 0 b))
  else strobeRegions (noteStrobe b)

/-- STROBE_MISSING: the interval has reached twice EXPECT_US. -/
def doStrobeMissing (b : Block) : Block :=
  let expect := bitField b.regs.timStrobe 31 16
  if expect = 0 || b.tim.strobeMissing || b.tick < b.tim.strobeFrom + 2 * expect then b
  else raiseBlock 7 0 (spoolFree 1 3 ownBlock 7 0 (setTim (fun t => { t with strobeMissing := true }) b))

/-- TIM_STROBE_WRITE: the interval restarts, and EXPECT_US 0 clears STROBE_MISSING. -/
def doStrobeWrite (q : Tgt) (b : Block) : Block :=
  if !isReg q 0x608 false then b
  else answerWrite (match writeValue q b with
    | none => b
    | some v =>
      if !writesHonoured 0x608 b then b
      else
        let b := setRegs (fun r => { r with timStrobe := writeFields r.timStrobe (v.setWidth 32) [fldIf 15 0 pos, fld 31 16] }) b
        setTim (fun t => { t with
          strobeFrom := b.tick, strobeMissing := t.strobeMissing && bitField b.regs.timStrobe 31 16 != 0 }) b)

def execTickLost (s : State) : Out := onBlock doTickLost s
def execTickRegained (s : State) : Out := onBlock doTickRegained s
def execPpsEdge (bus : Option (BitVec 64)) (s : State) : Out := onBlock (doPpsEdge bus) s
def execTodBusLost (s : State) : Out := onBlock doBusLost s
def execPpsLost (s : State) : Out := onBlock doPpsLost s
def execTodBusSampleLock (bus : BitVec 64) (s : State) : Out := onBlock (doBusSample bus) s
def execSlotStrobe (s : State) : Out := onSettled doStrobe s
def execStrobeMissing (s : State) : Out := onBlock doStrobeMissing s
def execTimStrobeWrite (q : Tgt) (s : State) : Out := onAccess (.timStrobeWrite q) (doStrobeWrite q) s

end Sys2Proof.Machine
end

