-- ==== Sys2Proof/Machine/Power.lean ====
section
/-! DEFINITION. Supplies, power states, wakes and the alarm (R426 to R439, R447), and what each loss leaves. Choices marked in the
log: DEDUCED 109, 110, 111, 113. -/

namespace Sys2Proof.Machine

def setPwr (f : Power → Power) (b : Block) : Block := { b with pwr := f b.pwr }

/-! ### What a loss leaves -/

/-- Every register, table and queue of the datapath is gone, and no start has completed since. What stays: the row, the ticks, the
distaff's retention (R66, R68, R340, R417, R424, R429, R453, R504), OTP, the power state, the links' states, and the memory outside. -/
def clearVolatile (b : Block) : Block :=
  { row := b.row, tick := b.tick, draws := b.draws, choices := b.choices, out := b.out, faultNext := b.faultNext, faults := b.faults,
    fltSlot := 0, nextDesc := b.nextDesc, refusedNoSkein := b.refusedNoSkein,
    regs := { splDump := b.regs.splDump },
    pwr := { b.pwr with entry := none, heldAcc := [], loaded := false },
    host := { ports := b.host.ports.map fun p => (p.1, { linkUp := p.2.linkUp, flit := p.2.flit }) },
    dst := { otp := b.dst.otp, weak := b.dst.weak, bankA := b.dst.bankA, bankB := b.dst.bankB, packs := b.dst.packs },
    mem := { cells := b.mem.cells },
    wh := { retired := b.wh.retired, fenced := b.wh.fenced, adoptHigh := b.wh.adoptHigh, svcLow := b.wh.svcLow },
    fab := { up := b.fab.up },
    tel := { policy := b.tel.policy, samples := b.tel.samples, dumpSlots := b.tel.dumpSlots },
    awake := false }

/-- VAO_MAIN and VAO_BACKUP are both lost, or the retention is: the next start is a first start (R429, R432). -/
def loseRetention (b : Block) : Block :=
  let b := clearVolatile b
  { b with
    faultNext := 1, faults := [], regs := {}, dst := { otp := b.dst.otp, weak := b.dst.weak }, wh := {}, tel := { samples := b.tel.samples } }

/-! ### The always-on supplies (R426 to R429) -/

/-- A switch in either direction: it raises ACLASS 6 (R427). -/
def switchOver (backup : Bool) (b : Block) : Block :=
  let b := setPwr (fun p => { p with onBackup := backup }) b
  raiseBlock 6 0 (bumpHealth 104 1 (spoolFree 1 2 ownBlock (b2n backup) 0 b))

/-- Both inputs are lost: everything but OTP and the memory outside goes. -/
def bothLost (b : Block) : Block :=
  let b := loseRetention b
  { b with pwr := { mainGood := false, backupGood := false, nextStart := some 0 } }

/-- VAO_MAIN_LOST. -/
def doMainLost (b : Block) : Block :=
  if !b.pwr.mainGood then b
  else if !b.pwr.backupGood then bothLost b
  else switchOver true (setPwr (fun p => { p with mainGood := false }) b)

/-- VAO_MAIN_RESTORED: good for 10 ms, so the distaff switches back. -/
def doMainRestored (b : Block) : Block :=
  if b.pwr.mainGood then b
  else
    let b := setPwr (fun p => { p with mainGood := true }) b
    if b.pwr.onBackup then switchOver false b else b

/-- VAO_BACKUP_LOST. -/
def doBackupLost (b : Block) : Block :=
  if !b.pwr.backupGood then b
  else if !b.pwr.mainGood then bothLost b
  else setPwr (fun p => { p with backupGood := false }) b

/-- CORE_SUPPLY_LOSS: in any state but OFF the distaff isolates the datapath; a start with LAST_START 4 follows, and ACLASS 6 (R430). -/
def doCoreLoss (b : Block) : Block :=
  if b.pwr.st = .off || !b.pwr.coreOn then b
  else
    let b := clearVolatile b
    setPwr (fun p => { p with st := .active, coreOn := false, nextStart := some 4, heldEv := p.heldEv ++ [(6, 0)] }) b

/-- DISTAFF_BROWN_OUT in low-power mode; `kept`: the retention is intact, and the I3C address with it (R253, R432). -/
def doBrownOut (kept : Bool) (b : Block) : Block :=
  if b.pwr.st = .active then b
  else
    let st := b.pwr.st
    let b := if kept then setHost (fun h => { h with i3c := { h.i3c with da := b.host.i3c.da } }) (clearVolatile b) else loseRetention b
    setPwr (fun p => { p with
      st := if st = .off then .off else .active, nextStart := some 3, heldEv := p.heldEv ++ [(6, 0)], wakeReq := false }) b

/-! ### REST and OFF (R433 to R438) -/

/-- The first refuser in the order of R434: CODE and SKEIN. -/
def refuser (off : Bool) (b : Block) : Option (Nat × Nat) :=
  let who (r : Ring) : Nat := match r with | .mgr => 0x3FF | .skein n => n
  let unfetched (p : RingPair) : Bool := p.sqTail != p.sqHead
  let skeinBy (p : Nat × Skein → Bool) : Option Nat := (b.skeins.find? p).map (·.1)
  let code (c : Nat) (x : Option Nat) : Option (Nat × Nat) := x.map fun s => (c, s)
  let blk (c : Nat) (p : Bool) : Option (Nat × Nat) := if p then some (c, 0x3FF) else none
  let slot := ((slotClassSkein b).map (·.1)).getD 0x3FF
  let banks := [1, 2, 3].contains b.dst.bankA.st || [1, 2, 3].contains b.dst.bankB.st
  let slotBusy := (b.host.fth.any fun f => f.2.enable) || b.mem.regions.any fun r => r.2.adv == 1
  (code 1 ((b.descs.head?).map fun x => who x.ring)).orElse fun _ =>
  (code 1 (if b.regs.ringEnable && unfetched b.mgr then some 0x3FF else none)).orElse fun _ =>
  (code 1 (skeinBy fun e => unfetched e.2.ring)).orElse fun _ =>
  (code 2 (skeinBy fun e => e.2.st == .quiescing || e.2.st == .resetting || e.2.st == .destroying)).orElse fun _ =>
  (blk 3 (!b.mem.reel.pass.isEmpty || !b.mem.reel.queue.isEmpty || b.mem.hanks.any fun h => h.2.st == .zeroing)).orElse fun _ =>
  (blk 4 (lcRuns b || banks || b.regs.dstStatus.getLsbD 11)).orElse fun _ =>
  (code 5 (if slotBusy then some slot else none)).orElse fun _ =>
  (code 6 ((b.srv.seals.head?).map (·.skein))).orElse fun _ =>
  (code 7 ((b.fab.out.head?).map (·.skein))).orElse fun _ =>
  (blk 8 (!b.dst.tests.isEmpty || !b.wh.sweeps.isEmpty)).orElse fun _ =>
  (code 9 (if off then skeinBy (fun _ => true) else none)).orElse fun _ =>
  blk 10 (!b.fab.pkgOps.isEmpty)

/-- PWR_LAST_REFUSER (R439). -/
def lastRefuserWord (code skein : Nat) (aborted : Bool) (req : Nat) : BitVec 32 :=
  BitVec.ofNat 32 (code % 16 + (skein % 1024) * 16 + b2n aborted * 16384 + req * 65536)

/-- A refused entry: counted, with its first refuser (R434). -/
def refuseEntry (code skein req : Nat) (b : Block) : Block :=
  spoolFree 1 2 ownBlock (16 + code) skein (setRegs (fun r => { r with
    refuseCount := setBits r.refuseCount 31 0 (satAdd 32 (bitField r.refuseCount 31 0) 1), lastRefuser := lastRefuserWord code skein false req }) b)

/-- Steps 1 and 2 of R435: no new work is accepted, a carder pass is abandoned, and dirty absorber entries are written back. -/
def beginEntry (req : Nat) (evs : MemEvs) (b : Block) : Block :=
  let b := if b.dst.carder then bumpHealth 56 1 (setDistaff (fun d => { d with carder := false, carderMark := 0, carderEvs := [] }) b) else b
  let b := (b.mem.abs.filter fun e => e.dirty && !e.spilled).foldl (fun b e =>
    modAbs e.line (fun e => { e with dirty := false, idle := false, closeAt := none }) (absWriteBack evs e b)) b
  setPwr (fun p => { p with entry := some req }) { b with awake := false }

/-- A write of PWR_CTRL.REQ = `req` (R434, R435, R438). A write of the other request is the other row's. -/
def doRequest (req : Nat) (q : Tgt) (evs : MemEvs) (b : Block) : Block :=
  if !isReg q 0x500 false then b
  else match writeValue q b with
    | none => answerWrite b
    | some v =>
      let r := bitField v 1 0
      if r + req = 3 then b
      else if r != req || !writesHonoured 0x500 b then answerWrite b
      else match refuser (req == 2) b with
        | some (code, skein) => answerWrite (refuseEntry code skein req b)
        | none => beginEntry req evs (answerWrite b)

/-- Steps 3 and 4 of R435: the datapath is gated, and the distaff regulator enters low-power mode; OFF drives off-ready (R438). -/
def endEntry (b : Block) : Block := match b.pwr.entry with
  | none => b
  | some r =>
    let b := spoolFree 1 2 ownBlock (32 + r) 0 b
    setPwr (fun p => { p with entry := none, st := if r = 2 then .off else .rest, offReady := r == 2 }) b

/-! ### The alarm's register (R447) -/

/-- T has reached a TIM_ALARM that is not 0. -/
def alarmDue (b : Block) : Bool := b.regs.timAlarm != 0 && decide (b.regs.timAlarm.toNat ≤ b.tim.t.toNat)

/-- The alarm acts in ACTIVE or SLACK: TIM_ALARM clears, and ACLASS 7 is raised. -/
def alarmActs (b : Block) : Block :=
  if !alarmDue b then b else raiseBlock 7 0 (spoolFree 1 3 ownBlock 8 0 (setRegs (fun r => { r with timAlarm := 0 }) b))

/-- TIM_ALARM_WRITE: 8-B writes alone (R503); a value that T has reached acts at once. -/
def doAlarmWrite (q : Tgt) (b : Block) : Block :=
  if !isReg q 0x618 false then b
  else
    let b := answerWrite b
    if q.be != 0xFF || (accessMask q).isNone || !writesHonoured 0x618 b then b
    else alarmActs (setRegs (fun r => { r with timAlarm := q.data }) b)

/-! ### Wakes (R435, R436) -/

/-- Replay one access that the synchroniser holds: those of the set-up registers and of the doorbell pages. -/
def replayOne (c : Instr) (b : Block) : Block := match c with
  | .ringEnable q => accessOr c (doRingEnable q) b
  | .lcsGateWrite q => accessOr c (doLcsGate q) b
  | .registerWrite q => accessOr c (doRegisterWrite q) b
  | .sqTail q => accessOr c (doSqTail q) b
  | .cqHead q => accessOr c (doCqHead q) b
  | .attnAck q => accessOr c (doAttnAck q) b
  | .latchedHalfRead q => accessOr c (doTgtRead q) b
  | .fwLoad q image => accessOr c (doFwLoad q image) b
  | .timStrobeWrite q => accessOr c (doStrobeWrite q) b
  | .timAlarmWrite q => accessOr c (doAlarmWrite q) b
  | .requestRest q evs => accessOr c (doRequest 1 q evs) b
  | .requestOff q evs => accessOr c (doRequest 2 q evs) b
  | _ => b

/-- Raise what the distaff held while nothing could be served. -/
def raiseHeld (b : Block) : Block :=
  let es := b.pwr.heldEv
  es.foldl (fun b e => raiseViews { cls := e.1, object := e.2 } b) (setPwr (fun p => { p with heldEv := [] }) b)

/-- Replay the held accesses in arrival order. -/
def replayHeld (b : Block) : Block :=
  let cs := b.pwr.heldAcc
  cs.foldl (fun b c => replayOne c b) (setPwr (fun p => { p with heldAcc := [] }) b)

/-- SKEIN field of the doorbell that aborted an entry (R434). -/
def wakeSkein : WakeSource → Nat
  | .doorbell (some n) => n
  | _ => 0x3FF

/-- An entry under way is aborted and counted, and what waited is replayed (R434, R436). -/
def abortEntry (src : WakeSource) (req : Nat) (b : Block) : Block :=
  let b := setRegs (fun r => { r with
    refuseCount := setBits r.refuseCount 63 32 (satAdd 32 (bitField r.refuseCount 63 32) 1),
    lastRefuser := lastRefuserWord 11 (wakeSkein src) true req }) b
  replayHeld (setPwr (fun p => { p with entry := none }) (spoolFree 1 2 ownBlock 27 (wakeSkein src) { b with awake := true }))

/-- REST ends: held events are raised, and held accesses replayed (R435, R436). -/
def endRest (b : Block) : Block :=
  replayHeld (raiseHeld (spoolFree 1 2 ownBlock 48 0 (setPwr (fun p => { p with st := .active }) { b with awake := true, fwKick := b.tick })))

/-- A wake source aborts an entry under way, ends REST, or in OFF asks for the core supply (R435, R436, R438). -/
def wake (src : WakeSource) (b : Block) : Block :=
  match b.pwr.st, b.pwr.entry with
  | .active, some req => abortEntry src req b
  | .rest, _ => endRest b
  | .off, _ => match src with
    | .doorbell _ => b
    | _ => setPwr (fun p => { p with wakeReq := true }) b
  | .active, none => b

/-- WAKE: an I3C wake is a match of the target's dynamic address, whose first header Frexis does not acknowledge while it sleeps (R253). -/
def doWake (src : WakeSource) (b : Block) : Block := match src, b.host.i3c.da with
  | .i3c, none => b
  | .i3c, some a => wake src (if b.pwr.st = .active then b else emit (.i3cNack a) b)
  | _, _ => wake src b

/-- The wake source of a held access: a doorbell's skein or the manager, or a register access. -/
def sourceOf (c : Instr) : WakeSource := match c with
  | .sqTail q | .cqHead q | .attnAck q => .doorbell (match pageOf q with | some (.skein n, _) => some n | _ => none)
  | _ => .doorbell none

/-- A held access wakes the block (R436). -/
def wakeHeld (b : Block) : Block := match b.pwr.heldAcc with
  | [] => b
  | c :: _ => wake (sourceOf c) b

/-! ### The alarm (R447) -/

/-- ALARM: T has reached TIM_ALARM. In REST or OFF it is a wake source; an entry under way it aborts, and acts. -/
def doAlarm (b : Block) : Block :=
  if !alarmDue b then b
  else if b.pwr.st = .active then alarmActs (wake .alarm b)
  else wake .alarm (spoolFree 1 3 ownBlock 8 0 (setRegs (fun r => { r with timAlarm := 0 }) b))

def execVaoMainLost (s : State) : Out := onBlock doMainLost s
def execVaoMainRestored (s : State) : Out := onBlock doMainRestored s
def execVaoBackupLost (s : State) : Out := onBlock doBackupLost s
def execCoreSupplyLoss (s : State) : Out := onBlock doCoreLoss s
def execDistaffBrownOut (kept : Bool) (s : State) : Out := onBlock (doBrownOut kept) s
def execRequestRest (q : Tgt) (evs : MemEvs) (s : State) : Out := onAccess (.requestRest q evs) (doRequest 1 q evs) s
def execRequestOff (q : Tgt) (evs : MemEvs) (s : State) : Out := onAccess (.requestOff q evs) (doRequest 2 q evs) s
def execWake (src : WakeSource) (s : State) : Out := onSettled (doWake src) s
def execAlarm (s : State) : Out := onSettled doAlarm s
def execTimAlarmWrite (q : Tgt) (s : State) : Out := onAccess (.timAlarmWrite q) (doAlarmWrite q) s

end Sys2Proof.Machine
end

