-- ==== Sys2Proof/Machine/Start.lean ====
section
/-! DEFINITION. Starts and the block reset edge, with the hang dump (R67, R296, R297, R303, R327, R357, R408, R439, R471). Choices
marked in the log: DEDUCED 89, 108, 112, 113; DESIGN CHOICE 2, 55, 56. -/

namespace Sys2Proof.Machine

/-! ### The life-cycle log (R354, R355, R357) -/

/-- A word of the log is empty at both margins. -/
def lcEmpty (i : Nat) (b : Block) : Bool := otpWord i b == 0 && otpWeak i b == 0
/-- A word is valid: it reads identically at both margins and its halves are complements. -/
def lcValid (i : Nat) (b : Block) : Bool :=
  otpWeak i b == 0 && bitField (otpWord i b) 63 32 + bitField (otpWord i b) 31 0 == 2 ^ 32 - 1

/-- What one slot of the log says after the slots before it. -/
inductive LcSlot where
  | empty
  /-- The slot is abandoned: its intent is invalid and no state was burnt. -/
  | abandoned
  /-- The transition to this state is complete. -/
  | done (target : Nat)
  /-- A valid intent to a target from a state, with no state word. -/
  | pending (target src : Nat)
  | bad

def lcSlot (k : Nat) (b : Block) : LcSlot :=
  let i := lcSlotWord k
  let intent := otpWord i b
  let st := otpWord (i + 1) b
  let target := bitField intent 3 0
  if lcEmpty i b then (if lcEmpty (i + 1) b then .empty else .bad)
  else if lcValid i b then
    if lcEmpty (i + 1) b then .pending target (bitField intent 7 4)
    else if lcValid (i + 1) b && st == lcWord (target + 256 * k) then .done target else .bad
  else if lcEmpty (i + 1) b then .abandoned else .bad

/-- What the log decides: state, next free slot (16: none), and the pending transition's target and slot. -/
structure LcPos where
  st : Nat := 0
  next : Nat := 0
  pend : Option (Nat × Nat) := none

/-- Read the log from slot 0 upward (R357). -/
def lcRead : Nat → Nat → LcPos → Block → LcPos
  | 0, _, p, _ => p
  | n + 1, k, p, b =>
    let lost : LcPos := { st := 15, next := 16 }
    match lcSlot k b with
    | .empty => lcRead n (k + 1) p b
    | .bad => lost
    | s =>
      if p.next != k then lost
      else match s with
        | .done t => lcRead n (k + 1) { st := t, next := k + 1 } b
        | .pending t f => lcRead n (k + 1) { st := f, next := k + 1, pend := some (t, k) } b
        | _ => lcRead n (k + 1) { p with next := k + 1, pend := none } b

def lcPosition (b : Block) : LcPos := lcRead 16 0 {} b

/-- LOCK_STATE (R327, R349). -/
def lockWord (st : Nat) (b : Block) : BitVec 32 :=
  let wide := st = 0 || st = 1 || st = 4
  BitVec.ofNat 32 (st + b2n wide * 16 + b2n (st = 0 || st = 1) * 32 + b2n wide * 64 + b2n wide * 128 +
    b2n (opCurrent b).isSome * 256 + (opCurrent b).getD 0 * 512)

/-- LCS_STATE (R515). -/
def lcsWord (p : LcPos) (b : Block) : BitVec 64 :=
  BitVec.ofNat 64 (p.st + b2n p.pend.isSome * 16 + p.next * 256 + b2n (opCurrent b).isSome * 8192 + (opCurrent b).getD 0 * 16384 +
    arbCounter b * 65536 + bankSvn (running b) * 2 ^ 32)

/-! ### The root (R296) -/

/-- One attempt: the root, where every block decodes and CHECK agrees. -/
def rootOnce (race : Bytes) (b : Block) : Option Key := match Config.pufDecode race (otpBytes 0 256 b) with
  | none => none
  | some info =>
    let r := (sha384Bytes (ascii "frexis root" ++ sliceBytes info 0 56)).take 32
    if (sha384Bytes (ascii "frexis check" ++ r)).take 16 = otpBytes 240 16 b then some (ofBytes 256 r) else none

/-- At most 8 attempts: how many were made, and the root. -/
def regenerate : Nat → List Bytes → Block → Nat × Option Key
  | 0, _, _ => (0, none)
  | k + 1, rs, b => match rs.head?.bind fun r => rootOnce r b with
    | some x => (1, some x)
    | none => let (n, x) := regenerate k rs.tail b; (n + 1, x)

/-! ### Firmware banks at a start (R339, R340, R346) -/

/-- A TRIAL bank becomes STAGED and PREVIOUS runs; a bank that fails the ROM's check becomes EMPTY, and PREVIOUS takes its place. -/
def banksAtStart (b : Block) : Block :=
  let ok (k : Bank) : Bool := imageReason k.img b == 0
  let run (k : Bank) : Bank := if k.st = 5 then (if ok k then { k with st := 4 } else {}) else k
  let trial (k : Bank) : Bool := k.st == 3
  let step (k o : Bank) : Bank × Bank :=
    if trial k then ({ k with st := 2 }, run o)
    else if k.st = 4 && !ok k then ({}, run o)
    else (k, o)
  let (x, y) := step b.dst.bankA b.dst.bankB
  let (y, x) := step y x
  setDistaff (fun d => { d with bankA := x, bankB := y }) b

/-! ### START -/

/-- OTP as the start reads it. -/
def readOtp (a : StartIn) (b : Block) : Block :=
  let b := a.otp.foldl (fun b e => if e.1 < 256 then otpBurn e.1 e.2 b else b) b
  setDistaff (fun d => { d with weak := a.weak }) b

/-- Straps, supplies and the registers loaded from the row (R15, R139, R492, R508, R509, R522). -/
def loadFields (a : StartIn) (b : Block) : Block :=
  let dies := if 1 ≤ a.pkgDies.toNat && a.pkgDies.toNat ≤ 4 then a.pkgDies.toNat else 1
  let mask := 2 ^ b.row.stackCount - 1
  let zone0 : BitVec 64 := BitVec.ofNat 64 (mask + 0xFFFF * 2 ^ 16 + 128 * 2 ^ 32 + 2 ^ 41)
  let (s0, s1, s2, s3) := cfgSizes b.row
  let b := setRegs (fun r => { r with
    sizes0 := s0, sizes1 := s1, sizes2 := s2, sizes3 := s3, dieIndex := a.dieIndex.toNat, pkgDies := dies,
    leader := a.dieIndex == 0, i3cSa := a.i3cSa.toNat, twsZone := [(0, zone0)], reelRotRate := BitVec.ofNat 32 b.row.reelCeiling }) b
  let ids : List (BitVec 128) := ((List.range 3).map fun i => ofBytes 128 (otpBytes (0x300 + 16 * i) 16 b)).filter (· != 0)
  setFab (fun f => { f with binding := ids }) b

/-- The supplies and the cause of the start (R427, R439). -/
def loadPower (a : StartIn) (b : Block) : Block :=
  let cause := b.pwr.nextStart.getD (if b.pwr.st = .off then 2 else 0)
  setPwr (fun p => { p with
    st := .active, entry := none, mainGood := a.mainGood, backupGood := a.backupGood, onBackup := !a.mainGood, lastStart := cause,
    offReady := false, wakeReq := false, coreOn := true, nextStart := none, loaded := true }) { b with awake := true }

/-- The values drawn at a start: N_start, the keys of memory and of placement, and the seed of the re-spin DRBG (R40, R59, R82, R122, R147,
R299). -/
def drawKeys (b : Block) : Block :=
  let (n, b) := draw 256 b
  let (kt, b) := draw 256 b
  let (kc, b) := draw 256 b
  let (kb, b) := draw 64 b
  let (hk, b) := draw 64 b
  let b := (List.range 16).foldl (fun b z =>
    let (t, b) := draw 64 b
    let (m, b) := draw 64 b
    setMem (fun x => { x with tk := amSet z t x.tk, mkKeys := amSet z m x.mkKeys }) b) b
  let (seed, b) := draw 256 b
  let b := setWh (fun w => { w with hashKey := hk, drbg := seed, drbgNext := 0 }) b
  setMem (fun x => { x with ktree := kt, kbKey := kc, kb := kb }) { b with nStart := n }

/-- Root, identity and firmware of a start that serves or waits for firmware (R296 to R300, R340, R359). -/
def startKeys (root : Key) (b : Block) : Block :=
  let c0 := kdf (keyBytes root) "frexis cdi0" (toBytes 48 Config.romDigest)
  let b := setDistaff (fun d => { d with cdi0 := some c0 }) b
  let b := setRegs (fun r => { r with deviceId := deviceIdOf b, serial := serialOf b }) b
  if lcDead b then raiseViews { cls := 5 } (setDistaff (fun d => { d with cdi0 := none }) b)
  else
    let b := drawKeys (banksAtStart { b with root := some root })
    if b.dst.bankA.st = 4 || b.dst.bankB.st = 4 then deriveCdi1 b else raiseViews { cls := 5 } (setDst 8 true b)

/-- A start takes place: the block is not in scan, does not serve, and has a supply. -/
def startsNow (a : StartIn) (b : Block) : Bool :=
  !b.dst.scan && !(b.dst.started && b.pwr.st != .off) && (a.mainGood || a.backupGood)

/-- The start up to the root: OTP, straps, supplies, the life-cycle state and the attempts that regeneration took. -/
def startLoads (a : StartIn) (attempts : Nat) (b : Block) : Block :=
  let b := loadPower a (loadFields a (readOtp a b))
  let p := lcPosition b
  setRegs (fun r => { r with
    lockState := lockWord p.st b, lcsState := lcsWord p b, dstStatus := setBits r.dstStatus 5 2 attempts }) b

/-- TRNG health, the root, identity and firmware, as DST_STATUS then says (R297, R300, R303). -/
def startSecrets (a : StartIn) (root : Option Key) (b : Block) : Block :=
  if 3 ≤ a.trngFails then raiseViews { cls := 5 } (setDst 6 true b)
  else match root with
    | none => raiseViews { cls := 5 } (setDst 0 true (setDst 1 true b))
    | some k => setDst 0 true (startKeys k b)

/-- The rest of the start: failed whorls, a transition that the log shows pending, the counters of time, and its records. -/
def startEnds (a : StartIn) (b : Block) : Block :=
  let p := lcPosition b
  let b := setRegs (fun r => { r with lcsState := lcsWord p b }) b
  let b := retireWhorls ((a.badWhorls.map (·.toNat)).filter fun w => decide (w < b.row.whorls)) b
  let b := setDistaff (fun d => { d with
    started := true, carderAt := some b.tick, lc := p.pend.map fun x => { target := x.1, slot := x.2, reply := none } }) b
  let b := setTim (fun t => { t with strobeFrom := b.tick }) { b with fwKick := b.tick }
  let b := setTel (fun t => { t with lastSnap := b.tick, dumpErase := if t.dumpSlots = [] then none else some (b.tick + 1000000) }) b
  let b := setSrv (fun v => { v with trng := { reseedDraws := b.draws, reseedTick := b.tick } }) b
  let b := fedStatusSync (setRegs (fun r => { r with fedStatus := setBits r.fedStatus 0 0 (b2n (r.pkgDies = 1)) }) b)
  raiseHeld (spoolFree 1 4 ownBlock p.st b.pwr.lastStart (spoolFree 1 2 ownBlock 64 b.pwr.lastStart b))

/-- START: untriggered while the block serves, in scan, or with no supply. T counts from 0 (R442). -/
def doStart (a : StartIn) (b : Block) : Block :=
  if !startsNow a b then b
  else
    let b := setTim (fun t => { t with t := 0 }) (if b.pwr.st = .off then clearVolatile b else b)
    let tries := regenerate 8 a.races (readOtp a b)
    startEnds a (startSecrets a tries.2 (startLoads a tries.1 b))

/-! ### The block reset edge (R408, R471) -/

/-- Unit instances that hold work, as UNIT of R456 and the entries each holds. -/
def stalls (b : Block) : List (Nat × Nat) :=
  let count (code : Nat) (is : List Nat) : List (Nat × Nat) := (is.eraseDups.mergeSort (fun x y => decide (x ≤ y))).map fun i =>
    (unitCode code i, (is.filter (· == i)).length)
  let one (code n : Nat) : List (Nat × Nat) := if n = 0 then [] else [(unitCode code 0, n)]
  let ports := b.mem.txns.filterMap fun t => match t.src with | .warp p _ => some p | .peer _ _ => none
  count 1 ports ++ count 2 (b.mem.reads.map (fun r => physLane r.key / 16) ++ b.mem.writes.map fun w => physLane w.key / 16) ++
    count 3 (b.wh.running.map (·.whorl)) ++ b.wh.queues.map (fun q => (unitCode 4 q.1, q.2.length)) ++
    one 8 (b.mem.reel.pass.length + b.mem.reel.queue.length) ++
    count 9 ((b.mem.txns.filter fun t => t.kind == .ply).map fun t => stackOf t.line b) ++
    count 0x0A ((b.mem.abs.filter (·.dirty)).map fun e => stackOf e.line b) ++
    one 0x0C (b.fab.out.filter fun r => r.die.isNone).length ++ one 0x0F (b.fab.out.filter fun r => r.die.isSome).length ++
    one 0x10 (b.srv.seals.filter fun s => s.st != .armed).length ++ one 0x11 b.srv.aead.length ++ one 0x12 b.descs.length ++
    one 0x14 (b2n b.dst.carder)

/-- The stall records; their stream, and when a unit last acknowledged, are free values. -/
def stallRecs (b : Block) : List SpoolRec := (stalls b).map fun u =>
  let free := Config.spoolData 15 u.1 b.tick
  mkRec 6 (freeStream 6) ownBlock (putAt 128 0 4 u.1 ||| putAt 128 4 1 (b2n (decide (u.1 / 65536 = b.dst.stalled))) ||| putAt 128 6 2 u.2 |||
    putAt 128 8 8 (fieldAt free 8 8)) b

/-- The descriptor records. -/
def descRecs (b : Block) : List SpoolRec := b.descs.map fun x =>
  let v := if dSig x.raw then (getFence (ringOwner x.ring) (dSigFence x.raw) b).value.toNat else 0
  mkRec 7 (freeStream 7) (ownerOf (ringOwner x.ring)) (putAt 128 0 2 x.index.toNat ||| putAt 128 2 1 (dOpcode x.raw) ||| putAt 128 8 8 v) b

/-- The hang dump: the window closes as a trigger of SOURCE 4, with its records, and the dump slots are filled (R471). The skeins are gone after it, so their records belong to those slots alone. -/
def takeDump (b : Block) : Block :=
  let recs := (stallRecs b ++ descRecs b).reverse
  let b := setWindow (fun w => { w with dump := true, post := recs ++ w.post }) (closeWindowNow (spoolTrigger 4 b))
  let slots : List DumpSlot := b.skeins.filterMap fun e => if e.2.st = .swapped then none else
    (amGet 0 e.2.tkeys).map fun t => { skein := 1024 + e.1, key := t.key, rInst := t.rInst, exportN := t.exportN }
  b.skeins.foldl (fun b e => disown e.1 b) (setTel (fun t => { t with dumpSlots := slots }) b)

/-- Requests outstanding on the warp ports are answered ABORTED (R408). -/
def abortPorts (b : Block) : Block :=
  let local' := b.mem.txns.filterMap fun t => match t.src with | .warp p g => if t.respond then some (p, g) else none | .peer _ _ => none
  let remote := b.fab.out.filterMap fun r => if r.respond then r.src else none
  (local' ++ remote).foldl (fun b e => emit (.rsp e.1 e.2 cAborted true 0) b) b

/-- TDIs that were bound, in ERROR: none of their skeins is defined any more (R249, R408). -/
def failTdis (b : Block) : List (Nat × TdiRec) :=
  let all := (b.skeins.filter fun e => e.2.tdi.st != .unlocked).foldl (fun m e => amSet e.1 e.2.tdi m) b.host.tdis
  all.map fun e => (e.1, { e.2 with st := .error })

/-- The reset: its dump and record are kept, requests outstanding are answered, and the datapath starts again empty (R408, R471). -/
def resetBlock (cause : Nat) (b : Block) : Block :=
  let b := abortPorts (takeDump b)
  let slots := (b.skeins.filterMap fun e => e.2.slot).foldl (fun m s => m ||| 2 ^ s) 0
  let b := (faultRecord { kind := 9, action := 10, unit := cause, slots := slots } b).2
  let tdis := failTdis b
  let spool := b.tel.spool
  let b := setTel (fun t => { t with spool := spool }) (clearVolatile b)
  setPwr (fun p => { p with st := .active, nextStart := some 1 }) (setHost (fun h => { h with tdis := tdis }) b)

/-- BLOCK_RESET_EDGE: a reset that is due. -/
def doResetEdge (b : Block) : Block := match b.dst.resetDue with
  | none => b
  | some (at', cause) =>
    if b.tick < at' || !b.dst.started || b.pwr.st = .off then b else resetBlock cause b

def execStart (a : StartIn) (s : State) : Out := onSettled (doStart a) s
def execBlockResetEdge (s : State) : Out := onBlock doResetEdge s

end Sys2Proof.Machine
end

