-- ==== Sys2Proof/Machine/Debug.lean ====
section
/-! DEFINITION. The JTAG TAP's instructions and scan (R496, R497, R507). Choices marked in the log: DEDUCED 113, 114; DESIGN
CHOICE 115. -/

namespace Sys2Proof.Machine

/-- IDCODE: minor revision, part code, the integrator's JEDEC code, 1 (R496, R507). -/
def idcode : BitVec 32 := BitVec.ofNat 32 (4 * 2 ^ 28 + 0x6F2A * 2 ^ 12 + Config.jedec.toNat * 2 + 1)

def doIdcode (b : Block) : Block := emit (.jtag (toBytes 4 idcode)) b

/-- BYPASS, also selected by an instruction that is not available: its one bit is captured as 0. -/
def doBypass (b : Block) : Block := emit (.jtag [0]) b

/-- DBG_FW: available while FW_DEBUG_OPEN, unless LCS_GATE closes it; the watchdog counts from a resume (R516). -/
def doDbgFw (op : DbgOp) (b : Block) : Block :=
  if !b.regs.lockState.getLsbD 7 || b.regs.lcsGate.getLsbD 1 || closed b then doBypass b
  else match op with
    | .halt => emit (.jtag []) { b with fwHalted := true }
    | .resume => emit (.jtag []) (if b.fwHalted then { b with fwHalted := false, fwKick := b.tick } else b)
    | .step => emit (.jtag []) { b with choices := b.choices + 1 }
    | .read a => emit (.jtag (toBytes 8 (Config.fwDebug b.choices a))) { b with choices := b.choices + 1 }

/-- What DBG_READ returns: the counters are JTAG's to read while telemetry is open (R449, R450). -/
def dbgBytes (what : DbgRead) (b : Block) : Bytes :=
  let bs : Bytes := match what with
    | .health => healthSection b
    | .global => globalSection b
    | .monitors => monitorSection b
    | .spool =>
      let w := (b.tel.spool.window.map Window.records).getD []
      (b.tel.spool.hist.reverse ++ w).flatMap SpoolRec.bytes
    | .image => b.tel.spool.image
    | .window s => match slotSkein s.toNat b with
      | some (n, _) => (List.range 64).flatMap fun i => toBytes 64 (counterLine n (64 * i) b)
      | none => zeroBytes 4096
  if telemetryOpen b then bs else zeroBytes bs.length

/-- DBG_READ: available while JTAG_OPEN, unless LCS_GATE closes it. -/
def doDbgRead (what : DbgRead) (b : Block) : Block :=
  if !b.regs.lockState.getLsbD 4 || b.regs.lcsGate.getLsbD 0 || closed b then doBypass b else emit (.jtag (dbgBytes what b)) b

/-- SCAN_ENTRY: while SCAN_OPEN and not closed, every key slot, the root, CDI0 and the DRBG state are zeroed, and no flop keeps its
value through the shifts; `bist`: memory self-test runs over the retention SRAM, which erases banks and packs (R497). -/
def doScanEntry (bist : Bool) (b : Block) : Block :=
  if !b.regs.lockState.getLsbD 5 || b.regs.lcsGate.getLsbD 2 || closed b || b.dst.scan then b
  else
    let b := clearVolatile b
    setDistaff (fun d => if bist then { d with scan := true, bankA := {}, bankB := {}, packs := [] } else { d with scan := true })
      (setTel (fun t => { t with dumpSlots := [] }) b)

/-- SCAN_EXIT: a start follows. -/
def doScanExit (b : Block) : Block :=
  if !b.dst.scan then b else setPwr (fun p => { p with nextStart := some 1 }) (setDistaff (fun d => { d with scan := false }) b)

def execIdcode (s : State) : Out := onBlock doIdcode s
def execBypass (s : State) : Out := onBlock doBypass s
def execDbgFw (op : DbgOp) (s : State) : Out := onBlock (doDbgFw op) s
def execDbgRead (what : DbgRead) (s : State) : Out := onBlock (doDbgRead what) s
def execScanEntry (bist : Bool) (s : State) : Out := onBlock (doScanEntry bist) s
def execScanExit (s : State) : Out := onBlock doScanExit s

end Sys2Proof.Machine
end

