-- ==== Sys2Proof/Machine/Dispatch.lean ====
section
/-! DEFINITION. The dispatch: one arm per command. -/

namespace Sys2Proof.Machine

def exec (i : Instr) (s : State) : Host.Outcome State Fault Refusal :=
  match i with
  | .start a => Sys2Proof.Machine.execStart a s
  | .blockResetEdge => Sys2Proof.Machine.execBlockResetEdge s
  | .unitHang unit => Sys2Proof.Machine.execUnitHang unit s
  | .vaoMainLost => Sys2Proof.Machine.execVaoMainLost s
  | .vaoMainRestored => Sys2Proof.Machine.execVaoMainRestored s
  | .coreSupplyLoss => Sys2Proof.Machine.execCoreSupplyLoss s
  | .distaffBrownOut kept => Sys2Proof.Machine.execDistaffBrownOut kept s
  | .requestRest q evs => Sys2Proof.Machine.execRequestRest q evs s
  | .requestOff q evs => Sys2Proof.Machine.execRequestOff q evs s
  | .wake src => Sys2Proof.Machine.execWake src s
  | .tickLost => Sys2Proof.Machine.execTickLost s
  | .tickRegained => Sys2Proof.Machine.execTickRegained s
  | .ppsEdge bus => Sys2Proof.Machine.execPpsEdge bus s
  | .todBusLost => Sys2Proof.Machine.execTodBusLost s
  | .ppsLost => Sys2Proof.Machine.execPpsLost s
  | .slotStrobe => Sys2Proof.Machine.execSlotStrobe s
  | .strobeMissing => Sys2Proof.Machine.execStrobeMissing s
  | .alarm => Sys2Proof.Machine.execAlarm s
  | .ringEnable q => Sys2Proof.Machine.execRingEnable q s
  | .fwLoad q image => Sys2Proof.Machine.execFwLoad q image s
  | .timAlarmWrite q => Sys2Proof.Machine.execTimAlarmWrite q s
  | .timStrobeWrite q => Sys2Proof.Machine.execTimStrobeWrite q s
  | .lcsGateWrite q => Sys2Proof.Machine.execLcsGateWrite q s
  | .latchedHalfRead q => Sys2Proof.Machine.execLatchedHalfRead q s
  | .registerWrite q => Sys2Proof.Machine.execRegisterWrite q s
  | .sqTail q => Sys2Proof.Machine.execSqTail q s
  | .cqHead q => Sys2Proof.Machine.execCqHead q s
  | .attnAck q => Sys2Proof.Machine.execAttnAck q s
  | .warpRead q evs => Sys2Proof.Machine.execWarpRead q evs s
  | .warpWrite q evs => Sys2Proof.Machine.execWarpWrite q evs s
  | .memoryReadReturn lane mtag data ue ce evs => Sys2Proof.Machine.execMemoryReadReturn lane mtag data ue ce evs s
  | .memoryWriteAccept lane => Sys2Proof.Machine.execMemoryWriteAccept lane s
  | .plyAdd q evs => Sys2Proof.Machine.execPlyAdd q evs s
  | .plyMin q evs => Sys2Proof.Machine.execPlyMin q evs s
  | .plyMax q evs => Sys2Proof.Machine.execPlyMax q evs s
  | .plyAnd q evs => Sys2Proof.Machine.execPlyAnd q evs s
  | .plyOr q evs => Sys2Proof.Machine.execPlyOr q evs s
  | .plyXor q evs => Sys2Proof.Machine.execPlyXor q evs s
  | .plySwap q evs => Sys2Proof.Machine.execPlySwap q evs s
  | .plyCas q evs => Sys2Proof.Machine.execPlyCas q evs s
  | .absorberWindowClose line evs => Sys2Proof.Machine.execAbsorberWindowClose line evs s
  | .windowHankAlloc q => Sys2Proof.Machine.execWindowHankAlloc q s
  | .windowHankFree q => Sys2Proof.Machine.execWindowHankFree q s
  | .windowHankRef q => Sys2Proof.Machine.execWindowHankRef q s
  | .bucketSelectorWrite q => Sys2Proof.Machine.execBucketSelectorWrite q s
  | .nop r d => Sys2Proof.Machine.execNop r d s
  | .fenceSignal r d => Sys2Proof.Machine.execFenceSignal r d s
  | .fenceReset r d => Sys2Proof.Machine.execFenceReset r d s
  | .fenceGrant r d => Sys2Proof.Machine.execFenceGrant r d s
  | .fenceWait r d => Sys2Proof.Machine.execFenceWait r d s
  | .fenceWaitTimeout r index => Sys2Proof.Machine.execFenceWaitTimeout r index s
  | .hankAlloc r d => Sys2Proof.Machine.execHankAlloc r d s
  | .hankFree r d => Sys2Proof.Machine.execHankFree r d s
  | .hankRevoke r d => Sys2Proof.Machine.execHankRevoke r d s
  | .hankRef r d => Sys2Proof.Machine.execHankRef r d s
  | .mailboxName r d => Sys2Proof.Machine.execMailboxName r d s
  | .mailboxRelease r d => Sys2Proof.Machine.execMailboxRelease r d s
  | .importMsg r d msg evs => Sys2Proof.Machine.execImportMsg r d msg evs s
  | .exportMsg r d evs => Sys2Proof.Machine.execExportMsg r d evs s
  | .digest r d evs => Sys2Proof.Machine.execDigest r d evs s
  | .sealArm r d => Sys2Proof.Machine.execSealArm r d s
  | .sealFire r d => Sys2Proof.Machine.execSealFire r d s
  | .sealFireTime skein base scratch serr evs => Sys2Proof.Machine.execSealFireTime skein base scratch serr evs s
  | .sealOutEnd skein base evs => Sys2Proof.Machine.execSealOutEnd skein base evs s
  | .sealIn r d serr evs => Sys2Proof.Machine.execSealIn r d serr evs s
  | .keyInstall r d blob => Sys2Proof.Machine.execKeyInstall r d blob s
  | .keyRotate r d blob => Sys2Proof.Machine.execKeyRotate r d blob s
  | .descriptorAdvance r d => Sys2Proof.Machine.execDescriptorAdvance r d s
  | .epochAdvance region => Sys2Proof.Machine.execEpochAdvance region s
  | .keyRetire r d => Sys2Proof.Machine.execKeyRetire r d s
  | .transferKeyRetire r d => Sys2Proof.Machine.execTransferKeyRetire r d s
  | .evidence r d => Sys2Proof.Machine.execEvidence r d s
  | .plyCheck r d evs => Sys2Proof.Machine.execPlyCheck r d evs s
  | .standingCheckEnd r d => Sys2Proof.Machine.execStandingCheckEnd r d s
  | .standingCheckRepeat skein base evs => Sys2Proof.Machine.execStandingCheckRepeat skein base evs s
  | .traceMark r d => Sys2Proof.Machine.execTraceMark r d s
  | .skeinCreate r d => Sys2Proof.Machine.execSkeinCreate r d s
  | .skeinQuiesce r d evs => Sys2Proof.Machine.execSkeinQuiesce r d evs s
  | .skeinResume r d evs => Sys2Proof.Machine.execSkeinResume r d evs s
  | .skeinReset r d evs => Sys2Proof.Machine.execSkeinReset r d evs s
  | .skeinResetDone skein => Sys2Proof.Machine.execSkeinResetDone skein s
  | .quiesceLimitExpiry skein => Sys2Proof.Machine.execQuiesceLimitExpiry skein s
  | .drainComplete skein evs => Sys2Proof.Machine.execDrainComplete skein evs s
  | .skeinDestroy r d evs => Sys2Proof.Machine.execSkeinDestroy r d evs s
  | .drainLimitExpiry skein evs => Sys2Proof.Machine.execDrainLimitExpiry skein evs s
  | .skeinSwapOut r d evs => Sys2Proof.Machine.execSkeinSwapOut r d evs s
  | .skeinSwapIn r d evs => Sys2Proof.Machine.execSkeinSwapIn r d evs s
  | .shareSet r d => Sys2Proof.Machine.execShareSet r d s
  | .retwist r d => Sys2Proof.Machine.execRetwist r d s
  | .fieldTest r d => Sys2Proof.Machine.execFieldTest r d s
  | .keyLadderGrant evs => Sys2Proof.Machine.execKeyLadderGrant evs s
  | .reelPassStart => Sys2Proof.Machine.execReelPassStart s
  | .reelWindowTake evs => Sys2Proof.Machine.execReelWindowTake evs s
  | .reelWindowRelease evs => Sys2Proof.Machine.execReelWindowRelease evs s
  | .reelPassEnd => Sys2Proof.Machine.execReelPassEnd s
  | .hankZeroing evs => Sys2Proof.Machine.execHankZeroing evs s
  | .quarantineReinit evs => Sys2Proof.Machine.execQuarantineReinit evs s
  | .allBlockedRule evs => Sys2Proof.Machine.execAllBlockedRule evs s
  | .skewInterval occ => Sys2Proof.Machine.execSkewInterval occ s
  | .carderPassStart evs => Sys2Proof.Machine.execCarderPassStart evs s
  | .bitmapSweep => Sys2Proof.Machine.execBitmapSweep s
  | .eccSweep errs => Sys2Proof.Machine.execEccSweep errs s
  | .snapshot => Sys2Proof.Machine.execSnapshot s
  | .stealRequest spindle => Sys2Proof.Machine.execStealRequest spindle s
  | .respinCompare producer checker third rp rc rt => Sys2Proof.Machine.execRespinCompare producer checker third rp rc rt s
  | .suspectSweepEnd evs => Sys2Proof.Machine.execSuspectSweepEnd evs s
  | .whorlHang whorl => Sys2Proof.Machine.execWhorlHang whorl s
  | .whorlResetDone whorl pass => Sys2Proof.Machine.execWhorlResetDone whorl pass s
  | .whorlResetTimeout whorl => Sys2Proof.Machine.execWhorlResetTimeout whorl s
  | .spindleHang spindle => Sys2Proof.Machine.execSpindleHang spindle s
  | .spindleResetTimeout spindle => Sys2Proof.Machine.execSpindleResetTimeout spindle s
  | .firmwareWatchdogExpiry => Sys2Proof.Machine.execFirmwareWatchdogExpiry s
  | .trngHealthFail consecutive => Sys2Proof.Machine.execTrngHealthFail consecutive s
  | .trngRestart pass => Sys2Proof.Machine.execTrngRestart pass s
  | .drbgReseed => Sys2Proof.Machine.execDrbgReseed s
  | .weftRead port frame evs => Sys2Proof.Machine.execWeftRead port frame evs s
  | .weftWrite port frame evs => Sys2Proof.Machine.execWeftWrite port frame evs s
  | .weftPly port frame evs => Sys2Proof.Machine.execWeftPly port frame evs s
  | .weftMcast port frame evs => Sys2Proof.Machine.execWeftMcast port frame evs s
  | .weftCombined port frame evs => Sys2Proof.Machine.execWeftCombined port frame evs s
  | .weftMessage port frame evs => Sys2Proof.Machine.execWeftMessage port frame evs s
  | .weftResolve port frame evs => Sys2Proof.Machine.execWeftResolve port frame evs s
  | .weftCoherence port frame toDie => Sys2Proof.Machine.execWeftCoherence port frame toDie s
  | .weftReadResp port frame => Sys2Proof.Machine.execWeftReadResp port frame s
  | .weftWriteResp port frame => Sys2Proof.Machine.execWeftWriteResp port frame s
  | .weftPlyResp port origin frame => Sys2Proof.Machine.execWeftPlyResp port origin frame s
  | .weftOpen port fields => Sys2Proof.Machine.execWeftOpen port fields s
  | .weftAccept port session fields tag => Sys2Proof.Machine.execWeftAccept port session fields tag s
  | .weftClose port frame => Sys2Proof.Machine.execWeftClose port frame s
  | .weftGroupOpen port frame => Sys2Proof.Machine.execWeftGroupOpen port frame s
  | .requestTimeout req => Sys2Proof.Machine.execRequestTimeout req s
  | .plyResend req => Sys2Proof.Machine.execPlyResend req s
  | .resolveResend req => Sys2Proof.Machine.execResolveResend req s
  | .openTimeout session => Sys2Proof.Machine.execOpenTimeout session s
  | .sessionLoss session => Sys2Proof.Machine.execSessionLoss session s
  | .sessionIdle session => Sys2Proof.Machine.execSessionIdle session s
  | .secretClose session => Sys2Proof.Machine.execSecretClose session s
  | .linkDown port => Sys2Proof.Machine.execLinkDown port s
  | .linkUp port => Sys2Proof.Machine.execLinkUp port s
  | .federationPortLoss port => Sys2Proof.Machine.execFederationPortLoss port s
  | .federationBringup die device sigOk key rands skeinList binds => Sys2Proof.Machine.execFederationBringup die device sigOk key rands skeinList binds s
  | .followerAck index die => Sys2Proof.Machine.execFollowerAck index die s
  | .packageOpTimeout index evs => Sys2Proof.Machine.execPackageOpTimeout index evs s
  | .ideTlpReceive port stream sub kbit hdr data mac orderOk pcrcOk => Sys2Proof.Machine.execIdeTlpReceive port stream sub kbit hdr data mac orderOk pcrcOk s
  | .cfgAccess port func off read data be => Sys2Proof.Machine.execCfgAccess port func off read data be s
  | .functionLevelReset port func => Sys2Proof.Machine.execFunctionLevelReset port func s
  | .barReprogrammed port func => Sys2Proof.Machine.execBarReprogrammed port func s
  | .hostLinkDown port => Sys2Proof.Machine.execHostLinkDown port s
  | .hostLinkUp port flit => Sys2Proof.Machine.execHostLinkUp port flit s
  | .keyProg path sess stream sub tx kset key ifv => Sys2Proof.Machine.execKeyProg path sess stream sub tx kset key ifv s
  | .query path sess => Sys2Proof.Machine.execQuery path sess s
  | .kSetGo path sess stream sub tx kset => Sys2Proof.Machine.execKSetGo path sess stream sub tx kset s
  | .kSetStop path sess stream sub tx kset => Sys2Proof.Machine.execKSetStop path sess stream sub tx kset s
  | .getTdispVersion path sess msg => Sys2Proof.Machine.execGetTdispVersion path sess msg s
  | .getTdispCapabilities path sess func => Sys2Proof.Machine.execGetTdispCapabilities path sess func s
  | .lockInterfaceRequest path sess func stream mmio flags => Sys2Proof.Machine.execLockInterfaceRequest path sess func stream mmio flags s
  | .getDeviceInterfaceReport path sess func off len => Sys2Proof.Machine.execGetDeviceInterfaceReport path sess func off len s
  | .getDeviceInterfaceState path sess func => Sys2Proof.Machine.execGetDeviceInterfaceState path sess func s
  | .startInterfaceRequest path sess func nonce => Sys2Proof.Machine.execStartInterfaceRequest path sess func nonce s
  | .stopInterfaceRequest path sess func => Sys2Proof.Machine.execStopInterfaceRequest path sess func s
  | .setEndpointId path op eid => Sys2Proof.Machine.execSetEndpointId path op eid s
  | .getEndpointId path => Sys2Proof.Machine.execGetEndpointId path s
  | .getMctpVersionSupport path type => Sys2Proof.Machine.execGetMctpVersionSupport path type s
  | .getMessageTypeSupport msg => Sys2Proof.Machine.execGetMessageTypeSupport msg s
  | .entdaa da => Sys2Proof.Machine.execEntdaa da s
  | .setdasa sa da => Sys2Proof.Machine.execSetdasa sa da s
  | .rstdaa => Sys2Proof.Machine.execRstdaa s
  | .enec dest ev => Sys2Proof.Machine.execEnec dest ev s
  | .disec dest ev => Sys2Proof.Machine.execDisec dest ev s
  | .getpid dest => Sys2Proof.Machine.execGetpid dest s
  | .getbcr dest => Sys2Proof.Machine.execGetbcr dest s
  | .getdcr dest => Sys2Proof.Machine.execGetdcr dest s
  | .getstatus dest => Sys2Proof.Machine.execGetstatus dest s
  | .setmwl dest len => Sys2Proof.Machine.execSetmwl dest len s
  | .getmwl dest => Sys2Proof.Machine.execGetmwl dest s
  | .setmrl dest len ibi => Sys2Proof.Machine.execSetmrl dest len ibi s
  | .getmrl dest => Sys2Proof.Machine.execGetmrl dest s
  | .getVersion path sess msg => Sys2Proof.Machine.execGetVersion path sess msg s
  | .getCapabilities path sess msg => Sys2Proof.Machine.execGetCapabilities path sess msg s
  | .negotiateAlgorithms path sess msg => Sys2Proof.Machine.execNegotiateAlgorithms path sess msg s
  | .getDigests path sess msg => Sys2Proof.Machine.execGetDigests path sess msg s
  | .getCertificate path sess msg => Sys2Proof.Machine.execGetCertificate path sess msg s
  | .challenge path sess msg => Sys2Proof.Machine.execChallenge path sess msg s
  | .getMeasurements path sess msg => Sys2Proof.Machine.execGetMeasurements path sess msg s
  | .keyExchange path sess msg => Sys2Proof.Machine.execKeyExchange path sess msg s
  | .finish path sess msg => Sys2Proof.Machine.execFinish path sess msg s
  | .endSession path sess msg => Sys2Proof.Machine.execEndSession path sess msg s
  | .getEncapsulatedRequest path sess msg => Sys2Proof.Machine.execGetEncapsulatedRequest path sess msg s
  | .deliverEncapsulatedResponse path sess msg => Sys2Proof.Machine.execDeliverEncapsulatedResponse path sess msg s
  | .pqStart path sess msg => Sys2Proof.Machine.execPqStart path sess msg s
  | .pqFinish path sess msg => Sys2Proof.Machine.execPqFinish path sess msg s
  | .tpkPendingExpiry skein => Sys2Proof.Machine.execTpkPendingExpiry skein s
  | .pqSign path sess msg => Sys2Proof.Machine.execPqSign path sess msg s
  | .pqChain path sess msg => Sys2Proof.Machine.execPqChain path sess msg s
  | .skeinEvidence path sess msg => Sys2Proof.Machine.execSkeinEvidence path sess msg s
  | .skeinEvidencePart path sess msg => Sys2Proof.Machine.execSkeinEvidencePart path sess msg s
  | .fwBegin path sess msg => Sys2Proof.Machine.execFwBegin path sess msg s
  | .fwWrite path sess msg => Sys2Proof.Machine.execFwWrite path sess msg s
  | .fwStage path sess msg => Sys2Proof.Machine.execFwStage path sess msg s
  | .fwActivate path sess msg => Sys2Proof.Machine.execFwActivate path sess msg s
  | .fwActivationRun selfTest => Sys2Proof.Machine.execFwActivationRun selfTest s
  | .fwConfirm path sess msg fail => Sys2Proof.Machine.execFwConfirm path sess msg fail s
  | .fwStatus path sess msg => Sys2Proof.Machine.execFwStatus path sess msg s
  | .lcTransition path sess msg took evs => Sys2Proof.Machine.execLcTransition path sess msg took evs s
  | .lcStateBurn slotsZero took => Sys2Proof.Machine.execLcStateBurn slotsZero took s
  | .lcStatus path sess msg => Sys2Proof.Machine.execLcStatus path sess msg s
  | .operatorBind path sess msg took => Sys2Proof.Machine.execOperatorBind path sess msg took s
  | .slotKeyInstall path sess msg => Sys2Proof.Machine.execSlotKeyInstall path sess msg s
  | .slotKeyRotate path sess msg => Sys2Proof.Machine.execSlotKeyRotate path sess msg s
  | .slotKeyRetire path sess msg => Sys2Proof.Machine.execSlotKeyRetire path sess msg s
  | .slotSecretSet path sess msg => Sys2Proof.Machine.execSlotSecretSet path sess msg s
  | .slotMembers path sess msg => Sys2Proof.Machine.execSlotMembers path sess msg s
  | .streamSet path sess msg => Sys2Proof.Machine.execStreamSet path sess msg s
  | .saInstall path sess msg => Sys2Proof.Machine.execSaInstall path sess msg s
  | .saRetire path sess msg => Sys2Proof.Machine.execSaRetire path sess msg s
  | .streamStatus path sess msg => Sys2Proof.Machine.execStreamStatus path sess msg s
  | .fronthaulTransmit stream frame room err => Sys2Proof.Machine.execFronthaulTransmit stream frame room err s
  | .fronthaulReceive stream frame room err => Sys2Proof.Machine.execFronthaulReceive stream frame room err s
  | .packWrite path sess msg => Sys2Proof.Machine.execPackWrite path sess msg s
  | .packCommit path sess msg => Sys2Proof.Machine.execPackCommit path sess msg s
  | .packDrop path sess msg => Sys2Proof.Machine.execPackDrop path sess msg s
  | .ftRun path sess msg => Sys2Proof.Machine.execFtRun path sess msg s
  | .faultRead path sess msg => Sys2Proof.Machine.execFaultRead path sess msg s
  | .faultList path sess msg evs => Sys2Proof.Machine.execFaultList path sess msg evs s
  | .laneSet path sess msg => Sys2Proof.Machine.execLaneSet path sess msg s
  | .blockReset path sess msg => Sys2Proof.Machine.execBlockReset path sess msg s
  | .policySet path sess msg => Sys2Proof.Machine.execPolicySet path sess msg s
  | .counterRead path sess msg => Sys2Proof.Machine.execCounterRead path sess msg s
  | .monitorSet path sess msg => Sys2Proof.Machine.execMonitorSet path sess msg s
  | .monitorRead path sess msg => Sys2Proof.Machine.execMonitorRead path sess msg s
  | .spoolTrigger path sess msg => Sys2Proof.Machine.execSpoolTrigger path sess msg s
  | .spoolWindowClose => Sys2Proof.Machine.execSpoolWindowClose s
  | .spoolImageWrite => Sys2Proof.Machine.execSpoolImageWrite s
  | .hangDumpWrite => Sys2Proof.Machine.execHangDumpWrite s
  | .dumpSlotErase => Sys2Proof.Machine.execDumpSlotErase s
  | .idcode => Sys2Proof.Machine.execIdcode s
  | .bypass => Sys2Proof.Machine.execBypass s
  | .lcMailbox msg took fail evs => Sys2Proof.Machine.execLcMailbox msg took fail evs s
  | .dbgFw op => Sys2Proof.Machine.execDbgFw op s
  | .dbgRead what => Sys2Proof.Machine.execDbgRead what s
  | .scanEntry bist => Sys2Proof.Machine.execScanEntry bist s
  | .scanExit => Sys2Proof.Machine.execScanExit s
  | .vaoBackupLost => Sys2Proof.Machine.execVaoBackupLost s
  | .todBusSampleLock bus => Sys2Proof.Machine.execTodBusSampleLock bus s
  | .aeadMessageEnd ring index => Sys2Proof.Machine.execAeadMessageEnd ring index s
  | .fieldTestEnd failed vectors evs => Sys2Proof.Machine.execFieldTestEnd failed vectors evs s
  | .spindleResetDone spindle => Sys2Proof.Machine.execSpindleResetDone spindle s
  | .controllerRestartDone => Sys2Proof.Machine.execControllerRestartDone s
  | .controllerRestartTimeout => Sys2Proof.Machine.execControllerRestartTimeout s
  | .skeinResetTimeout skein evs => Sys2Proof.Machine.execSkeinResetTimeout skein evs s
  | .spindleIsolationTimeout spindle => Sys2Proof.Machine.execSpindleIsolationTimeout spindle s

end Sys2Proof.Machine
end

