-- ==== Sys2Proof/Machine/Idle.lean ====
section
/-! DEFINITION. What the block does on its own when no command waits: work that was held and can now run, or one edge of the 1 MHz
tick (R8, R34, R303, R386, R436, R441). Choices marked in the log: DEDUCED 46, 52, 75, 91, 116; DESIGN CHOICE 3, 19, 45. -/

namespace Sys2Proof.Machine

/-- Start an accepted descriptor by its opcode (R370). -/
def startDesc (x : Desc) : Block → Block :=
  let op := dOpcode x.raw
  if op = 1 then startNop x else if op = 2 then startFenceOp x else if op = 3 then startFenceWait x
  else if op = 8 then startAlloc x else if op = 9 then resumeHank startHankFree x else if op = 10 then resumeHank startHankRef x
  else if op = 0x10 then startImport x else if op = 0x11 then startExport x else if op = 0x12 then startDigest x
  else if op = 0x18 then startSealOut x else if op = 0x19 then startSealIn x
  else if op = 0x20 then startKeyInstall x else if op = 0x21 then startKeyRotate x else if op = 0x22 then startKeyRetire x
  else if op = 0x28 then startEvidence x else if op = 0x30 then startPlyCheck x else if op = 0x38 then startMark x
  else if op = 0x40 then startCreate x else if op = 0x41 then startQuiesce x else if op = 0x42 then startDestroy x
  else if op = 0x43 then startSwapOut x else if op = 0x44 then startSwapIn x else if op = 0x48 then startShare x
  else if op = 0x50 then startRetwist x else if op = 0x58 then startFieldTest x else finish x cInvalid

/-- A descriptor that draws from the entropy source (R303). -/
def drawsEntropy (d : Line) : Bool := dOpcode d == 0x28 || (dOpcode d == 0x20 && kiKind d == 1)

/-- What a held descriptor starts on has no room: no message context is free (R57), or 64 changes wait for the Reel (R157). -/
def roomLacks (x : Desc) (b : Block) : Bool :=
  messageWaits x.ring x.raw b || (dOpcode x.raw == 0x21 && rotateWaits x.raw b) || (dOpcode x.raw == 0x50 && reelFull b)

/-- A held descriptor whose turn has come: nothing earlier holds it (R34, R386), what it needs is in service (R303, R344, R407), and what it
starts on has room. -/
def canRun (b : Block) (x : Desc) : Bool :=
  (x.phase == .ready || x.phase == .control) && !heldByControl x b && !(trngStopped b && drawsEntropy x.raw) &&
    !((b.fwRestart.isSome || b.regs.dstStatus.getLsbD 11) && needsFirmware x.raw) && !roomLacks x b

/-- Start a held descriptor. -/
def runDesc (x : Desc) (b : Block) : Block :=
  settle (startDesc { x with phase := .running } (setPhase x.id .running b))

/-- Where residency is counted: nanoseconds in ACTIVE, SLACK and REST (R433, R454). -/
def residencyAt (b : Block) : Option Nat := match b.pwr.st with
  | .active => some (if (stalls b).isEmpty then 88 else 80)
  | .rest => some 96
  | .off => none

/-- Spool one record of each spindle's queue depth every 1,000 ticks (stream 12 of R465). -/
def sampleDepths (b : Block) : Block :=
  if b.tick % 1000 != 0 || closed b then b
  else (List.range b.row.spindles).foldl (fun b sp => spoolFree 5 12 ownBlock sp (queueOf sp b).length b) b

/-- The work of a tick besides time itself: the whorls take their next units (R41), a replay's next skein begins (R400), the bulk AEAD
service (R55), a field test (R419) and the carder (R54) go on, the all-blocked rule's swaps (R286), and units that stand still are noted (R408). -/
def tickWork (b : Block) : Block :=
  noteUnits (ruleNext [] (settleSuspects (carderTick (testTick (aeadTick (nextReplay (onArray whorlTick b)))))))

/-- One edge of the tick, or of its substitute (R8, R441 to R443): time advances by 1,000 ns, an entry into a low-power state ends, the
key ladder is free again, an isolation ends, and the tick's work is done. -/
def tickEdge (b : Block) : Block :=
  let b := match residencyAt b with
    | some off => bumpHealth off 1000 b
    | none => b
  let b := { b with tick := b.tick + 1, tim := { b.tim with t := b.tim.t + 1000 } }
  let b := endEntry b
  if !b.awake then b
  else
    let b := { b with ladder := { b.ladder with owner := 0 } }
    let b := setWh (fun w => { w with isolating := w.isolating.filter fun u => decide (b.tick ≤ u.since + 50) }) b
    sampleDepths (tickWork b)

/-! ### Timeouts that are due (R8) -/

/-- Timeouts of the distaff, the whorls and units, of those due: a reset that is due, the whorl and spindle watchdogs and resets, the
controller's restart, and the hang of a unit. -/
def dueFault (b : Block) : Option (State → Out) :=
  let resets := match b.dst.resetDue with
    | some (t, _) => decide (t ≤ b.tick)
    | none => false
  let restart := match b.fwRestart with
    | some t => decide (t + 5000 ≤ b.tick) && b.dst.resetDue.isNone
    | none => false
  if resets then some execBlockResetEdge
  else if restart then some execControllerRestartTimeout
  else ((b.wh.running.find? fun r => whorlHung r.whorl b).map fun r => execWhorlHang (BitVec.ofNat 12 r.whorl)).orElse fun _ =>
    ((b.wh.resetWhorls.find? fun u => decide (u.since + 50 ≤ b.tick)).map fun u => execWhorlResetTimeout (BitVec.ofNat 12 u.index)).orElse fun _ =>
    ((b.wh.stillSince.find? fun e => spindleHung e.1 b).map fun e => execSpindleHang (BitVec.ofNat 6 e.1)).orElse fun _ =>
    ((b.wh.resetSpindles.find? fun u => decide (u.since + 50 ≤ b.tick)).map fun u => execSpindleResetTimeout (BitVec.ofNat 6 u.index)).orElse fun _ =>
    ((b.unitStuck.find? fun e => unitHung e.1 b && b.dst.resetDue.isNone).map fun e => execUnitHang (BitVec.ofNat 8 e.1))

/-- Limits of descriptors and skeins, of those due: a FENCE_WAIT's timeout, LIMIT, DRAIN_LIMIT, a reset's 100 ms, a package-wide operation's
timeout, and a pending TPK. -/
def dueSkein (b : Block) : Option (State → Out) :=
  let waits (x : Desc) : Bool := match x.phase with
    | .waiting _ _ _ _ (some dl) => decide (dl ≤ b.tick)
    | _ => false
  let limit (e : Nat × Skein) : Bool := e.2.drains.any (drainDue e.2.st b.tick) ||
    ((e.2.st == .resident || e.2.st == .quiescing) && b.descs.any (heldDue e.1 b))
  let drain (e : Nat × Skein) : Bool := e.2.st == .destroying && e.2.drains.any fun d => d.kind == .destroy && !d.late && decide (d.deadline ≤ b.tick)
  let reset (e : Nat × Skein) : Bool := e.2.st == .resetting && decide (e.2.resetSince + 100000 ≤ b.tick)
  let package (p : PkgOp) : Bool := p.since.any fun t => decide (t + p.limit ≤ b.tick)
  let skein (n : Nat) : BitVec 10 := BitVec.ofNat 10 n
  ((b.descs.find? waits).map fun x => execFenceWaitTimeout x.ring x.index).orElse fun _ =>
    ((b.skeins.find? limit).map fun e => execQuiesceLimitExpiry (skein e.1)).orElse fun _ =>
    ((b.skeins.find? drain).map fun e => execDrainLimitExpiry (skein e.1) []).orElse fun _ =>
    ((b.skeins.find? reset).map fun e => execSkeinResetTimeout (skein e.1) []).orElse fun _ =>
    ((b.fab.pkgOps.find? package).map fun p => execPackageOpTimeout p.index []).orElse fun _ =>
    ((b.srv.tpks.find? fun e => decide (e.2.since + 1000000 ≤ b.tick)).map fun e => execTpkPendingExpiry (skein e.1))

/-- Timeouts of links and of requests to peers, of those due. -/
def dueLink (b : Block) : Option (State → Out) :=
  let request (r : OutReq) : Bool := !r.timedOut && decide (r.since + r.limit ≤ b.tick) && r.src.isSome
  let opening (e : Nat × Session) : Bool := e.2.st == .opening && e.2.kind != 2 && decide (e.2.since + e.2.limit ≤ b.tick)
  let lost (e : Nat × Session) : Bool := e.2.st == .live && (argMin (·.since) (outOn e.1 b)).any fun r => decide (lossDue e.2.lastRx e.2.loss r ≤ b.tick)
  let idles (e : Nat × Session) : Bool := e.2.st == .live && e.2.kind != 2 && !sessBusy e.1 e.2 b && decide (e.2.lastFrame + 65536 ≤ b.tick)
  let closing (e : Nat × Session) : Bool := e.2.closeBy.any fun t => decide (t ≤ b.tick)
  let gone (e : Nat × FedPort) : Bool := e.2.isOpen && (argMin (·.since) (sentOn e.1 b)).any fun r => decide (lossDue e.2.lastRx e.2.loss r ≤ b.tick)
  let sess (e : Nat × Session) : BitVec 12 := BitVec.ofNat 12 e.1
  ((b.fab.out.find? request).map fun r => execRequestTimeout (BitVec.ofNat 64 r.id)).orElse fun _ =>
    ((b.fab.sessions.find? opening).map fun e => execOpenTimeout (sess e)).orElse fun _ =>
    ((b.fab.sessions.find? lost).map fun e => execSessionLoss (sess e)).orElse fun _ =>
    ((b.fab.sessions.find? idles).map fun e => execSessionIdle (sess e)).orElse fun _ =>
    ((b.fab.sessions.find? closing).map fun e => execSecretClose (sess e)).orElse fun _ =>
    ((b.fab.fed.find? gone).map fun e => execFederationPortLoss (BitVec.ofNat 8 e.1))

/-- Limits of time, memory and telemetry, of those due: PPS, the slot strobe, an absorber window, POST_MS, the dump slots and the DRBG's
reseed. -/
def dueTime (b : Block) : Option (State → Out) :=
  let expect := bitField b.regs.timStrobe 31 16
  let strobe := expect != 0 && !b.tim.strobeMissing && decide (b.tim.strobeFrom + 2 * expect ≤ b.tick)
  let post := b.tel.spool.window.any fun w => !w.closed && w.limit != 0 && decide (w.since + w.limit ≤ b.tick)
  if b.tim.quality = 3 && qualityNow b == 2 then some execPpsLost
  else if strobe then some execStrobeMissing
  else if post then some execSpoolWindowClose
  else if b.tel.dumpErase.any fun t => decide (t ≤ b.tick) then some execDumpSlotErase
  else if !trngStopped b && (decide (b.srv.trng.reseedTick + 100000 ≤ b.tick) || decide (b.srv.trng.reseedDraws + 65536 ≤ b.draws)) then some execDrbgReseed
  else (b.mem.abs.find? fun e => !e.spilled && e.closeAt.any fun t => decide (t ≤ b.tick)).map fun e => execAbsorberWindowClose (BitVec.ofNat 52 e.line) []

/-- The first timeout that was due a tick ago: it has had its N + 1 edges, and expires now where its command has not come (R8). -/
def overdue (b : Block) : Option (State → Out) :=
  if closed b then none
  else
    let b := { b with tick := b.tick - 1 }
    (dueFault b).orElse fun _ => (dueSkein b).orElse fun _ => (dueLink b).orElse fun _ => dueTime b

/-- One idle step of everything but the queue: a held access wakes the block, else a held descriptor runs, else the waiting window
cells are tried and the tick advances. -/
def idleBlock (b : Block) : Block :=
  if !b.pwr.heldAcc.isEmpty && (b.pwr.entry.isSome || b.pwr.st == .rest) then settle (wakeHeld b)
  else if !inService b then tickEdge b
  else match b.descs.find? (canRun b) with
    | some x => runDesc x b
    | none => tickEdge (settle (retryCells b))

/-- The outcome of a held management command tried with the rest of the held list, where it does not hold itself again (R34, R303). -/
def serveAt (i : Nat) (s : State) : Option Out := match s.blk.held[i]? with
  | none => none
  | some c =>
    let rest := s.blk.held.eraseIdx i
    match exec c.cmd { s with blk := { s.blk with held := rest, serving := some c.stamp } } with
    | .next t => if t.blk.held.length ≤ rest.length then some (.next { t with blk := { t.blk with serving := none } }) else none
    | _ => none

/-- One idle step: the first held management command that can be served, else a timeout that is overdue, else the block's own work. -/
def idle (s : State) : Out :=
  match (if closed s.blk then none else (List.range s.blk.held.length).findSome? fun i => serveAt i s) with
  | some o => o
  | none => match overdue s.blk with
    | some run => run s
    | none => onBlock idleBlock s

end Sys2Proof.Machine
end

