-- ==== Sys2Proof/Machine/Step.lean ====
section
/-! DEFINITION. The step: the command at the front of the queue, or what the block does on its own. Choices marked in the log:
DESIGN CHOICE 1, 2. -/

namespace Sys2Proof.Machine

/-- One step: the first waiting command takes its effect with the rest of the queue left in place; with none waiting the
block does its own work (Machine/Idle.lean). -/
def step (s : State) : Host.Outcome State Fault Refusal :=
  match s.pending with
  | [] => idle s
  | c :: cs => exec c { s with pending := cs }

/-- The command a word spells, put in front of the queue; the opcode table spells none (no row has bits). -/
def State.withFetchWord (s : State) (nbits w : Nat) : State :=
  match decodeTableWord nbits w with
  | some c => { s with pending := c :: s.pending }
  | none => s

end Sys2Proof.Machine
end

