-- ==== Sys2Proof/WellFormed.lean ====
section
/-! DEFINITION. Well-formed commands: every operand lies in the range that its port, ring or table gives it. The meanings do not
rest on it (each is total); it says which commands the surroundings can send. Choices marked in the log: DESIGN CHOICE 5, 20. -/

namespace Sys2Proof

/-- Defined skeins are numbered 0 to 1,023 (R266). -/
def Ring.wf : Ring → Bool
  | .mgr => true
  | .skein n => decide (n < 1024)

/-- A wake source names a defined skein's doorbell page or the manager's (R364, R436). -/
def WakeSource.wf : WakeSource → Bool
  | .doorbell (some n) => decide (n < 1024)
  | _ => true

/-- Physical places are 256 lanes of 2^26 lines; a command names each place, and each entry of the cache or absorber, at most once. -/
def MemEvs.wf (evs : MemEvs) : Bool :=
  (evs.all fun e => e.place != .stack || decide (e.key < 2 ^ 34)) && decide ((evs.map fun e => (e.key, e.place)).Nodup)

/-- A warp port has one of 16 numbers (R477). Any request address may arrive: that of an atomic names its element (R176). -/
def WarpReq.wf (q : WarpReq) : Bool := decide (q.port < 16)

/-- Functions 0 to 1,024, and register accesses of 4 or 8 aligned bytes (R364, R484, R503). -/
def Tgt.wf (q : Tgt) : Bool :=
  decide (q.func.toNat ≤ 1024) && (if q.be == 0xF0 then q.addr.toNat % 8 == 4 else (q.be == 0x0F || q.be == 0xFF) && q.addr.toNat % 8 == 0)

/-- Window accesses are aligned to their size (R154, R457, R485). -/
def Wreq.wf (q : Wreq) : Bool := if q.size8 then q.addr.toNat % 8 == 0 else q.addr.toNat % 64 == 0

/-- The fields of an OPEN or ACCEPT payload fit 32 bytes (R217). -/
def OpenF.wf (f : OpenF) : Bool :=
  decide (f.kind < 256) && decide (f.gen < 16) && decide (f.index < 256) && decide (f.member < 65536) && decide (f.pod < 65536) &&
    decide (f.endpoint < 65536) && decide (f.channel < 4096) && decide (f.bind < 256)

/-- No bit of a protected word is named twice (R394). -/
def EccErr.wf (e : EccErr) : Bool := decide e.flips.Nodup

/-- OTP words are numbered 0 to 255 (R357), and a regeneration attempt gives 889 bits (R297). -/
def StartIn.wf (a : StartIn) : Bool :=
  (a.otp.all fun w => decide (w.1 < 256)) && (a.weak.all fun w => decide (w.1 < 256)) && a.races.all fun r => r.length == 112

/-- A management path is I3C (0), a host port's (1, 2) or the JTAG mailbox (3) (R250, R496): all that 2 bits name. -/
def pathWf (p : BitVec 2) : Bool := p != 3

/-- A command whose every operand is in range. -/
def Instr.wf : Instr → Bool
  | .start a => a.wf
  | .wake s => s.wf
  | .requestRest q e | .requestOff q e => q.wf && e.wf
  | .ringEnable q | .timAlarmWrite q | .timStrobeWrite q | .lcsGateWrite q | .latchedHalfRead q | .registerWrite q | .sqTail q |
    .cqHead q | .attnAck q | .fwLoad q _ => q.wf
  | .warpRead q e | .warpWrite q e | .plyAdd q e | .plyMin q e | .plyMax q e | .plyAnd q e | .plyOr q e | .plyXor q e |
    .plySwap q e | .plyCas q e => q.wf && e.wf
  | .windowHankAlloc q | .windowHankFree q | .windowHankRef q | .bucketSelectorWrite q => q.wf
  | .nop r _ | .fenceSignal r _ | .fenceReset r _ | .fenceGrant r _ | .fenceWait r _ | .fenceWaitTimeout r _ | .hankAlloc r _ |
    .hankFree r _ | .hankRevoke r _ | .hankRef r _ | .mailboxName r _ | .mailboxRelease r _ | .sealArm r _ | .sealFire r _ |
    .keyInstall r _ _ | .keyRotate r _ _ | .descriptorAdvance r _ | .keyRetire r _ | .transferKeyRetire r _ | .evidence r _ |
    .standingCheckEnd r _ | .traceMark r _ | .skeinCreate r _ | .shareSet r _ | .retwist r _ | .fieldTest r _ |
    .aeadMessageEnd r _ => r.wf
  | .importMsg r _ _ e | .exportMsg r _ e | .digest r _ e | .sealIn r _ _ e | .plyCheck r _ e | .skeinQuiesce r _ e |
    .skeinResume r _ e | .skeinReset r _ e | .skeinDestroy r _ e | .skeinSwapOut r _ e | .skeinSwapIn r _ e => r.wf && e.wf
  | .memoryReadReturn _ _ _ _ _ e | .absorberWindowClose _ e | .sealFireTime _ _ _ _ e | .sealOutEnd _ _ e |
    .standingCheckRepeat _ _ e | .drainComplete _ e | .drainLimitExpiry _ e | .keyLadderGrant e | .reelWindowTake e |
    .reelWindowRelease e | .hankZeroing e | .quarantineReinit e | .allBlockedRule e | .carderPassStart e | .suspectSweepEnd e |
    .weftRead _ _ e | .weftWrite _ _ e | .weftPly _ _ e | .weftMcast _ _ e | .weftCombined _ _ e | .weftMessage _ _ e |
    .weftResolve _ _ e | .packageOpTimeout _ e | .fieldTestEnd _ _ e | .skeinResetTimeout _ e |
    .lcMailbox _ _ _ e => e.wf
  | .weftCoherence p _ _ => decide (p.toNat < 30)
  | .eccSweep errs => errs.all EccErr.wf
  | .skewInterval occ => occ.length ≤ 256
  | .weftOpen p f => decide (p.toNat < 30) && f.wf
  | .weftAccept p _ f _ => decide (p.toNat < 30) && f.wf
  | .federationBringup _ _ _ _ _ l bs =>
    (l.all fun x => decide (x.1 < 1024) && x.2.all (· < 64)) && bs.all fun x => decide (x.1 < 1024)
  | .keyProg p _ _ _ _ _ _ _ | .kSetGo p _ _ _ _ _ | .kSetStop p _ _ _ _ _ | .getTdispVersion p _ _ | .getTdispCapabilities p _ _ |
    .getDeviceInterfaceReport p _ _ _ _ | .getDeviceInterfaceState p _ _ | .startInterfaceRequest p _ _ _ |
    .lockInterfaceRequest p _ _ _ _ _ | .stopInterfaceRequest p _ _ | .setEndpointId p _ _ | .getEndpointId p |
    .getMctpVersionSupport p _ | .query p _ => pathWf p
  | .getMessageTypeSupport m => pathWf m.path
  | .getVersion p _ _ | .getCapabilities p _ _ | .negotiateAlgorithms p _ _ | .getDigests p _ _ | .getCertificate p _ _ |
    .challenge p _ _ | .getMeasurements p _ _ | .keyExchange p _ _ | .finish p _ _ | .endSession p _ _ |
    .getEncapsulatedRequest p _ _ | .deliverEncapsulatedResponse p _ _ => pathWf p
  | .pqStart p _ _ | .pqFinish p _ _ | .pqSign p _ _ | .pqChain p _ _ | .skeinEvidence p _ _ | .skeinEvidencePart p _ _ |
    .fwBegin p _ _ | .fwWrite p _ _ | .fwStage p _ _ | .fwActivate p _ _ | .fwConfirm p _ _ _ | .fwStatus p _ _ |
    .lcStatus p _ _ | .operatorBind p _ _ _ | .slotKeyInstall p _ _ | .slotKeyRotate p _ _ | .slotKeyRetire p _ _ |
    .slotSecretSet p _ _ | .slotMembers p _ _ | .streamSet p _ _ | .saInstall p _ _ | .saRetire p _ _ | .streamStatus p _ _ |
    .packWrite p _ _ | .packCommit p _ _ | .packDrop p _ _ | .ftRun p _ _ | .faultRead p _ _ | .laneSet p _ _ | .blockReset p _ _ |
    .policySet p _ _ | .counterRead p _ _ | .monitorSet p _ _ | .monitorRead p _ _ | .spoolTrigger p _ _ => pathWf p
  | .faultList p _ _ e | .lcTransition p _ _ _ e => pathWf p && e.wf
  | .ideTlpReceive p _ _ _ _ _ m _ _ => decide (p.toNat < 2) && (m.length == 12 || m.length == 0)
  | .cfgAccess p f _ _ _ _ | .functionLevelReset p f | .barReprogrammed p f => decide (p.toNat < 2) && decide (f.toNat ≤ 1024)
  | .hostLinkDown p | .hostLinkUp p _ => decide (p.toNat < 2)
  | .weftReadResp p _ | .weftWriteResp p _ | .weftPlyResp p _ _ | .weftClose p _ | .weftGroupOpen p _ | .linkDown p | .linkUp p |
    .federationPortLoss p => decide (p.toNat < 30)
  | .blockResetEdge | .unitHang _ | .vaoMainLost | .vaoMainRestored | .vaoBackupLost | .coreSupplyLoss | .distaffBrownOut _ |
    .tickLost | .tickRegained | .ppsEdge _ | .todBusLost | .todBusSampleLock _ | .ppsLost | .slotStrobe | .strobeMissing | .alarm |
    .memoryWriteAccept _ | .epochAdvance _ | .skeinResetDone _ | .quiesceLimitExpiry _ | .reelPassStart | .reelPassEnd |
    .bitmapSweep | .snapshot | .stealRequest _ | .respinCompare _ _ _ _ _ _ | .whorlHang _ | .whorlResetDone _ _ |
    .whorlResetTimeout _ | .spindleHang _ | .spindleResetTimeout _ | .spindleResetDone _ | .spindleIsolationTimeout _ |
    .firmwareWatchdogExpiry | .controllerRestartDone | .controllerRestartTimeout | .trngHealthFail _ | .trngRestart _ |
    .drbgReseed => true
  | .requestTimeout _ | .plyResend _ | .resolveResend _ | .openTimeout _ | .sessionLoss _ | .sessionIdle _ | .secretClose _ |
    .followerAck _ _ | .entdaa _ | .setdasa _ _ | .rstdaa | .enec _ _ | .disec _ _ | .getpid _ | .getbcr _ | .getdcr _ |
    .getstatus _ | .setmwl _ _ | .getmwl _ | .setmrl _ _ _ | .getmrl _ | .tpkPendingExpiry _ | .fwActivationRun _ |
    .lcStateBurn _ _ | .fronthaulTransmit _ _ _ _ | .fronthaulReceive _ _ _ _ | .spoolWindowClose | .spoolImageWrite |
    .hangDumpWrite | .dumpSlotErase | .idcode | .bypass | .dbgFw _ | .dbgRead _ | .scanEntry _ | .scanExit => true

end Sys2Proof
end

