-- ==== Sys2Proof/Safety.lean ====
section
/-! DEFINITION. The terms that claims are stated in: the effect of a command on the block, well-formed states, and when a
descriptor, an access or a message is served. -/

namespace Sys2Proof.Machine

/-- The outcome that leaves the queue as it is and the rest of the block as `b`. -/
def onto (s : State) (b : Block) : Out := .next { s with blk := b }

/-- What a command does to everything but the queue. -/
def effect (c : Instr) (b : Block) : Block := match exec c { pending := [], blk := b } with
  | .next t => t.blk
  | _ => b

/-- The memory's cells are in canonical form: places strictly rising, and no line that reads as an unlisted one does. -/
def Mem.wf (m : Mem) : Bool := amSorted m.cells && m.cells.all fun e => e.2 != 0

/-- Every waiting command is well-formed. -/
def State.queueWf (s : State) : Bool := s.pending.all Instr.wf

/-! ### Descriptors -/

/-- The descriptor that a ring's next entry becomes when it is accepted. -/
def accDesc (r : Ring) (d : Line) (cmd : Instr) (uses : Block → List Nat) (b : Block) : Desc :=
  newDesc r d cmd (fetchIndex r b) (uses (fetched r b)) (fetched r b)

/-- The block once that descriptor has been accepted and is running. -/
def accBlk (r : Ring) (d : Line) (cmd : Instr) (uses : Block → List Nat) (b : Block) : Block :=
  addDesc (accDesc r d cmd uses b) .running (takeRefs (accDesc r d cmd uses b) (fetched r b))

/-- A descriptor of opcode `op` is fetched, passes every check of R372, and starts at once: no FENCE_WAIT and no earlier control
operation holds it (R34, R366, R372, R386). -/
def runsNow (r : Ring) (d : Line) (op : Nat) (checks : Block → Checks) (cmd : Instr) (uses : Block → List Nat) (b : Block) : Bool :=
  dOpcode d == op && canFetch r d b && (validate r d (checks (fetched r b)) (fetched r b)).isNone &&
    (!dChain d || lastWaitOf r b == .none || lastWaitOf r b == .done cOK) &&
    !heldByControl (accDesc r d cmd uses b) (takeRefs (accDesc r d cmd uses b) (fetched r b))

/-- The outcome of a descriptor that completes with a status and result in the block `b`, with what its completion releases. -/
def completes (s : State) (x : Desc) (st : BitVec 8) (res : BitVec 160) (b : Block) : Out := onto s (settle (complete x st res b))

/-- Where a descriptor command runs (`runsNow`), the property `P` holds of the descriptor that it becomes, of the block in which it
runs, and of the outcome of the command. -/
def WhenRuns (r : Ring) (d : Line) (op : Nat) (checks : Block → Checks) (cmd : Instr) (uses : Block → List Nat) (s : State)
    (P : Desc → Block → Out → Prop) : Prop :=
  runsNow r d op checks cmd uses s.blk = true → P (accDesc r d cmd uses s.blk) (accBlk r d cmd uses s.blk) (exec cmd s)

/-! ### What replies leave alone -/

/-- A skein but for what completions, records, doorbells and fences change; its TDI leaves RUN where its stream does. -/
def skeinRest (s : Skein) : Skein :=
  { s with
    ring := {}, view := {}, fences := [], heldTail := none, heldCq := none, heldAck := none, counts := {}, lastProgress := 0,
    ctrs := [], buckets := [], tdi := {} }

/-- The block but for ring pairs, views, fences, descriptors, records, counters, telemetry, the states of hanks, and what IDE does to the
transfers of records: streams of the host ports and units of the whorl array. -/
def beyondReplies (b : Block) : Block :=
  { b with
    mgr := {}, mgrView := {}, mgrFences := [], skeins := b.skeins.map fun e => (e.1, skeinRest e.2), descs := [], nextDesc := 0,
    lates := [], refusedNoSkein := 0, health := [], glob := [], tel := {}, out := [], wh := {}, host := { b.host with ports := [] },
    mem := { b.mem with hanks := [], zorder := 0, nextId := 0 } }

/-- What a hank belongs to: its owner, class, key and step. -/
def hankOwner (h : Nat) (b : Block) : Nat × MemClass × Nat × Nat :=
  ((getHank h b).skein, (getHank h b).cls, (getHank h b).keyId, (getHank h b).step)

/-- Nothing is left that a fence or a completed FENCE_WAIT lets go (R382, R385, R386). -/
def Released (b : Block) : Prop :=
  (∀ x ∈ b.descs, match x.phase with
    | .waiting o f t _ _ => (getFence o f b).error = false ∧ (getFence o f b).satisfied t = false
    | .chainDone _ => False
    | _ => True) ∧
  ∀ l ∈ b.lates, (getFence l.owner l.fence b).error = false ∧ (getFence l.owner l.fence b).satisfied l.target = false

/-- The content of one physical line. -/
def lineIn (key : Nat) (b : Block) : Line := amGetD 0 key b.mem.cells

/-! ### The weft -/

/-- A frame of a kind verifies on a weft port (R211, R214, R217 to R219, R227): its session's index, the session, its header and its
payload. -/
def weftVerified (kind port origin : Nat) (f : Bytes) (b : Block) : Option (Nat × Session × Header × Bytes) :=
  if asleep b || !b.fab.up.contains port || b.row.weftPorts ≤ port || isFedPort port then none
  else (parseHeader f).bind fun h =>
    if !knownKind h.kind || h.kind != kind || h.die != 0 || 4096 ≤ h.session || !flitsOk h.kind h.flits || !nsOk h then none
    else (getSess h.session b).bind fun s =>
      let gone := match getSkein s.skein b with
        | some k => k.st == .destroying || k.st == .resetting
        | none => true
      if s.st = .opening || s.opener && s.kind == 2 || (gone && (kind < 0x10 || kind == 0x23)) then none
      else (s.rx.pick h).bind fun k => (openFrame k h origin f).bind fun p =>
        if isWindowed h && s.rx.replay h.nonce then none else some (h.session, s, h, p)

/-- A frame of a kind verifies on a federation port (R233, R234): its source die, its header and its payload. -/
def fedVerified (kind port : Nat) (f : Bytes) (b : Block) : Option (Nat × Header × Bytes) :=
  if asleep b || !b.fab.up.contains port || !isFedPort port then none
  else (getFed port b).bind fun fp => (parseHeader f).bind fun h =>
    if !knownKind h.kind || 0x20 ≤ h.kind || h.kind = 4 || h.kind = 5 || h.kind = 6 || h.kind != kind || !fp.isOpen || 256 ≤ h.session ||
        !flitsOk h.kind h.flits || !nsOk h then none
    else (fp.rx.pick h).bind fun k => (openFrame k h 0 f).bind fun p =>
      if isWindowed h && fp.rx.replay h.nonce then none else some (h.session / 64, h, p)

/-! ### Management messages -/

/-- An SPDM or group message on a path is served by its own rules: the block is awake, started, alive, with a root, and its firmware
is not busy (R259, R297, R344). -/
def spdmServed (path : Nat) (b : Block) : Bool :=
  !asleep b && b.dst.started && pathExists path b && !lcDead b && !unserved b && !firmwareBusy b

/-- A group message passes its gates, its sender is entitled, and its length and header are good (R258, R259). -/
def groupServed (use : GroupUse) (group op path : Nat) (sess : BitVec 32) (msg : Bytes) (size : Nat) (bad : Bool) (b : Block) : Bool :=
  leField msg 0 1 == group && leField msg 1 1 == op && spdmServed path b && (groupBar use path sess b).isNone &&
    msg.length == size && leField msg 2 2 == 0 && !bad

/-- An SPDM request is served in its place: its gates pass, its version and length are good, the negotiation has reached its stage,
and it is in a session where it needs one (R254 to R257). -/
def spdmAsked (path : Nat) (sess : BitVec 32) (msg : Bytes) (code version stage : Nat) (use : SpdmWhere) (b : Block) : Bool :=
  leField msg 1 1 == code && leField msg 0 1 == version && decide (4 ≤ msg.length) && decide (msg.length ≤ 8256) && spdmServed path b &&
    decide (stage ≤ (getPath path b).stage) && (sess == 0 || (findSpdm path sess b).isSome) &&
    match use, findSpdm path sess b with
    | .outside, x => x.isNone
    | .handshake, some x => !x.live
    | .handshake, none => false
    | .either, some x => x.live
    | .either, none => true

/-- A request of IDE_KM or TDISP is served: it is in a mutually authenticated session of a host port's path (R240). -/
def hostServed (path : Nat) (sess : BitVec 32) (b : Block) : Bool :=
  spdmServed path b && path != 0 && match liveSess path sess b with
    | some s => s.authd
    | none => false

/-- A TDISP request for function `func` is served: the function has a TDI, and where it is locked the request is in the session that
locked it (R244, R246). -/
def tdiServed (path : Nat) (sess : BitVec 32) (func : Nat) (b : Block) : Bool :=
  hostServed path sess b && func != 0 && decide (func ≤ 1024) &&
    (!(getTdi (func - 1) b).held || ((getTdi (func - 1) b).sess == sess && (getTdi (func - 1) b).port + 1 == path))

/-- An MCTP control command is answered on a path (R250, R297, R359). -/
def mctpServed (path : Nat) (b : Block) : Bool :=
  !asleep b && b.dst.started && pathExists path b && (!unserved b || path == 0 || lcDead b)

/-- A common command code reaches this target: the block is started and in no low-power state, and the code is for all targets or for
its address (R253). -/
def cccServed (dest : Option (BitVec 7)) (b : Block) : Bool :=
  decide (b.pwr.st = .active) && b.dst.started && match dest with
    | none => true
    | some a => b.host.i3c.da == some a.toNat

/-- An operation of group 0x40 is served on the slot-class skein `n`, and no earlier control operation holds it (R34, R319). -/
def slotServed (op path : Nat) (sess : BitVec 32) (msg : Bytes) (size : Nat) (bad : Bool) (n : Nat) (b : Block) : Bool :=
  groupServed .operator 0x40 op path sess msg size bad b && slotService b && !controlBusy n b &&
    match slotClassSkein b with
    | some (m, s) => m == n && s.st != .destroying
    | none => false

/-- An operation of group 0x30 is served on a path: 3 is the JTAG mailbox (R258, R349, R350, R496). -/
def group30Served (op path : Nat) (sess : BitVec 32) (msg : Bytes) (size : Nat) (bad status free : Bool) (b : Block) : Bool :=
  leField msg 0 1 == 0x30 && leField msg 1 1 == op && msg.length == size && leField msg 2 2 == 0 && !bad && !asleep b && b.dst.started &&
    if path = 3 then status || (openState b && !firmwareBusy b)
    else pathExists path b && if path = 0 && (openState b || (lcDead b && status)) then !firmwareBusy b
      else spdmServed path b && ((free && path == 0 && sess == 0) || (groupBar .operator path sess b).isNone)

/-! ### Ports -/

/-- The outcome after which peers' requests and the block's own go on (R201, R226). -/
def fabric (s : State) (b : Block) : Out := onto s (settle (pumpOut (flushInb b)))

/-- The cell of the request window that an access names. -/
def cellOf (q : Wreq) : Nat := q.addr.toNat % 8192 / 64

/-- The cell becomes PENDING with the request, which takes its place in the order of acceptance (R34, R153). -/
def windowTaken (q : Wreq) (n : Nat) (b : Block) : Block := pendCell n (cellOf q) q.data b

/-- The request window accepts a write of OP `op` to a cell of skein `n` and runs it at once (R154, R485). -/
def windowAccepts (op : Nat) (q : Wreq) (n : Nat) (b : Block) : Bool :=
  let slot := q.addr.toNat / 8192
  match slotSkein slot b with
  | none => false
  | some (m, s) =>
    m == n && slot == q.skeinTag.toNat && decide (slot < b.row.slots) && !q.read && decide (q.addr.toNat % 8192 < 4096) &&
      fieldAt q.data 0 1 == op && s.st == .resident && !q.size8 && q.addr.toNat % 64 == 0 &&
      cellState (getCell n (cellOf q) b) != 1 && !cellReserved q.data && !cellMalformed q.data (windowTaken q n b) && !cellHeld n b.nextDesc (windowTaken q n b)

/-- A warp port accepts a request of skein `n` for the block's own memory (R19 to R22, R150, R478). -/
def warpAccepts (kind : TxnKind) (q : WarpReq) (n : Nat) (b : Block) : Bool :=
  match slotSkein q.skeinTag.toNat b with
  | none => false
  | some (m, _) =>
    m == n && !q.peerV && !reqMalformed q (match kind with | .read => 0 | .write => 1 | .ply => 2) &&
      (frontEnd n (reqKeyId q) (reqAddr q) b).isNone &&
      (kind != .ply || ((getHank (reqAddr q / hankBytes) b).cls == .S && plyValid (plyWord q.plyop) (reqAddr q) q.mask q.srtag))

/-- The accepted request starts on its line. -/
def warpStarts (kind : TxnKind) (q : WarpReq) (n : Nat) (evs : MemEvs) (b : Block) : Block :=
  acceptLine (.warp q.port q.tag) kind n (reqKeyId q) (reqAddr q) q.mask q.data (plyWord q.plyop) q.srtag
    (if q.fenceV then some q.fence.toNat else none) (q.ack || q.fenceV) q.layer.toNat q.operator.toNat evs b

end Sys2Proof.Machine
end

