-- ==== Sys2Proof/Certificates/Slice0/Obligations.lean ====
section
/-! DEFINITION. The statements for the provers: what every command does when it runs, what it leaves alone, and what holds of
the machine as a whole. -/

open Sys2Proof Sys2Proof.Machine

/-- For every command c, queue rest cs and block b: the step of the state whose queue is c followed by cs is exec of c on the state
whose queue is cs. The order of the queue and the idle step are the model's (log entry 3). (95_what_each_step_holds) -/
def Obligations.StepTakesFront : Prop :=
  ∀ (c : Instr) (cs : List Instr) (b : Block), step { pending := c :: cs, blk := b } = exec c { pending := cs, blk := b }

/-- For every command c and state s: exec c s is a next state whose queue is that of s, and whose block does not depend on the
queue. No command faults and none is refused: every error of the block is a status, a record or an event. The model's choices it
rests on: log entry 4. (12_rings_replies_fences, 13_faults_and_recovery) -/
def Obligations.CommandsLeaveTheQueue : Prop :=
  ∀ (c : Instr) (s : State), exec c s = onto s (effect c s.blk)

/-- For every block b, the step with nothing waiting answers a next state whose queue is empty: the block never stops. What an idle
step does is the model's choice (log entry 3). The model's choices it rests on: log entry 3. (12_rings_replies_fences,
14_supplies_power_time) -/
def Obligations.IdleStepsComplete : Prop :=
  ∀ (b : Block), ∃ b' : Block, step { pending := [], blk := b } = .next { pending := [], blk := b' }

/-- For every list cs of waiting commands, every list rest behind it and every block b: a run of as many steps as cs is long answers
the next state whose queue is rest and whose block is b under the effects of the commands of cs, applied in order. So no command
stops a run, spawns or drops another, or is overtaken. The queue is the model's (log entry 3). (12_rings_replies_fences) -/
def Obligations.RunServesTheQueueInOrder : Prop :=
  ∀ (cs rest : List Instr) (b : Block),
    Host.Core.run Sys2Proof.core cs.length { pending := cs ++ rest, blk := b } =
      .next { pending := rest, blk := cs.foldl (fun b c => effect c b) b }

/-- For every state s and next state t of a step: the queue of t is that of s without its first command, so if every command waiting
in s is well-formed then so is every command waiting in t. The model's choices it rests on: log entry 1.
(12_rings_replies_fences) -/
def Obligations.QueueStaysWellFormed : Prop :=
  ∀ (s t : State), step s = .next t → t.pending = s.pending.tail ∧ (s.queueWf = true → t.queueWf = true)

/-- The state right after reset has an empty queue, so the invariants of the queue hold in it, and its memory lists no line, so that
form is canonical. The model's choices it rests on: log entries 5, 17. (12_rings_replies_fences, 03_sealed_memory) -/
def Obligations.ResetIsWellFormed : Prop :=
  State.reset.pending = [] ∧ State.reset.queueWf = true ∧ State.reset.blk.mem.wf = true

/-- In the state right after reset: TWS_MEM is 64 and TWS_BOOT 31; TWS_SKEW has HOT 230, RATIO 2 and COUNT 8,192; SKN_SCHED has
ALL_BLOCKED 1, BLOCK_TICKS 1,000 and HOLD_TICKS 10,000; SKN_DRAIN is 5,000; WFT_TIMEOUT has REQ_TICKS 1,000 and LOSS_MULT 16;
PLY_WINDOW is 1; FLT_CARDER has ENABLE 1, RATE 100 and PERIOD 3,600; TIM_CTRL has TOD_EN 1, PPS_EN 1 and LOCK_TOL 10;
TIM_STROBE.MIN_US is 20; SPL_CTRL has STREAMS 0x7FFF, LOW 0x7000, PRE 2, POST 2, TRIG_ACLASS 0x18, TRIG_MARK 0 and POST_MS 100;
and no lock, no gate and no ring enable is set. Each is read through the register read. The model's choices it rests on: log
entries 56, 108. (17_setup_registers, 09_skeins, 07_weft_links, 13_faults_and_recovery, 14_supplies_power_time,
15_counters_and_spool) -/
def Obligations.ResetRegisters : Prop :=
  let rd (off : Nat) : Nat := (regRead off State.reset.blk).toNat
  rd 0x390 = 64 ∧ rd 0x398 = 31 ∧ rd 0x3A0 = 230 + 2 * 2 ^ 8 + 8192 * 2 ^ 16 ∧ rd 0x400 = 1 + 1000 * 2 ^ 16 + 10000 * 2 ^ 32 ∧
    rd 0x408 = 5000 ∧ rd 0x410 = 1000 + 16 * 2 ^ 16 ∧ rd 0x418 = 1 ∧ rd 0x428 = 1 + 100 * 2 ^ 8 + 3600 * 2 ^ 16 ∧
    rd 0x600 = 1 + 2 + 10 * 2 ^ 8 ∧ rd 0x608 = 20 ∧
    rd 0x708 = 0x7FFF + 0x7000 * 2 ^ 16 + 2 * 2 ^ 32 + 2 * 2 ^ 36 + 0x18 * 2 ^ 40 + 100 * 2 ^ 50 ∧
    rd 0x060 = 0 ∧ rd 0x210 = 0 ∧ rd 0x380 = 0

/-- While the block is awake and started (not closed), for every access q: REGISTER_WRITE to a register without a behaviour of its
own, honoured, stores the selected value and is answered; LCS_GATE_WRITE before CLOSE stores the four gate bits and LOCK;
RING_ENABLE with ENABLE set on zones that pass every check fixes the map, sets the ring enable and the three locks and clears
TWS_STATUS; TIM_ALARM_WRITE of 8 bytes with a value not yet reached arms it; TIM_STROBE_WRITE stores MIN_US (not 0) and
EXPECT_US and restarts the interval; a 4-byte read of the low half of TIM_NOW answers it and latches the high half; FW_LOAD of
an address while a bank runs stores the address alone; while both banks are empty an address that is not 0 loads the image
there: its header and its firmware are read, an image that is accepted runs in bank A, and a refused one sets IMG_BAD and raises
ACLASS 5. The model's choices it rests on: log entry 36. (17_setup_registers, 11_evidence_and_life_cycle) -/
def Obligations.SetUpRegistersComplete : Prop :=
  ∀ (s : State) (q : Tgt) (image : Bytes) (v : BitVec 64), closed s.blk = false → writeValue q s.blk = some v →
    (q.func = 0 → q.read = false → q.addr.toNat < 0x1000 → ownBehaviour (slotOff q) = false →
      writesHonoured (slotOff q) s.blk = true →
      exec (.registerWrite q) s = onto s (settle (answerWrite (regStore (slotOff q) v s.blk)))) ∧
    (isReg q 0x060 false = true → writesHonoured 0x060 s.blk = true → s.blk.regs.lcsGate.getLsbD 7 = false → s.blk.fwHalted = false →
      exec (.lcsGateWrite q) s = onto s (settle (answerWrite
        (setRegs (fun r => { r with lcsGate := writeFields r.lcsGate (v.setWidth 32) [fld 3 0, fld 7 7] }) s.blk)))) ∧
    (isReg q 0x210 false = true → writesHonoured 0x210 s.blk = true → s.blk.regs.ringLock = false → v.getLsbD 0 = true →
      zoneCheck s.blk.row (bitField s.blk.regs.twsMem 6 0) (bitField s.blk.regs.twsBoot 7 0) (enabledZones s.blk) = none →
      ∃ lay zones boot, lay = mkLayout s.blk.row (bitField s.blk.regs.twsMem 6 0) (bitField s.blk.regs.twsBoot 7 0) (enabledZones s.blk) ∧
        exec (.ringEnable q) s = onto s (settle (answerWrite (setRegs (fun r => { r with
          ringEnable := true, ringLock := true, lockZones := true, lockBoot := true, twsStatus := 0, cfgZone := zones, cfgBoot := boot })
          (setMem (fun m => { m with lay := lay }) s.blk))))) ∧
    (isReg q 0x618 false = true → writesHonoured 0x618 s.blk = true → q.be = 0xFF → s.blk.tim.t.toNat < q.data.toNat →
      exec (.timAlarmWrite q) s = onto s (settle (setRegs (fun r => { r with timAlarm := q.data }) (answerWrite s.blk)))) ∧
    (isReg q 0x608 false = true → writesHonoured 0x608 s.blk = true →
      exec (.timStrobeWrite q) s = onto s (settle (answerWrite (setTim (fun t => { t with
          strobeFrom := s.blk.tick, strobeMissing := t.strobeMissing &&
            bitField (writeFields s.blk.regs.timStrobe (v.setWidth 32) [fldIf 15 0 pos, fld 31 16]) 31 16 != 0 })
        (setRegs (fun r => { r with timStrobe := writeFields r.timStrobe (v.setWidth 32) [fldIf 15 0 pos, fld 31 16] }) s.blk))))) ∧
    (isReg q 0x620 true = true → q.be = 0x0F →
      exec (.latchedHalfRead q) s = onto s (settle (answerTgt (s.blk.tim.t &&& 0x00000000FFFFFFFF) false .mgr
        (setRegs (fun r => { r with latchNow := some ((s.blk.tim.t >>> 32).setWidth 32) }) s.blk)))) ∧
    (isReg q 0x070 false = true → writesHonoured 0x070 s.blk = true → s.blk.regs.dstStatus.getLsbD 8 = false →
      exec (.fwLoad q image) s = onto s (settle (answerWrite
        (setRegs (fun r => { r with fwLoad := writeFields r.fwLoad v [fld 63 12] }) s.blk)))) ∧
    (let base := bitField (writeFields s.blk.regs.fwLoad v [fld 63 12]) 63 12
     let img := image.take (8192 + leField image 8 4)
     let b := readHost none (base * 4096 + 8192) (img.length - 8192) (readHost none (base * 4096) 8192
       (setRegs (fun r => { r with fwLoad := writeFields r.fwLoad v [fld 63 12] }) s.blk))
     isReg q 0x070 false = true → writesHonoured 0x070 s.blk = true → s.blk.regs.dstStatus.getLsbD 8 = true → base ≠ 0 →
      exec (.fwLoad q image) s = onto s (settle (answerWrite (if imageReason img b = 0
        then deriveCdi1 (setDst 8 false (setDst 9 false (setDistaff (fun d => { d with bankA := { st := 4, img := img } }) b)))
        else raiseViews { cls := 5 } (setDst 9 true b)))))

/-- While the block is awake and started, for a 4-byte write q to a doorbell page of ring r (the manager's, or that of a skein that
is neither SWAPPED nor DESTROYING and whose TDI does not refuse it): SQ_TAIL with no more descriptors outstanding than the ring
has entries sets the tail; CQ_HEAD with no more than the records produced sets the head and posts the records held on chip;
ATTN_ACK sets the acknowledged ASEQ of the view. Each is answered on TGTR. (12_rings_replies_fences) -/
def Obligations.DoorbellsComplete : Prop :=
  ∀ (s : State) (q : Tgt) (r : Ring) (off : Nat) (p : RingPair), closed s.blk = false → pageOf q = some (r, off) → q.read = false →
    q.be = 0x0F → getRing r s.blk = some p → pageRefused r q.t s.blk = none → ringState r s.blk ≠ some .destroying →
    ringState r s.blk ≠ some .swapped →
    (off = 0x000 → (q.data.setWidth 32 - p.sqHead).toNat ≤ ringEntries p.sq →
      exec (.sqTail q) s = onto s (settle (answerTgt 0 false r (modRing r (fun p => { p with sqTail := q.data.setWidth 32 }) s.blk)))) ∧
    (off = 0x008 → (q.data.setWidth 32 - p.cqHead).toNat ≤ (p.cqProd - p.cqHead).toNat →
      exec (.cqHead q) s = onto s (settle (answerTgt 0 false r
        (flushQueued 64 r (modRing r (fun p => { p with cqHead := q.data.setWidth 32 }) s.blk))))) ∧
    (off = 0x010 → exec (.attnAck q) s = onto s (settle (answerTgt 0 false r
        (modView r (fun x => { x with acked := (q.data.setWidth 32).setWidth 8 }) s.blk))))

/-- While the block is awake and started, for a 4-byte write q to the manager's doorbell page: an SQ_TAIL value that would make more
descriptors outstanding than the ring has entries, and a CQ_HEAD value beyond the records produced, leave the ring pair as it
was but for the count of bad doorbells, and raise ACLASS 2 in the manager's view. (12_rings_replies_fences) -/
def Obligations.DoorbellBoundsRefused : Prop :=
  ∀ (s : State) (q : Tgt) (off : Nat), closed s.blk = false → pageOf q = some (.mgr, off) → q.read = false → q.be = 0x0F →
    (off = 0x000 → ringEntries s.blk.mgr.sq < (q.data.setWidth 32 - s.blk.mgr.sqHead).toNat →
      exec (.sqTail q) s = onto s (settle (answerTgt 0 false .mgr
        (raiseViews { cls := 2, mgrOnly := true } { s.blk with mgr := { s.blk.mgr with badBells := s.blk.mgr.badBells + 1 } })))) ∧
    (off = 0x008 → (s.blk.mgr.cqProd - s.blk.mgr.cqHead).toNat < (q.data.setWidth 32 - s.blk.mgr.cqHead).toNat →
      exec (.cqHead q) s = onto s (settle (answerTgt 0 false .mgr
        (raiseViews { cls := 2, mgrOnly := true } { s.blk with mgr := { s.blk.mgr with badBells := s.blk.mgr.badBells + 1 } }))))

/-- For a descriptor d of ring r that is fetched, passes every check and starts at once, with b the block in which it is accepted
and runs: NOP completes with OK. FENCE_SIGNAL MODE 0 on a fence not in error, to a value at least the fence's and below
0xFFFF_FFFF_FFFF_FFFE, sets VALUE and completes with OK and that value; FENCE_SIGNAL MODE 1 (FENCE_RESET) of a fence without
references clears VALUE, ERROR, CODE and GRANTEE, and completes with OK; MODE 2 (FENCE_GRANT) sets the grantee, or none for
0xFFFF, and completes with OK. A FENCE_WAIT, whose reference its acceptance has taken, waits from the present tick, with its
deadline where TIMEOUT is not 0. The fence set is not frozen. Completion and what it releases are complete and settle.
(12_rings_replies_fences) -/
def Obligations.FenceDescriptorsComplete : Prop :=
  ∀ (r : Ring) (d : Line) (s : State),
    (runsNow r d 1 (nopChecks d) (.nop r d) (fun _ => []) s.blk = true →
      exec (.nop r d) s = onto s (settle (complete (accDesc r d (.nop r d) (fun _ => []) s.blk) cOK 0
        (accBlk r d (.nop r d) (fun _ => []) s.blk)))) ∧
    (let x := accDesc r d (.fenceSignal r d) (fun _ => []) s.blk
     let b := accBlk r d (.fenceSignal r d) (fun _ => []) s.blk
     let f := getFence (ringOwner r) (fsFence d) b
     let b' := setFence (ringOwner r) (fsFence d) { f with value := BitVec.ofNat 64 (fsValue d) } b
     runsNow r d 2 (fenceOpChecks d) (.fenceSignal r d) (fun _ => []) s.blk = true → fsMode d = 0 → frozen (ringOwner r) b = false →
      f.error = false → f.value.toNat ≤ fsValue d → fsValue d < 0xFFFFFFFFFFFFFFFE →
      exec (.fenceSignal r d) s = onto s (settle (complete x cOK (resAt 16 8 (getFence (ringOwner r) (fsFence d)
          (match r with | .skein n => progress n b' | .mgr => b')).value.toNat)
        (match r with | .skein n => progress n b' | .mgr => b')))) ∧
    (let x := accDesc r d (.fenceReset r d) (fun _ => []) s.blk
     let b := accBlk r d (.fenceReset r d) (fun _ => []) s.blk
     runsNow r d 2 (fenceOpChecks d) (.fenceReset r d) (fun _ => []) s.blk = true → fsMode d = 1 →
      (getFence (ringOwner r) (fsFence d) b).refs = 0 →
      exec (.fenceReset r d) s = onto s (settle (complete x cOK 0
        (setFence (ringOwner r) (fsFence d) {} (abortLates (ringOwner r) (some (fsFence d)) b))))) ∧
    (let x := accDesc r d (.fenceGrant r d) (fun _ => []) s.blk
     let b := accBlk r d (.fenceGrant r d) (fun _ => []) s.blk
     let b' := modFence (ringOwner r) (fsFence d) (fun f => { f with
       grantee := if fsGrantee d = 0xFFFF then none else some (fsGrantee d) }) b
     runsNow r d 2 (fenceOpChecks d) (.fenceGrant r d) (fun _ => []) s.blk = true → fsMode d = 2 →
      exec (.fenceGrant r d) s = onto s (settle (complete x cOK
        (resAt 16 8 (getFence (ringOwner r) (fsFence d) b').value.toNat) b'))) ∧
    (let x := accDesc r d (.fenceWait r d) (fun _ => []) s.blk
     let b := accBlk r d (.fenceWait r d) (fun _ => []) s.blk
     let o := waitOwner r d
     runsNow r d 3 (fenceWaitChecks r d) (.fenceWait r d) (fun _ => []) s.blk = true → (frozen o b = false ∨ o = ringOwner r) →
      exec (.fenceWait r d) s = onto s (settle (setPhase x.id (.waiting o (fieldAt d 18 2) (BitVec.ofNat 64 (fieldAt d 24 8)) b.tick
          (if fieldAt d 20 4 = 0 then none else some (b.tick + fieldAt d 20 4))) b)))

/-- When the FENCE_WAIT at an entry of a ring waits with a deadline that the tick has reached, FENCE_WAIT_TIMEOUT completes it with
TIMEOUT and VALUE, the fence's value then, and lists it so that a later signal is reported in a LATE record. The model's choices
it rests on: log entries 4, 19. (12_rings_replies_fences) -/
def Obligations.FenceWaitTimesOut : Prop :=
  ∀ (r : Ring) (index : BitVec 16) (s : State) (x : Desc) (o : Option Nat) (f since dl : Nat) (t : BitVec 64),
    descAt r index s.blk = some x → x.phase = .waiting o f t since (some dl) → dl ≤ s.blk.tick →
    let b := complete x cTimeout (resAt 16 8 (getFence o f s.blk).value.toNat) s.blk
    exec (.fenceWaitTimeout r index) s =
      onto s (settle { b with lates := b.lates ++ [{ ring := r, index := index, owner := o, fence := f, target := t }] })

/-- For a descriptor d of ring r that is fetched, passes every check and starts at once, in the block b in which it runs: HANK_ALLOC
whose key may be used and for which a run is found completes with OK and the run's base address; HANK_FREE without flags drops
one hold of each hank of its run and completes with OK; with REVOKE (HANK_REVOKE) it revokes each hank of the run; HANK_REF
without flags, with every hold below 65,535, raises each hold by one and completes with OK and the first hank's holds; with
MAILBOX (MAILBOX_NAME) on a class S hank held fewer than 65,535 times, for a skein without a mailbox, it raises the hold and
names the mailbox; HANK_FREE with MAILBOX (MAILBOX_RELEASE) drops the mailbox's hold and the name. The model's choices it rests
on: log entries 9, 38, 39. (05_twist_hanks_reel, 12_rings_replies_fences) -/
def Obligations.HankDescriptorsComplete : Prop :=
  ∀ (r : Ring) (d : Line) (s : State),
    (let x := accDesc r d (.hankAlloc r d) (fun _ => []) s.blk
     let b := accBlk r d (.hankAlloc r d) (fun _ => []) s.blk
     let n := hankTarget r (fieldAt d 20 2)
     ∀ (base : Nat) (b' : Block), runsNow r d 8 (allocChecks r d) (.hankAlloc r d) (fun _ => []) s.blk = true →
      checkKey n (fieldAt d 16 2) b = none → allocHanks n (fieldAt d 16 2) (fieldAt d 18 2) b = (.ok base, b') →
      exec (.hankAlloc r d) s = completes s x cOK (resAt 16 8 (base * hankBytes)) b') ∧
    (runsNow r d 9 (hankChecks r d) (.hankFree r d) (freeUses d) s.blk = true → hFlags d = 0 →
      exec (.hankFree r d) s = completes s (accDesc r d (.hankFree r d) (freeUses d) s.blk) cOK 0
        ((hRun d).foldl (fun b h => dropHold h b) (accBlk r d (.hankFree r d) (freeUses d) s.blk))) ∧
    (let x := accDesc r d (.hankRevoke r d) (freeUses d) s.blk
     runsNow r d 9 (hankChecks r d) (.hankRevoke r d) (freeUses d) s.blk = true → hFlags d = 1 →
      exec (.hankRevoke r d) s = completes s x cOK 0
        ((hRun d).foldl (fun b h => revokeHank (some x.id) h b) (accBlk r d (.hankRevoke r d) (freeUses d) s.blk))) ∧
    (let b := accBlk r d (.hankRef r d) (fun _ => hRun d) s.blk
     let b' := (hRun d).foldl (fun b h => setHank h { getHank h b with holds := (getHank h b).holds + 1 } b) b
     runsNow r d 10 (hankChecks r d) (.hankRef r d) (fun _ => hRun d) s.blk = true → hFlags d = 0 →
      (∀ h ∈ hRun d, (getHank h b).holds < 65535) →
      exec (.hankRef r d) s = completes s (accDesc r d (.hankRef r d) (fun _ => hRun d) s.blk) cOK
        (resAt 12 2 (getHank (hBase d / hankBytes) b').holds) b') ∧
    (∀ n, r = .skein n →
     let h := hBase d / hankBytes
     let b := accBlk r d (.mailboxName r d) (fun _ => hRun d) s.blk
     let b' := modSkein n (fun s => { s with mailbox := some { hank := h } })
       (setHank h { getHank h b with holds := (getHank h b).holds + 1 } b)
     runsNow r d 10 (hankChecks r d) (.mailboxName r d) (fun _ => hRun d) s.blk = true → hFlags d = 2 →
      (getHank h b).cls = .S → (getHank h b).holds < 65535 →
      (getSkein n b).bind (·.mailbox) = none →
      exec (.mailboxName r d) s = completes s (accDesc r d (.mailboxName r d) (fun _ => hRun d) s.blk) cOK
        (resAt 12 2 (getHank h b').holds) b') ∧
    (∀ n mb, r = .skein n →
     let b := accBlk r d (.mailboxRelease r d) (freeUses d) s.blk
     runsNow r d 9 (hankChecks r d) (.mailboxRelease r d) (freeUses d) s.blk = true → hFlags d = 2 →
      (getSkein n b).bind (·.mailbox) = some mb →
      exec (.mailboxRelease r d) s = completes s (accDesc r d (.mailboxRelease r d) (freeUses d) s.blk) cOK 0
        (dropHold mb.hank (modSkein n (fun s => { s with mailbox := none }) b)))

/-- While the block is awake and started, for a 64-byte write q that the request window accepts for skein n, with b the block in
which its cell is PENDING: HANK_ALLOC whose key may be used and for which a run is found puts OK and the run's base into the
cell; HANK_FREE of hanks that the skein holds drops their holds and puts OK into the cell; HANK_REF of hanks that the skein
holds raises their holds where each is below 65,535 and puts OK into the cell. An aligned 8-byte write to a bucket selector of
the skein's own slot stores the four selector fields and clears the counts of that bucket. The model's choices it rests on: log
entries 35, 132, 138. (05_twist_hanks_reel, 15_counters_and_spool) -/
def Obligations.RequestWindowCompletes : Prop :=
  ∀ (q : Wreq) (n : Nat) (s : State), closed s.blk = false →
    let b := windowTaken q n s.blk
    let c := getCell n (cellOf q) b
    let run := runOf (fieldAt c 8 8) (fieldAt c 4 2)
    (∀ (base : Nat) (b' : Block), windowAccepts 8 q n s.blk = true → fieldAt c 0 1 = 8 → checkKey n (fieldAt c 2 2) b = none →
      allocHanks n (fieldAt c 2 2) (fieldAt c 4 2) b = (.ok base, b') →
      exec (.windowHankAlloc q) s = onto s (settle (doneCell n (cellOf q) cOK (base * hankBytes) b'))) ∧
    (windowAccepts 9 q n s.blk = true → fieldAt c 0 1 = 9 → checkHanks n none run b = none →
      exec (.windowHankFree q) s = onto s (settle (doneCell n (cellOf q) cOK 0 (run.foldl (fun b h => dropHold h b) b)))) ∧
    (windowAccepts 10 q n s.blk = true → fieldAt c 0 1 = 10 → checkHanks n none run b = none →
      (∀ h ∈ run, (getHank h b).holds < 65535) →
      exec (.windowHankRef q) s = onto s (settle (doneCell n (cellOf q) cOK 0
        (run.foldl (fun b h => setHank h { getHank h b with holds := (getHank h b).holds + 1 } b) b)))) ∧
    (∀ sk, slotSkein (q.addr.toNat / 8192) s.blk = some (n, sk) → q.addr.toNat / 8192 = q.skeinTag.toNat →
      q.addr.toNat / 8192 < s.blk.row.slots → q.read = false → q.size8 = true → 4352 ≤ q.addr.toNat % 8192 →
      q.addr.toNat % 8192 < 5376 → q.addr.toNat % 64 = 0 →
      let k := (q.addr.toNat % 8192 - 4352) / 64
      exec (.bucketSelectorWrite q) s = onto s (settle (modSkein n (fun sk => { sk with
        selectors := amPut 0 (2 * k) (BitVec.ofNat 32 (fieldAt q.data 0 8))
          (amPut 0 (2 * k + 1) (BitVec.ofNat 32 (fieldAt q.data 0 8 / 2 ^ 32)) sk.selectors),
        buckets := sk.buckets.filter fun e => e.1 / 64 != k }) s.blk)))

/-- While the block is awake and started, for a request q of a skein n that a warp port accepts for the block's own memory:
WARP_READ, WARP_WRITE and each of the ply rows ADD, MIN, MAX, AND, OR, XOR, SWAP and CAS, the last eight where PLYOP names their
operation, take the request with its key generation, twist and fence and start it on its line; what other requests then wait for
goes on. The model's choices it rests on: log entries 21, 124. (01_trust_unit, 03_sealed_memory, 06_ply_unit,
16_ports_and_delivery) -/
def Obligations.WarpRequestsStart : Prop :=
  ∀ (q : WarpReq) (n : Nat) (evs : MemEvs) (s : State), closed s.blk = false →
    let ply (op : Nat) (c : Instr) : Prop := warpAccepts .ply q n s.blk = true → (plyWord q.plyop).op = op →
      exec c s = fabric s (warpStarts .ply q n evs s.blk)
    (warpAccepts .read q n s.blk = true → exec (.warpRead q evs) s = fabric s (warpStarts .read q n evs s.blk)) ∧
    (warpAccepts .write q n s.blk = true → exec (.warpWrite q evs) s = fabric s (warpStarts .write q n evs s.blk)) ∧
    ply 1 (.plyAdd q evs) ∧ ply 2 (.plyMin q evs) ∧ ply 3 (.plyMax q evs) ∧ ply 4 (.plyAnd q evs) ∧ ply 5 (.plyOr q evs) ∧
    ply 6 (.plyXor q evs) ∧ ply 7 (.plySwap q evs) ∧ ply 8 (.plyCas q evs)

/-- For a ply word that is neither exact nor fetching, on a line that the absorber holds: the operation answers OK and changes the
held line to the elementwise result of the operation on its present value and the operand under the byte mask; its rounding
blocks and those of an open line run first, it counts as one applied operation of the skein, and elements that saturate are
counted. The model's choices it rests on: log entries 33, 34, 37. (06_ply_unit) -/
def Obligations.PlyOnAHeldLine : Prop :=
  ∀ (evs : MemEvs) (n : Nat) (w : PlyWord) (addr : Nat) (mask tag : BitVec 64) (kr : Key) (opnd : Line) (b : Block) (e : AbsEntry),
    absHeld (addr / 64 * 64) b = some e → w.exact = false → w.fetch = false →
    let held := absRead false e (submitRound n e.keyId (addr / 64 * 64) w.fmt w.rnd b)
    let res := plyReduce w (roundBits kr tag (addr / 64 * 64) w.srStep) mask held.1 opnd
    let b' := absChange (addr / 64 * 64) (fun e => { e with acc := none, data := res.1 }) held.2
    plyOnEntry evs n w addr mask tag kr opnd b = (cOK, 0, countPly n w (if res.2 = 0 then b' else bumpSk n 104 res.2 b'))

/-- MEMORY_READ_RETURN for a read outstanding with that tag on that lane, whose fetch is known, ends the read, presents the oldest
read of the lane that waited for a tag, enters the line into its fetch and uses the fetch. MEMORY_WRITE_ACCEPT ends the oldest
write of the lane, and completes the request that waited for it. ABSORBER_WINDOW_CLOSE of a held entry whose window has run out,
changed since its last write-back, writes the line back and opens one further window, at whose end the entry is clean. The
model's choices it rests on: log entries 4, 21, 23, 129, 130. (03_sealed_memory, 06_ply_unit, 16_ports_and_delivery) -/
def Obligations.MemoryAnswersComplete : Prop :=
  ∀ (s : State) (evs : MemEvs),
    (∀ (lane mtag : BitVec 8) (data : Line) (ue ce : Bool) (r : MRead) (f : Fetch),
      (s.blk.mem.reads.find? fun r => physLane r.key == lane.toNat && r.mtag == mtag.toNat && decide (mtag.toNat < 256)) = some r →
      let b := issueWaiting lane.toNat (setMem (fun m => { m with reads := m.reads.erase r }) s.blk)
      let ret : Ret := { data := data, ue := ue, ce := ce }
      let b' := setMem (fun m => { m with fetches := m.fetches.map fun f =>
        if f.id = r.fetch then (if r.isMac then { f with mac := some ret } else { f with data := some ret }) else f }) b
      (b'.mem.fetches.find? fun f => f.id = r.fetch) = some f →
      exec (.memoryReadReturn lane mtag data ue ce evs) s = fabric s (pumpAll evs (fetchDone evs f b'))) ∧
    (∀ (lane : BitVec 8) (w : MWrite) (id : Nat) (t : Txn), (s.blk.mem.writes.find? fun w => physLane w.key == lane.toNat) = some w →
      w.purpose = .txn id → let b := setMem (fun m => { m with writes := m.writes.erase w }) s.blk
      findTxn id b = some t → exec (.memoryWriteAccept lane) s = fabric s (pumpAll [] (awaitAccept t b))) ∧
    (∀ (line : BitVec 52) (e : AbsEntry) (at' : Nat), absHeld (line.toNat / 64 * 64) s.blk = some e → e.closeAt = some at' →
      at' ≤ s.blk.tick → e.idle = false →
      exec (.absorberWindowClose line evs) s = fabric s (pumpAll evs (modAbs (line.toNat / 64 * 64) (fun e => { e with
        idle := true, closeAt := some (s.blk.tick + plyTicks s.blk) }) (absWriteBack evs e s.blk))))

/-- For a descriptor d of a skein n's ring that is fetched, passes every check and starts at once, with x the descriptor it becomes
and b the block in which it runs: KEY_INSTALL reads its blob from the host; one whose blob agrees with it, opens under the
skein's TPK with a new serial and installs, on a free key ladder, completes with OK (and the key ID for a memory key), with the
serial recorded. KEY_ROTATE without a blob, or with a blob that agrees and opens, on a free ladder, starts the rotation of its
key. KEY_ROTATE with EPOCH (DESCRIPTOR_ADVANCE) of a class E key whose region advances by descriptor queues its advance and
makes the oldest one of the region. KEY_RETIRE retires its key and completes with OK. KEY_RETIRE with TRANSFER takes the
transfer key from the skein, keeps it only for messages accepted before, and completes with OK. The model's choices it rests on:
log entries 9, 47, 48, 91, 145, 146. (10_keys_and_crypto_services, 04_epoch_boot_and_sealing) -/
def Obligations.KeyDescriptorsComplete : Prop :=
  ∀ (n : Nat) (d : Line) (blob : Bytes) (s : State),
    (WhenRuns (.skein n) d 0x20 (keyInstallChecks (.skein n) d) (.keyInstall (.skein n) d blob) (fun _ => []) s fun x b out =>
      ∀ (sk : Skein) (mat : Key) (k : Nat) (b' : Block), let c := readHost (some n) (fieldAt d 32 8) blob.length b
        let e := ladderUnits x blob (takeLadder 1 c)
        ((getSkein n c).bind (·.tpk)).isSome = true → blobAgrees n d blob = true → ladderFree c = true →
        (kiKind d ≠ 1 ∨ trngStopped c = false) → getSkein n e = some sk → openBlob sk blob = .ok mat →
        installBlob n blob mat e = (cOK, k, b') →
        out = completes s x cOK (if leField blob 0 1 = 0 then resAt 12 2 k else 0) (recordSerial n blob b')) ∧
    (WhenRuns (.skein n) d 0x21 (keyRotateChecks (.skein n) d) (.keyRotate (.skein n) d blob) (fun _ => []) s fun x b out =>
      rotateWaits d s.blk = false → checkKey n (fieldAt d 16 2) b = none → krEpoch d = false →
        (krBlob d = false → ladderFree b = true →
          out = onto s (settle (rotateKey (some x.id) (fieldAt d 16 2) none (setPhase x.id .effected (takeLadder 1 b))))) ∧
        (∀ (sk : Skein) (e : KeyEntry) (mat : Key), let c := readHost (some n) (fieldAt d 32 8) blob.length b
          let u := ladderUnits x blob (takeLadder 1 c)
          krBlob d = true → ((getSkein n c).bind (·.tpk)).isSome = true → getKey (fieldAt d 16 2) c = some e →
          rotateBlobAgrees n e.cls blob = true → ladderFree c = true → getSkein n u = some sk → openBlob sk blob = .ok mat →
          out = onto s (settle (rotateKey (some x.id) (fieldAt d 16 2) (some mat)
            (setPhase x.id .effected (recordSerial n blob u)))))) ∧
    (WhenRuns (.skein n) d 0x21 (keyRotateChecks (.skein n) d) (.descriptorAdvance (.skein n) d) (fun _ => []) s fun x b out =>
      ∀ (e : KeyEntry) (g : Region), rotateWaits d s.blk = false → checkKey n (fieldAt d 16 2) b = none → krEpoch d = true →
        getKey (fieldAt d 16 2) b = some e → e.cls = .E → amGet e.region b.mem.regions = some g → g.adv = 0 →
        out = onto s (settle (advanceNext e.region (setMem (fun m => { m with
          regions := amMod e.region (fun r => { r with advs := r.advs ++ [some x.id] }) m.regions }) b)))) ∧
    (WhenRuns (.skein n) d 0x22 (keyRetireChecks (.skein n) d) (.keyRetire (.skein n) d) (fun _ => []) s fun x b out =>
      (fieldAt d 18 1).testBit 0 = false → checkKey n (fieldAt d 16 2) b = none →
        out = completes s x cOK 0 (retireKey (some x.id) (fieldAt d 16 2) b)) ∧
    (WhenRuns (.skein n) d 0x22 (keyRetireChecks (.skein n) d) (.transferKeyRetire (.skein n) d) (fun _ => []) s fun x b out =>
      ∀ t, (fieldAt d 18 1).testBit 0 = true → ((getSkein n b).bind fun s => amGet (fieldAt d 19 1) s.tkeys) = some t →
        out = completes s x cOK 0 (retireTkey n (fieldAt d 19 1) t b))

/-- For every state: EPOCH_ADVANCE of a region that has a descriptor's advance waiting, and that has made none in this tick, takes
the oldest one, advances the region and completes the descriptor with OK, or QUOTA at the top of the range. TRNG_HEALTH_FAIL
while output is not stopped counts the discarded block, and at the third consecutive one also stops output, sets NO_ENTROPY and
reports a fault of class 3. TRNG_RESTART with the start-up samples passed, 1,000 ticks after the stop or later, resumes output.
DRBG_RESEED when 65,536 calls or 100,000 ticks have passed restarts both counts. KEY_LADDER_GRANT gives the engine to the
manager in its turn, for the swap-in or the swap-out of the skein that waits there first, else to the oldest waiting descriptor
of the firmware, else to nobody. The model's choices it rests on: log entries 47, 52. (10_keys_and_crypto_services,
04_epoch_boot_and_sealing) -/
def Obligations.EntropyAndLadderEventsComplete : Prop :=
  ∀ (s : State) (evs : MemEvs),
    (∀ (region : BitVec 10) (g : Region) (d : Nat) (ds : List (Option Nat)) (x : Desc), amGet region.toNat s.blk.mem.regions = some g →
      g.advs = some d :: ds → mayAdvance region.toNat s.blk = true →
      let b := setMem (fun m => { m with regions := amMod region.toNat (fun x => { x with advs := x.advs.drop 1 }) m.regions }) s.blk
      findDesc d (advanceRegion region.toNat b).2 = some x →
      exec (.epochAdvance region) s =
        completes s x (if (advanceRegion region.toNat b).1 then cOK else cQuota) 0 (advanceRegion region.toNat b).2) ∧
    (∀ (consecutive : Bool), s.blk.srv.trng.stopped = none →
      let n := if consecutive then s.blk.srv.trng.discards + 1 else 1
      let b := setSrv (fun v => { v with trng := { v.trng with discards := n } }) s.blk
      let b' := setDst 7 true (setSrv (fun v => { v with trng := { v.trng with stopped := some s.blk.tick } }) b)
      (n < 3 → exec (.trngHealthFail consecutive) s = onto s (settle b)) ∧
      (3 ≤ n → exec (.trngHealthFail consecutive) s =
        onto s (settle (raiseViews { cls := 3, fault := (faultRecord { kind := 0x0B, aclass := 3 } b').1 }
          (faultRecord { kind := 0x0B, aclass := 3 } b').2)))) ∧
    (∀ (t : Nat), s.blk.srv.trng.stopped = some t → t + 1000 ≤ s.blk.tick →
      exec (.trngRestart true) s =
        onto s (settle (setDst 7 false (setSrv (fun v => { v with trng := { v.trng with stopped := none, discards := 0 } }) s.blk)))) ∧
    (s.blk.srv.trng.stopped = none →
      (s.blk.srv.trng.reseedDraws + 65536 ≤ s.blk.draws ∨ s.blk.srv.trng.reseedTick + 100000 ≤ s.blk.tick) →
      exec .drbgReseed s = onto s (setSrv (fun v => { v with trng := { v.trng with
        reseedDraws := s.blk.draws, reseedTick := s.blk.tick, reseeds := v.trng.reseeds + 1, discards := 0 } }) s.blk)) ∧
    (∀ (n since : Nat) (ws : List (Nat × Nat)) (sk : Skein), s.blk.ladder.mgrWait = (n, since) :: ws →
      (s.blk.ladder.fwWait = [] ∨ s.blk.ladder.lastMgr = false) → getSkein n (grantManager since ws s.blk) = some sk →
      (sk.st = .swapped → sk.slot.isSome = true →
        exec (.keyLadderGrant evs) s = onto s (settle (swapInEnd evs n (grantManager since ws s.blk)))) ∧
      (sk.st = .quiesced → sk.drains.any (·.atLadder) = true →
        exec (.keyLadderGrant evs) s = onto s (settle (swapOutEnd evs n (grantManager since ws s.blk))))) ∧
    (∀ (i : Nat) (is : List Nat) (x : Desc), s.blk.ladder.fwWait = i :: is →
      (s.blk.ladder.mgrWait = [] ∨ s.blk.ladder.lastMgr = true) → findDesc i (grantFirmware is s.blk) = some x →
      exec (.keyLadderGrant evs) s = onto s (settle (ladderStep x (grantFirmware is s.blk)))) ∧
    (s.blk.ladder.fwWait = [] → s.blk.ladder.mgrWait = [] →
      exec (.keyLadderGrant evs) s = onto s (settle { s.blk with ladder := { s.blk.ladder with owner := 0 } }))

/-- For every state: REEL_PASS_START with no pass under way and a change queued that is not deferred makes a pass of all such
changes, from mark 0, at the least of their rates, with a new twist key drawn for each retwisted zone. REEL_WINDOW_TAKE, where
tier 6 is not cut, enters the hank of the next window in scope and holds the window. REEL_WINDOW_RELEASE of a drained window
writes back its absorber entries, rewrites it and releases it. REEL_PASS_END with no window in scope left ends the pass.
HANK_ZEROING zeroes the hank that entered ZEROING first, where no re-initialisation is ahead of it, which becomes FREE, or
QUARANTINE_HELD where a quarantined range lies in it. QUARANTINE_REINIT re-initialises the first released hank whose ranges may
be re-initialised, where no zeroing is ahead of it. BITMAP_SWEEP clears and re-tags every empty bitmap word. SKEW_INTERVAL,
1,000 ticks after the last, bins the lanes and moves the skew counts, by TWS_SKEW as the interval began with it. RETWIST, where
it runs, queues its pass at its rate, or at the ceiling for 0. The model's choices it rests on: log entries 20, 26, 28, 91, 133,
135. (05_twist_hanks_reel, 03_sealed_memory, 04_epoch_boot_and_sealing) -/
def Obligations.ReelCommandsComplete : Prop :=
  ∀ (s : State) (evs : MemEvs),
    (s.blk.mem.reel.pass = [] → s.blk.mem.reel.taken = none → passChanges s.blk ≠ [] →
      exec .reelPassStart s = onto s (settle ((passZones s.blk).foldl drawTk (setMem (fun m => { m with reel := { m.reel with
        pass := passChanges s.blk, queue := m.reel.queue.filter (·.deferred), mark := 0, rate := passRate s.blk } }) s.blk)))) ∧
    (∀ w, s.blk.mem.reel.pass ≠ [] → s.blk.mem.reel.taken = none → reelCut s.blk = false → nextWindow s.blk = some w →
      inScope w (enterHank evs w s.blk) = true →
      exec (.reelWindowTake evs) s = fabric s (takeWindow evs w (enterHank evs w s.blk))) ∧
    (∀ w, s.blk.mem.reel.taken = some w → windowDrained w s.blk = true →
      exec (.reelWindowRelease evs) s = fabric s (releaseWindow evs w (rewriteWindow evs w (writeBackWindow evs w s.blk)))) ∧
    (s.blk.mem.reel.pass ≠ [] → s.blk.mem.reel.taken = none → nextWindow s.blk = none →
      exec .reelPassEnd s = onto s (settle (endPass s.blk.mem.reel.pass s.blk))) ∧
    (∀ (h : Nat) (x : Hank), reelWorks s.blk = true → firstZeroing s.blk = some (h, x) →
      (∀ r, firstReinit s.blk = some r → x.order ≤ reinitOrder r.1 s.blk) →
      let b := zeroHank evs h x.cls s.blk
      (getHank h b).st ≠ .retired →
      exec (.hankZeroing evs) s = onto s (settle (if hankQuarantined h b then setHank h { getHank h b with st := .quarHeld } b
        else retryCells (freeHank h b)))) ∧
    (∀ (h : Nat) (x : Hank), reelWorks s.blk = true → firstReinit s.blk = some (h, x) →
      (∀ z, firstZeroing s.blk = some z → reinitOrder h s.blk ≤ z.2.order) →
      exec (.quarantineReinit evs) s =
        onto s (settle (retryCells (reinit evs (reinitWork h s.blk).1 (reinitWork h s.blk).2 s.blk)))) ∧
    exec .bitmapSweep s = onto s (settle (setMem (fun m => { m with
      words := (m.words.map fun e => match wordRegion e.1 s.blk with
        | none => e
        | some r => (e.1, sweepPair r.epoch e.2)).filter fun e => decide (e.2 ≠ {}) }) s.blk)) ∧
    (∀ (occ : List (BitVec 8)), s.blk.mem.skewSince + 1000 ≤ s.blk.tick →
      let b := (List.range (16 * s.blk.row.stackCount)).foldl (binLane occ) (setMem (fun m => { m with skewSince := s.blk.tick }) s.blk)
      exec (.skewInterval occ) s = onto s (settle (setRegs (fun r => { r with skewNow := r.twsSkew })
        ((b.mem.lay.zones.filter fun m => !m.dedicated).foldl (skewZone occ) b)))) ∧
    (∀ (r : Ring) (d : Line), WhenRuns r d 0x50 (retwistChecks d) (.retwist r d) (fun _ => []) s fun x b out =>
      reelFull s.blk = false →
      out = onto s (settle (setPhase x.id .effected (setMem (fun m => { m with reel := { m.reel with queue := m.reel.queue ++
        [{ change := .retwist (fieldAt d 16 1) (if fieldAt d 18 2 = 0 then b.row.reelCeiling else fieldAt d 18 2) (some x.id),
           deferred := false, mat := none }] } }) b))))

/-- For a SEAL_OUT or SEAL_IN descriptor d of a ring r that runs, with x the descriptor it becomes and b the block in which it runs:
SEAL_OUT with ARM of a region without a seal, with fewer than 64 seals armed, lists the armed seal. SEAL_OUT with FIRE of an
armed seal of exactly its range, of a PREEMPTIBLE skein that is neither SWAPPED nor DESTROYING, gives the seal its fire time.
SEAL_IN of a region whose record agrees and whose lines all verify, with its resume fence, signals the fence and completes with
the lines restored. And for every state: SEAL_FIRE_TIME of a fired seal whose time has come, whose region is live and may
advance, and whose lines are all sealed, advances the region, zeroes the scratchpad and counts the bytes. SEAL_OUT_END of a
moved seal whose record line is written leaves the seal unconsumed and completes the SEAL_OUT and then the FIRE with OK and the
lines. The model's choices it rests on: log entries 20, 61, 62, 63, 64, 65, 131. (04_epoch_boot_and_sealing) -/
def Obligations.SealCommandsComplete : Prop :=
  ∀ (s : State) (r : Ring) (d : Line) (evs : MemEvs),
    (WhenRuns r d 0x18 (sealOutChecks r d) (.sealArm r d) (fun _ => []) s fun x b out =>
      soArm d = true → regionTaken (soKey d) (dropStale b) = false →
      ((dropStale b).srv.seals.filter fun s => s.st == .armed).length < 64 →
      out = onto s (settle (setSrv (fun v => { v with seals := v.seals ++ [armedSeal x] }) (dropStale b)))) ∧
    (WhenRuns r d 0x18 (sealOutChecks r d) (.sealFire r d) (fun _ => []) s fun x b out =>
      ∀ (sk : Skein) (t : Seal), soArm d = false → getSkein (soWord d) (dropStale b) = some sk → sk.preemptible = true →
      sk.st ≠ .swapped → sk.st ≠ .destroying →
      ((dropStale b).srv.seals.find? fun s => s.skein == soWord d && s.st == .armed && s.base == soBase d && s.lines == soLines d) = some t →
      out = onto s (settle (setSeal t.desc (.fired x.id (BitVec.ofNat 64 (soValue d))) (dropStale b)))) ∧
    (∀ (serr : Option (BitVec 32)), WhenRuns r d 0x19 (sealInChecks r d) (.sealIn r d serr evs) (fun _ => []) s fun x b out =>
      ∀ (i : Nat) (g : Region) (rec : Line) (c c' : Block) (y : Resume), checkKey ((ringOwner r).getD 0) (fieldAt d 16 2) b = none →
      sealRegion (fieldAt d 16 2) b = some (i, g) → b.srv.resumes.find? (fun y => y.region == i) = some y →
      regionLines (fieldAt d 16 2) (consumeSeal i b) ≠ 0 →
      getLine evs (sealWork d) (regionLine (fieldAt d 16 2) 0 (consumeSeal i b)) (consumeSeal i b) = (.ok rec, c) →
      recordAgrees ((ringOwner r).getD 0) (fieldAt d 16 2) g (genNum ((getKey (fieldAt d 16 2) c).bind (·.cur))) rec c = true →
      scratchBad (fieldAt d 24 8) (fieldAt rec 16 4) = false →
      unsealLines evs (sealWork d) (fieldAt d 16 2) (fieldAt d 24 8) (serr.map (·.toNat)) (fieldAt rec 16 4) 0 c = (fieldAt rec 16 4, cOK, c') →
      let m := countSeal ((ringOwner r).getD 0) 888 (fieldAt rec 16 4) c'
      out = completes s x (signalFence (some ((ringOwner r).getD 0)) y.fence y.value m).1 (resAt 12 4 (fieldAt rec 16 4))
        (signalFence (some ((ringOwner r).getD 0)) y.fence y.value m).2) ∧
    (∀ (n : BitVec 10) (base : BitVec 40) (scratch : List Line) (serr : Option (BitVec 32)) (t : Seal) (fire i : Nat) (time : BitVec 64)
      (g : Region) (c' : Block),
      s.blk.srv.seals.find? (fireDue n.toNat base.toNat s.blk) = some t → t.st = .fired fire time →
      let c := sampleTime 0x19 0 s.blk
      regionBar t c = none → sealRegion t.keyId c = some (i, g) → (advanceRegion i c).1 = true →
      sealLines evs (armWork t (advanceRegion i c).2) t.keyId scratch (serr.map (·.toNat)) t.lines 0 (advanceRegion i c).2 = (t.lines, cOK, c') →
      exec (.sealFireTime n base scratch serr evs) s = onto s (settle (setSeal t.desc (.moving fire c.tim.t c.tim.quality)
        (countSeal t.skein 880 t.lines (zeroScratch t.base t.lines c'))))) ∧
    (∀ (n : BitVec 10) (base : BitVec 40) (t : Seal) (fire i q : Nat) (stamp : BitVec 64) (g : Region) (c : Block),
      s.blk.srv.seals.find? (movingAt n.toNat base.toNat) = some t →
      t.st = .moving fire stamp q → regionBar t s.blk = none → sealRegion t.keyId s.blk = some (i, g) →
      putLine evs (armWork t s.blk) (regionLine t.keyId 0 s.blk)
        (sealRecord t g.epoch (genNum ((getKey t.keyId s.blk).bind (·.cur))) stamp q) fullMask s.blk = (cOK, c) →
      exec (.sealOutEnd n base evs) s =
        onto s (settle (sealAnswer fire cOK t.lines (sealAnswer t.desc cOK t.lines (endSeal t i c)))))

/-- For a descriptor d of a skein n's ring that runs with a context free, with x the descriptor it becomes and b the block in which
it runs: IMPORT of a message whose preamble and slot kind are good reads the preamble and opens a context at the message's first
block, under its transfer key. EXPORT uses one N of its transfer key, writes the header to the host and opens a context under
the derived key. DIGEST of a range that reads whole extends its slot by the measured root, writes the root where DEST is not 0,
and completes with OK. AEAD_MESSAGE_END of the message that the service runs, whose blocks are all moved, frees its context; an
EXPORT then writes its tag after the ciphertext and completes with OK, N and the bytes written; an IMPORT whose tag is right,
with MEAS_KIND 0, completes with OK and the bytes moved; one whose tag is not completes with AUTH_FAIL. The model's choices it
rests on: log entries 20, 66, 67, 145. (10_keys_and_crypto_services, 02_whorl_array) -/
def Obligations.MessageCommandsComplete : Prop :=
  ∀ (n : Nat) (d : Line) (msg : Bytes) (evs : MemEvs) (s : State),
    (let s' : State := { s with blk := dropStale s.blk }
     runsNow (.skein n) d 0x10 (importChecks (.skein n) d) (.importMsg (.skein n) d msg evs) (rangeUses 40 d) s'.blk = true →
      messageWaits (.skein n) d s'.blk = false →
      let x := accDesc (.skein n) d (.importMsg (.skein n) d msg evs) (rangeUses 40 d) s'.blk
      let b := accBlk (.skein n) d (.importMsg (.skein n) d msg evs) (rangeUses 40 d) s'.blk
      ∀ (t : TransferKey), tkeyOf n (fieldAt d 16 1) b = some t → leField msg 12 4 = 0 →
      (fieldAt d 18 1 = 0 ∨ kindClash n (fieldAt d 17 1) (fieldAt d 18 1) b = false) →
      exec (.importMsg (.skein n) d msg evs) s = onto s (settle (openMsg
        { desc := x.id, skein := n, level := msgLevel (.skein n) (fieldAt d 32 8) b, toHost := false, key := t.key, iv := sliceBytes msg 0 12,
          blocks := fieldAt d 32 8 / 16, acc := gcmHash t.key 0 (sliceBytes msg 16 16), aad := 16, addr := raAddr (fieldAt d 40 8),
          host := fieldAt d 24 8 + 32 }
        (readHost (some n) (fieldAt d 24 8) 32 (dropKept n (fieldAt d 16 1) b))))) ∧
    (let s' : State := { s with blk := dropStale s.blk }
     runsNow (.skein n) d 0x11 (exportChecks (.skein n) d) (.exportMsg (.skein n) d evs) (rangeUses 24 d) s'.blk = true →
      messageWaits (.skein n) d s'.blk = false →
      let x := accDesc (.skein n) d (.exportMsg (.skein n) d evs) (rangeUses 24 d) s'.blk
      let b := accBlk (.skein n) d (.exportMsg (.skein n) d evs) (rangeUses 24 d) s'.blk
      ∀ (t : TransferKey), tkeyOf n (fieldAt d 16 1) b = some t →
      let key := kdf (keyBytes t.key) "frexis export" (toBytes 16 t.rInst)
      let hdr := exportHeader t.rInst t.exportN (fieldAt d 32 8)
      let aad := hdr ++ toBytes 16 (BitVec.ofNat 128 (fieldAt d 48 16))
      exec (.exportMsg (.skein n) d evs) s = onto s (settle (openMsg
        { desc := x.id, skein := n, level := msgLevel (.skein n) (fieldAt d 32 8) b, toHost := true, key := key, iv := exportIv t.exportN,
          blocks := fieldAt d 32 8 / 16, acc := gcmHash key 0 aad, aad := aad.length, addr := raAddr (fieldAt d 24 8),
          host := fieldAt d 40 8 + 32 }
        (skeinWrite n (fieldAt d 40 8) hdr (dropKept n (fieldAt d 16 1) (nextExport n (fieldAt d 16 1) t b)))))) ∧
    (WhenRuns (.skein n) d 0x12 (digestChecks (.skein n) d) (.digest (.skein n) d evs) (rangeUses 24 d) s fun x b out =>
      ∀ (xs : List Line) (c : Block), kindClash n (fieldAt d 16 1) (fieldAt d 17 1) b = false →
      readLines evs (descWork d) (raAddr (fieldAt d 24 8)) (fieldAt d 32 8 / 64) b = (xs, cOK, c) →
      let root := measuredRoot (lineBytes xs)
      let c' := extendMeas n (fieldAt d 16 1) (fieldAt d 17 1) (fieldAt d 32 8) root c
      out = completes s x cOK 0 (if fieldAt d 40 8 = 0 then c' else skeinWrite n (fieldAt d 40 8) (toBytes 48 root) c')) ∧
    (∀ (r : Ring) (index : BitVec 16) (x : Desc) (m0 m : AeadMsg) (e : Block), let b := dropStale s.blk
      descAt r index b = some x → runningMsg b = some m0 → m0.desc = x.id → advanceMsg x (m0.blocks - m0.pos) m0 b = (m, e) → m.status = cOK →
      let c := setSrv (fun v => { v with aead := v.aead.filter fun y => y.desc != m.desc }) e
      let tag := gcmFinish m.key m.iv m.acc m.aad (16 * m.blocks)
      (m.toHost = true → exec (.aeadMessageEnd r index) s = completes s x cOK (resAt 16 8 (exportOf m) ||| resAt 24 8 (48 + m.moved))
        (skeinWrite m.skein (m.host + m.moved) tag c)) ∧
      (m.toHost = false → let c' := readHost (some m.skein) (m.host + 16 * m.blocks) 16 c
        let right := tag == sliceBytes (messageOf x.cmd).1 (32 + 16 * m.blocks) 16
        (right = true → fieldAt x.raw 18 1 = 0 → exec (.aeadMessageEnd r index) s = completes s x cOK (resAt 16 8 m.moved) c') ∧
        (right = false → exec (.aeadMessageEnd r index) s = completes s x cAuthFail (resAt 16 8 m.moved) c')))

/-- For a descriptor d of the manager's ring that runs, with n the skein it names, x the descriptor it becomes and b the block in
which it runs: SKEIN_CREATE of an index not defined, with a slot free and the quotas kept, defines the skein in a chosen free
slot and answers the slot. SHARE_SET of a skein not DESTROYING, with the quotas kept, replaces the selected shares and completes
with OK. SKEIN_QUIESCE begins the drain of a RESIDENT or QUIESCING skein, and answers OK for a QUIESCED one; MODE 1 resumes a
QUIESCING or QUIESCED skein, and MODE 2 begins the reset of a QUIESCED one, each once the followers that there are have agreed.
SKEIN_SWAP_OUT of a RESIDENT or QUIESCED skein that is not of the slot class begins its drain. SKEIN_SWAP_IN of a SWAPPED skein
that gets a slot, with the key ladder free, takes its key step. SKEIN_DESTROY destroys its skein. The model's choices it rests
on: log entries 9, 51, 55, 118, 136, 137. (09_skeins) -/
def Obligations.SkeinDescriptorsComplete : Prop :=
  ∀ (d : Line) (evs : MemEvs) (s : State),
    (WhenRuns .mgr d 0x40 (createChecks d) (.skeinCreate .mgr d) (fun _ => []) s fun x b out =>
      ∀ (s0 : Nat) (ss : List Nat), (getSkein (scId d) b).isNone = true → (scSlotClass d = true → (slotClassSkein b).isNone = true) →
      freeSlots b = s0 :: ss → createOver d b = false →
      let slot := (s0 :: ss).getD (choose (ss.length + 1) b).1 s0
      out = onto s (settle (packageDone x cOK (resAt 12 1 slot) false (createSkein d slot (choose (ss.length + 1) b).2)))) ∧
    (WhenRuns .mgr d 0x48 (shareChecks d) (.shareSet .mgr d) (fun _ => []) s fun x b out =>
      ∀ sk, getSkein (scId d) b = some sk → sk.st ≠ .destroying → sharesOver (scId d) (sharesSet d sk) b = false →
      out = completes s x cOK 0 (modSkein (scId d) (sharesSet d) b)) ∧
    (WhenRuns .mgr d 0x41 (quiesceChecks d) (.skeinQuiesce .mgr d evs) (fun _ => []) s fun x b out =>
      ∀ sk, getSkein (fieldAt d 16 2) b = some sk → sqMode d = 0 →
      (sk.st = .resident ∨ sk.st = .quiescing →
        out = onto s (settle (beginDrain .quiesce x (fieldAt d 16 2) (sqLimit d) evs sk b))) ∧
      (sk.st = .quiesced → out = onto s (settle (packageDone x cOK 0 false b)))) ∧
    (WhenRuns .mgr d 0x41 (quiesceChecks d) (.skeinResume .mgr d evs) (fun _ => []) s fun x b out =>
      ∀ sk, getSkein (fieldAt d 16 2) b = some sk → sqMode d = 1 → sk.st = .quiescing ∨ sk.st = .quiesced →
      (pkgWaits x.id b = [] → out = completes s x cOK 0 (resumeSkein (fieldAt d 16 2) b)) ∧
      (pkgWaits x.id b ≠ [] → out = onto s (settle (setPhase x.id .agreeing (openPkg x none (some b.tick) evs b))))) ∧
    (WhenRuns .mgr d 0x41 (quiesceChecks d) (.skeinReset .mgr d evs) (fun _ => []) s fun x b out =>
      ∀ sk, getSkein (fieldAt d 16 2) b = some sk → sqMode d = 2 → sk.st = .quiesced →
      (pkgWaits x.id b = [] → out = onto s (settle (resetSkein evs (fieldAt d 16 2) b))) ∧
      (pkgWaits x.id b ≠ [] → out = onto s (settle (setPhase x.id .agreeing (openPkg x none (some b.tick) evs b))))) ∧
    (WhenRuns .mgr d 0x43 (swapOutChecks d) (.skeinSwapOut .mgr d evs) (fun _ => []) s fun x b out =>
      ∀ sk, getSkein (fieldAt d 16 2) b = some sk → sk.slotClass = false →
      sk.st = .resident ∨ sk.st = .quiesced →
      out = onto s (settle (beginDrain .swapOut x (fieldAt d 16 2) (fieldAt d 20 2) evs sk b))) ∧
    (WhenRuns .mgr d 0x44 (swapInChecks d) (.skeinSwapIn .mgr d evs) (fun _ => []) s fun x b out =>
      ∀ c, (getSkein (fieldAt d 16 2) b).map (·.st) = some .swapped → takeSlot (fieldAt d 16 2) b = (cOK, c) →
      pkgWaits x.id c = [] → ladderFree c = true → out = onto s (settle (swapInEnd evs (fieldAt d 16 2) (takeLadder 2 c)))) ∧
    (WhenRuns .mgr d 0x42 (destroyChecks d) (.skeinDestroy .mgr d evs) (fun _ => []) s fun x b out =>
      ∀ sk, getSkein (fieldAt d 16 2) b = some sk → sk.st ≠ .destroying →
      out = onto s (settle (destroySkein (some x) evs (fieldAt d 16 2) (openPkg x none none [] b))))

/-- For every state and skein n: SKEIN_RESET_DONE of a RESETTING skein makes it QUIESCED, unfreezes its evidence and answers its
reset. SKEIN_RESET_TIMEOUT 100,000 ticks after the reset began destroys the skein and answers TIMEOUT. QUIESCE_LIMIT_EXPIRY of
one drain that is due marks it late and answers its descriptor with TIMEOUT. DRAIN_COMPLETE of a drained QUIESCING skein,
acknowledged by the followers and not being resumed, makes it QUIESCED, and of a drained DESTROYING one ends the destroy.
DRAIN_LIMIT_EXPIRY of a destroy whose limit has passed ends it, while no fired seal runs and the Reel holds no window of the
skein. ALL_BLOCKED_RULE where the rule applies begins to swap the victim out and then the chosen skein in. FOLLOWER_ACK takes
the follower out of those waited for, and the last one completes an operation that is done here, or lets one that waited be
applied here. PACKAGE_OP_TIMEOUT at its time undoes the operation and answers TIMEOUT. The model's choices it rests on: log
entries 53, 54, 100, 136, 137. (09_skeins, 00_scope) -/
def Obligations.SkeinEventsComplete : Prop :=
  ∀ (s : State) (n : BitVec 10) (evs : MemEvs),
    (∀ sk x, getSkein n.toNat s.blk = some sk → sk.st = .resetting →
      let b := setSkSt n.toNat .quiesced (modSkein n.toNat (fun s => { s with frozen := none }) s.blk)
      resetDesc n.toNat b = some x → exec (.skeinResetDone n) s = completes s x cOK 0 b) ∧
    (∀ sk x, getSkein n.toNat s.blk = some sk → sk.st = .resetting → sk.resetSince + 100000 ≤ s.blk.tick →
      resetDesc n.toNat s.blk = some x →
      exec (.skeinResetTimeout n evs) s = completes s x cTimeout 0 (destroyNow evs n.toNat s.blk)) ∧
    (∀ sk dr i x, getSkein n.toNat s.blk = some sk → sk.drains.filter (drainDue sk.st s.blk.tick) = [dr] → dr.desc = some i →
      let late (d : Drain) : Drain := if drainDue sk.st s.blk.tick d then { d with late := true, desc := none } else d
      let b := modSkein n.toNat (fun s => { s with drains := s.drains.map late }) s.blk
      findDesc i b = some x → (complete x cTimeout 0 b).descs.filter (heldDue n.toNat (complete x cTimeout 0 b)) = [] →
      exec (.quiesceLimitExpiry n) s = completes s x cTimeout 0 b) ∧
    (∀ sk, getSkein n.toNat s.blk = some sk → drained n.toNat s.blk = true →
      (sk.st = .quiescing → resuming n.toNat s.blk = false → acked sk.drains s.blk = true →
        exec (.drainComplete n evs) s = onto s (settle (endQuiesce evs n.toNat sk.drains s.blk))) ∧
      (sk.st = .destroying → sealRuns n.toNat s.blk = false → reelHolds n.toNat s.blk = false →
        exec (.drainComplete n evs) s = onto s (settle (endDestroy evs n.toNat s.blk)))) ∧
    (∀ sk dr, getSkein n.toNat s.blk = some sk → sk.st = .destroying → dr ∈ sk.drains → dr.kind = .destroy → dr.deadline ≤ s.blk.tick →
      sealRuns n.toNat s.blk = false → reelHolds n.toNat s.blk = false →
      exec (.drainLimitExpiry n evs) s = onto s (settle (endDestroy evs n.toNat
        (modSkein n.toNat (fun s => { s with drains := s.drains.map fun d => { d with late := true } }) s.blk)))) ∧
    (∀ since waiter chosen victim vs, s.blk.rule = none → allBlocked s.blk = true → ruleChosen s.blk = some (since, waiter, chosen) →
      ruleVictim s.blk = some (victim, vs) →
      exec (.allBlockedRule evs) s = onto s (settle (ruleNext evs (beginRule evs waiter chosen victim vs s.blk)))) ∧
    (∀ (index : BitVec 16) (die : BitVec 2) p, (s.blk.fab.pkgOps.find? fun p => p.index == index && p.waits.contains die.toNat) = some p →
      let ws := p.waits.filter fun d => d != die.toNat
      let b := setFab (fun f => { f with pkgOps := f.pkgOps.map fun q => if q.desc = p.desc then { p with waits := ws } else q }) s.blk
      (ws ≠ [] → exec (.followerAck index die) s = onto s (settle b)) ∧
      (ws = [] → p.drain = none → ∀ x, findDesc p.desc b = some x →
        (∀ st res forced, x.phase = .followers st res forced →
          exec (.followerAck index die) s = onto s (settle (completeF x st res forced (dropPkg p.desc b)))) ∧
        (x.phase = .agreeing → exec (.followerAck index die) s =
          onto s (settle (applyOp p.evs { x with phase := .running } (setPhase x.id .running (dropPkg p.desc b))))))) ∧
    (∀ (index : BitVec 16) p x, (s.blk.fab.pkgOps.find? fun p => p.index == index && p.since.any fun t => decide (t + p.limit ≤ s.blk.tick)) = some p →
      findDesc p.desc s.blk = some x → dOpcode x.raw ≠ 0x42 →
      exec (.packageOpTimeout index evs) s = completes s x cTimeout 0 (undoOp evs x (dropPkg p.desc s.blk)))

/-- For a descriptor d of a ring r that runs, with x the descriptor it becomes and b the block in which it runs: EVIDENCE of a skein
that can give it, with entropy, writes the signed record to the host and completes with its length. PLY_CHECK with LENGTH not 0,
fewer than 16 standing checks or no PERIOD, of ranges that read whole, completes with WINDOW and the digests, and with PERIOD
leaves a standing check. STANDING_CHECK_END (LENGTH 0) of a standing check on BASE_A ends every such check and completes with
OK. TRACE_MARK writes its mark to the spool, triggers where asked and allowed, and completes with OK. For every state awake:
STANDING_CHECK_REPEAT of a due check moves its due time on, and reports ranges that differ. CARDER_PASS_START when due begins a
pass at the first hank, or counts the pass as skipped while one runs. The model's choices it rests on: log entries 20, 77, 102,
103, 106. (11_evidence_and_life_cycle, 13_faults_and_recovery, 15_counters_and_spool) -/
def Obligations.EvidenceAndCarderComplete : Prop :=
  ∀ (r : Ring) (d : Line) (evs : MemEvs) (s : State),
    (WhenRuns r d 0x28 (fun _ => evidenceChecks d) (.evidence r d) (fun _ => []) s fun x b out =>
      ∀ sk, let n := (ringOwner r).getD 0
      trngStopped b = false → evSkein n b = some sk →
      let e := evRecord n sk (toBytes 32 (BitVec.ofNat 256 (fieldAt d 24 32))) b
      out = completes s x cOK (resAt 12 4 e.1.length) (skeinWrite n (fieldAt d 16 8) e.1 e.2)) ∧
    (WhenRuns r d 0x30 (plyCheckChecks r d) (.plyCheck r d evs) (fun _ => pcHanks d) s fun x b out =>
      ∀ w win da db c, pcLen d ≠ 0 → (pcPeriod d = 0 ∨ (standingOf r b).length < 16) → skeinWeft ((ringOwner r).getD 0) b = some w →
      compareRanges evs (descWork d) w d b = (.ok (win, da, db), c) →
      out = completes s x cOK (resAt 12 4 win ||| resAt 16 8 da.toNat ||| resAt 24 8 db.toNat)
        (if pcPeriod d = 0 then c else { c with standing := c.standing ++ [standingOn x c] })) ∧
    (WhenRuns r d 0x30 (plyCheckChecks r d) (.standingCheckEnd r d) (fun _ => pcHanks d) s fun x b out =>
      pcLen d = 0 → (b.standing.any fun c => c.ring == r && pcA c.raw == pcA d) = true →
      out = completes s x cOK 0 { b with standing := b.standing.filter fun c => !(c.ring == r && pcA c.raw == pcA d) }) ∧
    (WhenRuns r d 0x38 (markChecks d) (.traceMark r d) (fun _ => []) s fun x b out =>
      let c := spoolPut 2 5 (ownerOf (ringOwner r)) (putAt 128 0 8 (fieldAt d 16 8)) b
      out = completes s x cOK 0 (if (fieldAt d 24 1).testBit 0 && c.regs.splCtrl.getLsbD 48 then spoolTrigger 1 c else c)) ∧
    (∀ (n : BitVec 10) (base : BitVec 64) c w win da db b', asleep s.blk = false →
      (s.blk.standing.find? fun c => c.ring == .skein n.toNat && pcA c.raw == base.toNat && decide (c.due ≤ s.blk.tick)) = some c →
      skeinWeft n.toNat s.blk = some w → compareRanges evs carderWork w c.raw (nextCheck c s.blk) = (.ok (win, da, db), b') →
      exec (.standingCheckRepeat n base evs) s =
        onto s (settle (if win = 0xFFFFFFFF then b' else checkMismatch n.toNat base.toNat b'))) ∧
    (asleep s.blk = false → s.blk.dst.started = true → s.blk.regs.fltCarder.getLsbD 0 = true →
      s.blk.dst.carderAt.getD 0 + bitField s.blk.regs.fltCarder 31 16 * 1000000 ≤ s.blk.tick →
      let b := setDistaff (fun d => { d with carderAt := some s.blk.tick }) s.blk
      exec (.carderPassStart evs) s = onto s (settle (if s.blk.dst.carder then bumpHealth 56 1 b
        else setDistaff (fun d => { d with carder := true, carderMark := 0, carderEvs := evs }) b)))

/-- For a message of group 0x70 that is served for an operator: POLICY_SET stores the policy and answers OK; COUNTER_READ answers
4,096 bytes of its section from its offset; MONITOR_SET of a monitor from 4 on with a listed probe and index stores both,
empties the monitor and answers OK; MONITOR_READ answers the monitor's record and empties it with CLEAR; SPOOL_TRIGGER answers
OK and triggers. For every block that is awake and started: SNAPSHOT when a period has passed writes the sections, the STAMP
last. SPOOL_WINDOW_CLOSE closes a window whose post part is full or whose POST_MS has passed. SPOOL_IMAGE_WRITE writes a closed
window that is no dump; HANG_DUMP_WRITE writes a dump and erases the dump slots; DUMP_SLOT_ERASE at its time erases them. The
model's choices it rests on: log entries 15, 56, 59, 106, 107. (15_counters_and_spool, 08_standard_ports) -/
def Obligations.TelemetryCommandsComplete : Prop :=
  ∀ (path : BitVec 2) (sess : BitVec 32) (msg : Bytes) (s : State),
    let p := path.toNat
    let b := s.blk
    let i := leField msg 4 1
    (groupServed .operator 0x70 1 p sess msg 5 (decide (7 < i)) b = true →
      exec (.policySet path sess msg) s = onto s (groupStatus p 0x70 1 cOK (setTel (fun t => { t with policy := i }) b))) ∧
    (let off := leField msg 8 4
     let size := if i = 0 then 4096 else if i = 1 then 16384 else 8192
     groupServed .operator 0x70 2 p sess msg 12 (decide (2 < i) || !restZero msg 5 8 || off % 4096 != 0 || decide (size ≤ off)) b = true →
      exec (.counterRead path sess msg) s =
        onto s (groupAnswer p 0x70 2 cOK (zeroBytes 11 ++ sliceBytes (sectionOf i b) off 4096) b)) ∧
    (groupServed .operator 0x70 3 p sess msg 8 (decide (47 < i)) b = true → 4 ≤ i →
      probeIndexOk (leField msg 5 1) (leField msg 6 2) b = true →
      exec (.monitorSet path sess msg) s = onto s (groupStatus p 0x70 3 cOK
        (putMonitor i { probe := leField msg 5 1, index := leField msg 6 2 } b))) ∧
    (groupServed .operator 0x70 4 p sess msg 6 (decide (47 < i) || decide (1 < leField msg 5 1)) b = true →
      let c := groupAnswer p 0x70 4 cOK (zeroBytes 11 ++ (getMonitor i b).bytes) b
      exec (.monitorRead path sess msg) s = onto s (if leField msg 5 1 = 0 then c
        else putMonitor i { probe := (getMonitor i b).probe, index := (getMonitor i b).index } c)) ∧
    (groupServed .operator 0x70 5 p sess msg 4 false b = true →
      exec (.spoolTrigger path sess msg) s = onto s (groupStatus p 0x70 5 cOK (spoolTrigger 3 b))) ∧
    (asleep b = false → b.dst.started = true → lcDead b = false → bitField b.regs.telSnap 11 0 ≠ 0 →
      b.tel.lastSnap + 1000 * bitField b.regs.telSnap 11 0 ≤ b.tick →
      let base := bitField b.regs.telSnap 63 12 * 4096
      exec .snapshot s = onto s (setTel (fun t => { t with lastSnap := b.tick })
        (hostWrite base ((healthSection b).take 8) (hostWrite (base + 8) (snapshotRest b) b)))) ∧
    (∀ w, b.tel.spool.window = some w → w.closed = false →
      (w.size ≤ w.post.length ∨ (w.limit ≠ 0 ∧ w.since + w.limit ≤ b.tick)) →
      exec .spoolWindowClose s = onto s (closeWindowNow b)) ∧
    (∀ w, asleep b = false → b.dst.started = true → b.tel.spool.window = some w → windowStuck w b = false →
      (w.closed = true → w.dump = false → exec .spoolImageWrite s = onto s (writeImage w b)) ∧
      (w.dump = true →
        exec .hangDumpWrite s = onto s (setTel (fun t => { t with dumpSlots := [], dumpErase := none }) (writeImage w b)))) ∧
    (∀ t, b.tel.dumpErase = some t → t ≤ b.tick →
      exec .dumpSlotErase s = onto s (setTel (fun t => { t with dumpSlots := [], dumpErase := none }) b))

/-- For a message of group 0x10 or 0x20 that is served: PQ_START with entropy, of a skein that may be provisioned and under the
right, answers the exchange with OK and keeps the pending TPK (INVALID where a public key does not check). PQ_FINISH of the
requester's pending TPK with the right confirmation makes it the skein's TPK and answers OK. PQ_SIGN of a session with a signed
transcript answers its ML-DSA signature. PQ_CHAIN answers the DeviceID or alias public key, the latter with H_FW and its
endorsement. SKEIN_EVIDENCE in a session, with entropy, of a skein that can give it holds the record and answers its first part.
SKEIN_EVIDENCE_PART answers 4,096 bytes of the held record from its offset. TPK_PENDING_EXPIRY 1,000,000 ticks after the start
discards the pending TPK. The model's choices it rests on: log entries 10, 14, 76, 77. (10_keys_and_crypto_services,
11_evidence_and_life_cycle) -/
def Obligations.TenantGroupsComplete : Prop :=
  ∀ (path : BitVec 2) (sess : BitVec 32) (msg : Bytes) (s : State),
    let p := path.toNat
    let b := s.blk
    let n := leField msg 4 2
    (∀ sk, groupServed .host 0x10 1 p sess msg 1721 (decide (1024 ≤ n) || decide (2 ≤ leField msg 6 1) || leField msg 7 1 != 0 ||
        (leField msg 6 1 != 1 && (sliceBytes msg 1673 48).any (· != 0))) b = true →
      controlBusy n b = false → trngStopped b = false → tpkSkein n b = some sk → pqAuth sk msg = true →
      let e := pqExchange p n sess msg (leField msg 6 1 == 1) b
      exec (.pqStart path sess msg) s = onto s
        (if Config.kemKeyOk (sliceBytes msg 105 1568) && Config.ecPoint (sliceBytes msg 8 97) then groupAnswer p 0x10 1 cOK e.1 e.2
         else groupStatus p 0x10 1 cInvalid b)) ∧
    (∀ sk t, groupServed .host 0x10 2 p sess msg 56 (decide (1024 ≤ n) || leField msg 6 2 != 0) b = true →
      controlBusy n b = false → tpkSkein n b = some sk → amGet n b.srv.tpks = some t → t.session = requester p sess →
      sk.tpk.isSome = t.rekey → hmac384 (keyBytes t.tpk) (ascii "frexis confirm" ++ toBytes 48 t.th) = sliceBytes msg 8 48 →
      exec (.pqFinish path sess msg) s = onto s (groupStatus p 0x10 2 cOK (confirmTpk n t b))) ∧
    (∀ x h, groupServed .either 0x20 1 p sess msg 4 false b = true → findSpdm p sess b = some x → x.signed = some h →
      exec (.pqSign path sess msg) s = onto s (groupAnswer p 0x20 1 cOK
        (zeroBytes 3 ++ signPq (aliasSeed b) (ascii "frexis spdm" ++ toBytes 48 h)) b)) ∧
    (groupServed .either 0x20 2 p sess msg 5 (decide (1 < leField msg 4 1)) b = true →
      exec (.pqChain path sess msg) s = onto s (groupAnswer p 0x20 2 cOK (zeroBytes 3 ++ (if leField msg 4 1 = 0 then pqPublic (devSeed b)
        else pqPublic (aliasSeed b) ++ toBytes 48 (hFw b) ++ endorse b)) b)) ∧
    (∀ sk, groupServed .either 0x20 3 p sess msg 40 (decide (1024 ≤ n) || leField msg 6 2 != 0) b = true → sess ≠ 0 →
      trngStopped b = false → evSkein n b = some sk →
      let e := evRecord n sk (sliceBytes msg 8 32) (modSpdm p sess (fun s => { s with record := none }) b)
      exec (.skeinEvidence path sess msg) s = onto s (groupAnswer p 0x20 3 (if sk.st = .resetting then cResetting else cOK)
        (zeroBytes 3 ++ leBytes 4 e.1.length ++ zeroBytes 4 ++ evPart e.1 0) (modSpdm p sess (fun s => { s with record := some e.1 }) e.2))) ∧
    (∀ r, groupServed .either 0x20 4 p sess msg 8 false b = true → sess ≠ 0 → (findSpdm p sess b).bind (·.record) = some r →
      leField msg 4 4 % 4096 = 0 → leField msg 4 4 < r.length →
      exec (.skeinEvidencePart path sess msg) s = onto s (groupAnswer p 0x20 4 cOK (zeroBytes 11 ++ evPart r (leField msg 4 4)) b)) ∧
    (∀ (k : BitVec 10) t, amGet k.toNat b.srv.tpks = some t → t.since + 1000000 ≤ b.tick →
      exec (.tpkPendingExpiry k) s = onto s (dropTpk k.toNat b))

/-- For a message of group 0x40 that is served on the slot-class skein n: SLOT_KEY_INSTALL installs a class E key with its region
and answers the key ID. SLOT_KEY_ROTATE of a key of the skein rotates it with the material of the message, or without any where
FLAGS says so, or with EPOCH advances its region; each answers its status. SLOT_KEY_RETIRE retires the key and answers OK.
SLOT_SECRET_SET installs W or C and answers OK. SLOT_MEMBERS keeps the parts of a member list in order, and its last part
installs a well-formed list. The model's choices it rests on: log entries 74, 78. (10_keys_and_crypto_services) -/
def Obligations.SlotKeyMessagesComplete : Prop :=
  ∀ (path : BitVec 2) (sess : BitVec 32) (msg : Bytes) (n : Nat) (s : State),
    let p := path.toNat
    let b := s.blk
    (∀ k c, slotServed 1 p sess msg 48 (!restZero msg 7 16 || !regionParams (leField msg 4 1) (leField msg 5 1) (leField msg 6 1)) n b = true →
      installKey n .E (leField msg 4 1) (leField msg 5 1) (leField msg 6 1 == 1) (ofBytes 256 (sliceBytes msg 16 32)) b = (.ok k, c) →
      exec (.slotKeyInstall path sess msg) s = onto s (settle (groupAnswer p 0x40 1 cOK ([0] ++ leBytes 2 k) c))) ∧
    (let k := leField msg 4 2
     slotServed 2 p sess msg 48 (!restZero msg 7 16 || decide (4096 ≤ k) || decide (4 ≤ leField msg 6 1)) n b = true → checkKey n k b = none →
      ((leField msg 6 1).testBit 0 = true → let a := slotAdvance (((getKey k b).map (·.region)).getD 0) b
        exec (.slotKeyRotate path sess msg) s = onto s (settle (groupStatus p 0x40 2 a.1 a.2))) ∧
      ((leField msg 6 1).testBit 0 = false → exec (.slotKeyRotate path sess msg) s = onto s (settle (groupStatus p 0x40 2 cOK
        (rotateKey none k (if (leField msg 6 1).testBit 1 then none else some (ofBytes 256 (sliceBytes msg 16 32))) b))))) ∧
    (slotServed 3 p sess msg 6 (decide (4096 ≤ leField msg 4 2)) n b = true → checkKey n (leField msg 4 2) b = none →
      exec (.slotKeyRetire path sess msg) s = onto s (settle (groupStatus p 0x40 3 cOK (retireKey none (leField msg 4 2) b)))) ∧
    (slotServed 4 p sess msg 48 (!restZero msg 5 16 || (leField msg 4 1 != 2 && leField msg 4 1 != 3)) n b = true →
      exec (.slotSecretSet path sess msg) s = onto s (settle (groupStatus p 0x40 4 cOK
        (installSecret (leField msg 4 1 == 3) n (ofBytes 256 (sliceBytes msg 16 32)) b)))) ∧
    (let count := leField msg 6 2
     let total := leField msg 8 2
     slotServed 5 p sess msg (16 + 24 * count) (!restZero msg 10 16 || count = 0 || decide (256 < count) || total = 0 || decide (16384 < total)) n b
        = true → leField msg 4 2 = 0 →
      (count < total → exec (.slotMembers path sess msg) s = onto s (settle (groupStatus p 0x40 5 cOK
        (setSrv (fun v => { v with slotList := some (msg.drop 16, total) }) b)))) ∧
      (∀ ms, count = total → memberList (msg.drop 16) total = some ms →
        let a := installMembers n ms (setSrv (fun v => { v with slotList := none }) b)
        exec (.slotMembers path sess msg) s = onto s (settle (groupStatus p 0x40 5 a.1 a.2))))

/-- For a message of group 0x30 that is served: FW_BEGIN while the running bank is no TRIAL and no transition runs empties the other
bank for loading; FW_WRITE into a loading bank places the bytes; FW_STAGE stages an image without a reason against it, and
empties the bank otherwise, answering the reason; FW_ACTIVATE of a staged bank ends every session and begins the activation;
FW_CONFIRM of a TRIAL bank burns its SVN and makes it RUNNING; FW_STATUS and LC_STATUS answer; LC_TRANSITION without a reason
against it is accepted, otherwise answers the reason; OPERATOR_BIND likewise burns its record. FW_ACTIVATION_RUN runs the staged
bank as TRIAL, or falls back. LC_STATE_BURN of an accepted transition whose skeins are gone, with key slots zero and backup
supply good, burns the state word and ends the transition. LC_MAILBOX does what the operation it names does on the mailbox path.
The model's choices it rests on: log entries 14, 79, 80, 81, 82, 83. (11_evidence_and_life_cycle, 16_ports_and_delivery) -/
def Obligations.FirmwareAndLifeCycleComplete : Prop :=
  ∀ (path : BitVec 2) (sess : BitVec 32) (msg : Bytes) (s : State),
    let p := path.toNat
    let b := s.blk
    (group30Served 1 p sess msg 4 false false false b = true → (running b).st ≠ 3 → lcRuns b = false →
      exec (.fwBegin path sess msg) s = onto s (fwAnswer p 1 0 (setOther { st := 1, img := [] } b))) ∧
    (let off := leField msg 4 4
     let len := leField msg 8 2
     group30Served 2 p sess msg (16 + len) (len = 0 || decide (4096 < len) || !restZero msg 10 16) false false b = true →
      (otherBank b).st = 1 → off + len ≤ 1048576 →
      exec (.fwWrite path sess msg) s = onto s (fwAnswer p 2 0
        (setOther { otherBank b with img := patchBytes (otherBank b).img off (msg.drop 16) } b))) ∧
    (group30Served 3 p sess msg 4 false false false b = true → (otherBank b).st = 1 →
      let r := imageReason (otherBank b).img b
      exec (.fwStage path sess msg) s = onto s (fwAnswer p 3 r (setOther (if r = 0 then { otherBank b with st := 2 } else {}) b))) ∧
    (group30Served 4 p sess msg 4 false false false b = true → (otherBank b).st = 2 → oldWraps b = false →
      exec (.fwActivate path sess msg) s = onto s (settle (raiseViews { cls := 5 } (setDst 11 true (endSessions none (fwAnswer p 4 0 b)))))) ∧
    (∀ fail : Option (BitVec 9), group30Served 5 p sess msg 4 false false false b = true → (running b).st = 3 →
      (bankSvn (running b) ≤ arbCounter b ∨ b.pwr.backupGood = true) →
      let r := burnSteps (arbCounter b) (bankSvn (running b)) (fail.map (·.toNat)) b
      let c := lcsRefresh (lcsNext r.2) r.2
      exec (.fwConfirm path sess msg fail) s = onto s (if r.1 then fwAnswer p 5 0 (setRunning { running b with st := 4 } c)
        else fwAnswer p 5 10 c)) ∧
    (group30Served 6 p sess msg 4 false false false b = true →
      exec (.fwStatus path sess msg) s = onto s (groupAnswer p 0x30 6 cOK ([0, 0, 0] ++ measValue 4 b ++ measValue 7 b) b)) ∧
    (group30Served 0x11 p sess msg 4 false true false b = true →
      exec (.lcStatus path sess msg) s = onto s (groupAnswer p 0x30 0x11 cOK ([0, 0, 0] ++ toBytes 4 b.regs.lockState ++
        toBytes 16 b.regs.deviceId ++ toBytes 16 b.regs.serial ++ otpBytes lcBase 288 b) b)) ∧
    (∀ (took : BitVec 64) (evs : MemEvs),
      group30Served 0x10 p sess msg 7460 (!restZero msg 40 48 || decide (1 < leField msg 6 1)) false false b = true →
      let from' : LcPath := if p = 3 then .mailbox else if sess = 0 then .outside else .session
      exec (.lcTransition path sess msg took evs) s = onto s (settle (if lcReason from' msg b = 0 then lcAccept p sess from' msg took evs b
        else fwAnswer p 0x10 (lcReason from' msg b) b))) ∧
    (∀ took : BitVec 768, group30Served 0x12 p sess msg 7548 (leField msg 7 1 != 0) false (opCurrent b).isNone b = true →
      let i := leField msg 4 1
      let burnt := (List.range 96).map fun j => (sliceBytes msg 40 96).getD j 0 &&& byteAt took j
      let c := otpBurnBytes (lcBase + 288 + 96 * i) burnt b
      exec (.operatorBind path sess msg took) s = onto s (if bindReason msg b ≠ 0 then fwAnswer p 0x12 (bindReason msg b) b
        else if burnt ≠ sliceBytes msg 40 96 then fwAnswer p 0x12 10 c else fwAnswer p 0x12 0 (if i = 1 then otpBurn 94 1 c else c))) ∧
    (∀ selfTest : Bool, b.regs.dstStatus.getLsbD 11 = true → (∀ e ∈ b.skeins, e.2.st ≠ .resetting) → b.ladder.owner ≠ 1 →
      let c := setDst 11 false b
      exec (.fwActivationRun selfTest) s = onto s (settle (raiseViews { cls := 5 }
        (if imageReason (otherBank c).img c = 0 ∧ selfTest = true then runStaged c
         else setRunning { running c with st := 4 } (setOther {} c))))) ∧
    (∀ (took : BitVec 64) x, b.dst.lc = some x → (x.reply.isSome = true → b.skeins = []) → (lcErased x b).pwr.backupGood = true →
      let word := lcWord (x.target + 256 * x.slot)
      word &&& took = word →
      exec (.lcStateBurn true took) s = onto s (settle (lcBurnt x (otpBurn (lcSlotWord x.slot + 1) (word &&& took) (lcErased x b))))) ∧
    (∀ (took : BitVec 768) (fail : Option (BitVec 9)) (evs : MemEvs), leField msg 0 1 = 0x30 → leField msg 1 1 = 1 →
      exec (.lcMailbox msg took fail evs) s = onto s (settle (effect (.fwBegin 3 0 msg) b))) ∧
    (∀ (took : BitVec 768) (fail : Option (BitVec 9)) (evs : MemEvs), leField msg 0 1 = 0x30 → leField msg 1 1 = 0x11 →
      exec (.lcMailbox msg took fail evs) s = onto s (settle (effect (.lcStatus 3 0 msg) b)))

/-- For a message of group 0x50 that is served: STREAM_SET, SA_INSTALL and SA_RETIRE change the stream as they say and answer OK;
STREAM_STATUS answers the current AN, whether a next SA is installed, the last PN and the drop counts. For every block that
serves fronthaul: FRONTHAUL_TRANSMIT of a frame of an enabled stream with room and no error, of a length from 64 to 9,216 bytes,
passes a clear EtherType as it is, and otherwise leaves protected under the current SA, whose PN is used up. FRONTHAUL_RECEIVE
of a protected frame with a good SecTAG, a known SA, the right ICV and a PN inside the window delivers its plaintext and moves
the SA's next PN. The model's choices it rests on: log entries 71, 72. (08_standard_ports) -/
def Obligations.FronthaulComplete : Prop :=
  ∀ (path : BitVec 2) (sess : BitVec 32) (msg : Bytes) (s : State),
    let p := path.toNat
    let b := s.blk
    let f := leField msg 4 1
    (groupServed .operator 0x50 1 p sess msg 24 (fthSetBad msg b) b = true →
      exec (.streamSet path sess msg) s = onto s (settle (groupStatus p 0x50 1 cOK (modFth f (fthSet msg) b)))) ∧
    (groupServed .operator 0x50 2 p sess msg 96 (saBad msg b) b = true →
      exec (.saInstall path sess msg) s = onto s (settle (groupStatus p 0x50 2 cOK (modFth f (saPut msg) b)))) ∧
    (groupServed .operator 0x50 3 p sess msg 8 (retireBad msg b) b = true →
      exec (.saRetire path sess msg) s = onto s (settle (groupStatus p 0x50 3 cOK (modFth f (saDrop msg) b)))) ∧
    (groupServed .operator 0x50 4 p sess msg 8 (decide (b.row.fthStreams ≤ f) || !restZero msg 5 8) b = true →
      exec (.streamStatus path sess msg) s = onto s (settle (groupAnswer p 0x50 4 cOK ([0, 0, 0] ++ leBytes 1 ((getFth f b).cur.getD 255) ++
        leBytes 1 (b2n (getFth f b).next.isSome) ++ zeroBytes 6 ++ leBytes 8 (getFth f b).lastPn ++
        (List.range 8).flatMap fun i => leBytes 8 (amGetD 0 i (getFth f b).drops)) b))) ∧
    (∀ (k : BitVec 3) (fr : Bytes), let f := k.toNat
      f < b.row.fthStreams → fthClosed b = false → (getFth f b).enable = true → frameLenBad fr.length = false →
      ((getFth f b).clear.contains (etherAt fr 12) = true →
        exec (.fronthaulTransmit k fr true false) s = onto s (settle (bumpGlob (720 + 8 * f) fr.length (emit (.eth f true fr) b)))) ∧
      (∀ an x, let st := macSwitch b.tim.t (getFth f b)
        (getFth f b).clear.contains (etherAt fr 12) = false → st.cur = some an → st.sa 0 an = some x → x.spent = false →
        let c := takePn f st an x (modFth f (fun _ => st) b)
        exec (.fronthaulTransmit k fr true false) s = onto s (settle (bumpGlob (720 + 8 * f) fr.length
          (emit (.eth f true (macProtect x st.sci an x.pn fr)) (sampleTime 3 f (submitFth f an x.pn fr.length c))))))) ∧
    (∀ (k : BitVec 3) (fr : Bytes) t sc sci x, let f := k.toNat
      f < b.row.fthStreams → fthClosed b = false → (getFth f b).enable = true → etherAt fr 12 = macsecType → parseSecTag fr = some t →
      let n := fr.length - t.len - 16
      let pn := fullPn x t.pn
      let ct := sliceBytes fr (12 + t.len) (n - 12)
      frameLenBad n = false → findSc (getFth f b) t = some (sc, sci) → (getFth f b).sa sc t.an = some x →
      gcmTag x.key (macIv x sci pn) (fr.take (12 + t.len)) ct = sliceBytes fr (12 + t.len + (n - 12)) 16 →
      max x.low (x.pn - (getFth f b).window) ≤ pn →
      exec (.fronthaulReceive k fr true false) s = onto s (settle (bumpGlob (784 + 8 * f) n
        (emit (.eth f false (fr.take 12 ++ gcmCrypt x.key (macIv x sci pn) ct))
          (modFth f (fun s => s.putSa sc t.an { x with pn := max x.pn (pn + 1) }) (submitFth f (4 * sc + t.an) pn n b))))))

/-- For every state: IDE_TLP_RECEIVE of a Secure stream with the right MAC, order and PCRC delivers the deciphered payload and uses
one counter of its key set; in Non-Flit Mode the TLP passes as it is. CFG_ACCESS reads and writes the bits of the IDE capability
that the standard makes writable. FUNCTION_LEVEL_RESET and BAR_REPROGRAMMED of a function whose TDI is locked to the port put it
into ERROR. HOST_LINK_DOWN and HOST_LINK_UP set the link, and with it the mode. For a message that is served in Flit Mode:
KEY_PROG of a set not in use stores key and counter and answers success; K_SET_GO starts a programmed set; K_SET_STOP of a set
whose loss leaves its stream as Secure as before erases it; QUERY answers the port's IDE registers. The model's choices it rests
on: log entries 16, 68. (08_standard_ports) -/
def Obligations.HostPortsComplete : Prop :=
  ∀ (s : State) (path : BitVec 2) (sess : BitVec 32),
    let b := s.blk
    let p := path.toNat
    (∀ (port : BitVec 2) (stream : BitVec 7) (sub : BitVec 2) (k : Bool) (hdr data mac : Bytes), port.toNat < b.row.hostPorts →
      stream.toNat ≤ 64 → sub.toNat ≤ 2 → b.pwr.st = .active → b.dst.started = true →
      ((getPort port.toNat b).flit = false → ∀ o c,
        exec (.ideTlpReceive port stream sub k hdr data mac o c) s = onto s (settle (emit (.tlpIn port.toNat (hdr ++ data)) b))) ∧
      (∀ ks, let j := setIndex false sub.toNat k
        (getPort port.toNat b).flit = true → (getStream port.toNat stream.toNat b).secure = true →
        amGet j (getStream port.toNat stream.toNat b).sets = some ks → (gcmTag ks.key (ideIv ks.ctr) hdr data).take 12 = mac →
        ks.ctr ≠ 0xFFFFFFFFFFFFFFFF →
        let c := submitLink false (ledgerLink (18 + port.toNat) stream.toNat ks.ctr.toNat) noSlot 5 ((data.length + 15) / 16 + 1) b
        exec (.ideTlpReceive port stream sub k hdr data mac true true) s = onto s (settle
          (emit (.tlpIn port.toNat (hdr ++ gcmCrypt ks.key (ideIv ks.ctr) data)) (bumpGlob (704 + 8 * port.toNat) data.length
            (modStream port.toNat stream.toNat (fun s => { s with sets := amSet j { ks with ctr := ks.ctr + 1 } s.sets }) c)))))) ∧
    (∀ (port : BitVec 2) (func : BitVec 11) (off : BitVec 12) (data : BitVec 32) (be : BitVec 4), port.toNat < b.row.hostPorts →
      func.toNat ≤ 1024 → b.dst.started = true →
      let key := func.toNat * 4096 + off.toNat / 4 * 4
      let dw := (off.toNat / 4 + 1024 - Config.ideCapOffset / 4) % 1024
      let m := cfgWritable dw
      let old := amGetD 0 key (getPort port.toNat b).cap
      exec (.cfgAccess port func off true data be) s =
        onto s (emit (.cfg port.toNat (mergeBits (cfgFixedBits port.toNat func.toNat dw b) old m)) b) ∧
      exec (.cfgAccess port func off false data be) s = onto s (emit (.cfg port.toNat 0)
        (modPort port.toNat (fun p => { p with cap := amPut 0 key (mergeBits old data (laneMask be &&& m)) p.cap }) b))) ∧
    (∀ (port : BitVec 2) (func : BitVec 11), let n := func.toNat - 1
      func ≠ 0 → func.toNat ≤ 1024 → b.dst.started = true → (getTdi n b).held = true → (getTdi n b).port = port.toNat →
      exec (.functionLevelReset port func) s = onto s (settle (putTdi n { getTdi n b with st := .error } b)) ∧
      exec (.barReprogrammed port func) s = onto s (settle (putTdi n { getTdi n b with st := .error } b))) ∧
    (∀ (port : BitVec 2) (flit : Bool), port.toNat < b.row.hostPorts →
      exec (.hostLinkDown port) s = onto s (modPort port.toNat (fun p => { p with linkUp := false }) b) ∧
      exec (.hostLinkUp port flit) s = onto s (modPort port.toNat (fun p => { p with linkUp := true, flit := flit }) b)) ∧
    (hostServed p sess b = true → (getPort (p - 1) b).flit = true →
      exec (.query path sess) s = onto s (settle (pciAnswer p (queryBody (p - 1) b) b)) ∧
      (∀ (stream : BitVec 8) (sub : BitVec 4) (tx k : Bool) (key : Key) (ifv : BitVec 64), stream.toNat ≤ 64 → sub.toNat ≤ 2 →
        let st := getStream (p - 1) stream.toNat b
        let j := setIndex tx sub.toNat k
        let sel := b2n k + 2 * b2n tx + 16 * sub.toNat
        ((∀ x, amGet j st.sets = some x → x.started = false) →
          exec (.keyProg path sess stream sub tx k key ifv) s = onto s (settle (kmAnswer p 3 0 stream.toNat sel
            (modStream (p - 1) stream.toNat (fun s => { s with sets := amSet j { key := key, ctr := ifv } s.sets }) b)))) ∧
        (∀ x, amGet j st.sets = some x →
          exec (.kSetGo path sess stream sub tx k) s = onto s (settle (kmAnswer p 6 0 stream.toNat sel
            (modStream (p - 1) stream.toNat (fun s => (s.go j sub.toNat tx k x).up) b)))) ∧
        (let tx' (s : IdeStream) : List (Nat × Nat) :=
          if tx && amGet sub.toNat st.txSet == some (b2n k) then amDel sub.toNat s.txSet else s.txSet
         st.secure = false →
          exec (.kSetStop path sess stream sub tx k) s = onto s (settle (kmAnswer p 6 0 stream.toNat sel
            (modStream (p - 1) stream.toNat (fun s => { s with sets := amDel j s.sets, txSet := tx' s }) b))))))

/-- For a message that is served in a mutually authenticated session: GET_TDISP_VERSION and GET_TDISP_CAPABILITIES answer. For a
function whose TDI the session may address: LOCK_INTERFACE_REQUEST of a lockable TDI draws a nonce, locks the TDI to port,
stream and session, and answers the nonce. GET_DEVICE_INTERFACE_REPORT of a locked or running TDI answers the part of its report
asked for. GET_DEVICE_INTERFACE_STATE answers the state. START_INTERFACE_REQUEST of a locked TDI with its nonce makes it run.
STOP_INTERFACE_REQUEST unlocks the TDI and lets go what waited for it. The model's choices it rests on: log entries 69, 70, 144.
(08_standard_ports) -/
def Obligations.TdispComplete : Prop :=
  ∀ (s : State) (path : BitVec 2) (sess : BitVec 32) (func : BitVec 16),
    let b := s.blk
    let p := path.toNat
    let f := func.toNat
    let t := getTdi (f - 1) b
    (hostServed p sess b = true →
      exec (.getTdispVersion path sess ⟨func, 0x81⟩) s = onto s (settle (tdispMsg p 0x01 f [1, 0x10] b)) ∧
      exec (.getTdispCapabilities path sess func) s = onto s (settle (tdispMsg p 0x02 f (Config.stdBody 2 []) b))) ∧
    (tdiServed p sess f b = true →
      (∀ (stream : BitVec 8) (mmio : BitVec 64) (flags : BitVec 16) x, liveSess p sess b = some x →
        lockable p (f - 1) stream.toNat t b = true →
        let d := draw 256 b
        let t' : TdiRec := ⟨.locked, p - 1, stream.toNat, d.1, mmio, flags, sess, x.chainDigest⟩
        exec (.lockInterfaceRequest path sess func stream mmio flags) s =
          onto s (settle (tdispMsg p 0x03 f (toBytes 32 d.1) (putTdi (f - 1) t' d.2)))) ∧
      (∀ (off len : BitVec 16), let r := tdiReport (f - 1) t b
        let part := (r.drop off.toNat).take len.toNat
        t.held = true → off.toNat < r.length →
        exec (.getDeviceInterfaceReport path sess func off len) s = onto s (settle (tdispMsg p 0x04 f
          (leBytes 2 part.length ++ leBytes 2 (r.length - off.toNat - part.length) ++ part) b))) ∧
      exec (.getDeviceInterfaceState path sess func) s = onto s (settle (tdispMsg p 0x05 f
        [match t.st with | .unlocked => 0 | .locked => 1 | .run => 2 | .error => 3] b)) ∧
      (∀ nonce, t.st = .locked → t.nonce = nonce → exec (.startInterfaceRequest path sess func nonce) s =
        onto s (settle (tdispMsg p 0x06 f [] (putTdi (f - 1) { t with st := .run, nonce := 0 } b)))) ∧
      exec (.stopInterfaceRequest path sess func) s =
        onto s (settle (tdispMsg p 0x07 f [] (unpark (f - 1) (putTdi (f - 1) {} b)))))

/-- For an MCTP control command that is served on a path: SET_ENDPOINT_ID with operation 0 or 1 and an ID other than 0 and 255
stores the ID; GET_ENDPOINT_ID, GET_MCTP_VERSION_SUPPORT and GET_MESSAGE_TYPE_SUPPORT answer. For a command code that reaches
the target: ENTDAA without an address, and SETDASA from the strap's static address, assign the dynamic address; RSTDAA drops it;
ENEC and DISEC set and clear event enables; GETPID, GETBCR, GETDCR, GETSTATUS, GETMWL and GETMRL are read; SETMWL and SETMRL
store the lengths. The model's choices it rests on: log entries 16, 18, 70, 144. (08_standard_ports) -/
def Obligations.MctpAndI3cComplete : Prop :=
  ∀ (s : State) (path : BitVec 2),
    let b := s.blk
    let p := path.toNat
    (mctpServed p b = true →
      (∀ (op : BitVec 2) (eid : BitVec 8), op.toNat < 2 → eid ≠ 0 → eid ≠ 255 → exec (.setEndpointId path op eid) s =
        onto s (answer p ([0, 1] ++ [0, 0, eid, 0]) (modPath p (fun x => { x with eid := eid.toNat }) b))) ∧
      exec (.getEndpointId path) s = onto s (answer p ([0, 2] ++ [0, BitVec.ofNat 8 (getPath p b).eid, 0, 0]) b) ∧
      (∀ type : BitVec 8,
        let body : Bytes := if type = 0xFF ∨ type = 0 then [0, 1, 0xF1, 0xF3, 0xFF, 0x00]
          else if type = 5 ∨ type = 6 then [0, 1] ++ Config.stdBody 4 [type] else [0x80]
        exec (.getMctpVersionSupport path type) s = onto s (answer p ([0, 4] ++ body) b)) ∧
      ∀ len : BitVec 32, len.toNat ≤ 8256 → exec (.getMessageTypeSupport ⟨path, 0, 5, len⟩) s = onto s (answer p ([0, 5] ++ [0, 2, 5, 6]) b)) ∧
    (cccServed none b = true →
      (∀ da : BitVec 7, b.host.i3c.da = none → exec (.entdaa da) s = onto s (setI3c (fun i => { i with da := some da.toNat }) b)) ∧
      (∀ sa da : BitVec 7, b.host.i3c.da = none → sa ≠ 0 → sa.toNat = b.regs.i3cSa →
        exec (.setdasa sa da) s = onto s (setI3c (fun i => { i with da := some da.toNat }) b)) ∧
      exec .rstdaa s = onto s (setI3c (fun i => { i with da := none }) b)) ∧
    (∀ (dest : Option (BitVec 7)), cccServed dest b = true →
      (∀ ev : BitVec 8, exec (.enec dest ev) s = onto s (setI3c (fun i => { i with events := i.events ||| ev.toNat }) b) ∧
        exec (.disec dest ev) s = onto s (setI3c (fun i => { i with events := i.events - (i.events &&& ev.toNat) }) b)) ∧
      (∀ len : BitVec 16, exec (.setmwl dest len) s = onto s (setI3c (fun i => { i with mwl := len.toNat }) b) ∧
        ∀ ibi : Option (BitVec 8), exec (.setmrl dest len ibi) s = onto s (setI3c (fun i => { i with
          mrl := len.toNat, ibi := (ibi.map (·.toNat)).getD i.ibi }) b))) ∧
    (∀ (dest : BitVec 7), cccServed (some dest) b = true → let reads (bs : Bytes) : Out := onto s (emit (.i3c bs) b)
      exec (.getpid dest) s = reads (toBytes 6 Config.i3cPid).reverse ∧ exec (.getbcr dest) s = reads [0x06] ∧
      exec (.getdcr dest) s = reads [0xCC] ∧ exec (.getstatus dest) s = reads (sliceBytes (Config.stdBody 5 (leBytes 1 b.host.i3c.events)) 0 2) ∧
      exec (.getmwl dest) s = reads (beBytes 2 b.host.i3c.mwl) ∧
      exec (.getmrl dest) s = reads (beBytes 2 b.host.i3c.mrl ++ leBytes 1 b.host.i3c.ibi))

/-- For an SPDM request in its place (spdmAsked): GET_VERSION starts the path's connection anew; GET_CAPABILITIES and
NEGOTIATE_ALGORITHMS that are well-formed answer and advance the negotiation; GET_DIGESTS and GET_CERTIFICATE answer slot 0;
CHALLENGE and GET_MEASUREMENTS that are well-formed, with entropy, answer; KEY_EXCHANGE that is well-formed, below the session
limit, opens a session where its point is on the curve, and is refused otherwise; FINISH without mutual authentication completes
a session where its confirmation is right, and ends it otherwise; END_SESSION ends its session; GET_ENCAPSULATED_REQUEST asks
for the digests, and DELIVER_ENCAPSULATED_RESPONSE of them asks for the chain. Layouts and codes that the spec takes from the
standard are PRESUMED (log entry 60). The model's choices it rests on: log entries 10, 14, 73. (08_standard_ports,
10_keys_and_crypto_services) -/
def Obligations.SpdmComplete : Prop :=
  ∀ (s : State) (path : BitVec 2) (sess : BitVec 32) (msg : Bytes),
    let b := s.blk
    let p := path.toNat
    (spdmAsked p sess msg 0x84 0x10 0 .outside b = true → exec (.getVersion path sess msg) s = onto s
      (negotiated p 1 msg [0x10, 0x04, 0, 0, 0, 1, 0x00, 0x13] id (modPath p (fun x => { eid := x.eid }) b))) ∧
    (spdmAsked p sess msg 0xE1 0x13 1 .outside b = true → msg.length = 20 → leField msg 4 1 = 0 → 42 ≤ leField msg 12 4 →
      leField msg 12 4 ≤ leField msg 16 4 →
      exec (.getCapabilities path sess msg) s = onto s (negotiated p 2 msg capsResp (fun x => { x with reqCaps := leField msg 8 4 }) b)) ∧
    (spdmAsked p sess msg 0xE3 0x13 2 .outside b = true → algBad msg = false →
      exec (.negotiateAlgorithms path sess msg) s = onto s (negotiated p 3 msg (algResp msg) id b)) ∧
    (spdmAsked p sess msg 0x81 0x13 3 .either b = true →
      exec (.getDigests path sess msg) s = onto s (certAnswer p sess msg ([0x13, 0x01, 1, 1] ++ sha384Bytes (slotChain b)) b)) ∧
    (spdmAsked p sess msg 0x82 0x13 3 .either b = true → msg.length = 8 → leField msg 2 1 = 0 → leField msg 4 2 < (slotChain b).length →
      let off := leField msg 4 2
      let len := min (min (leField msg 6 2) ((slotChain b).length - off)) 8184
      exec (.getCertificate path sess msg) s = onto s (certAnswer p sess msg ([0x13, 0x02, 0, 0] ++ leBytes 2 len ++
        leBytes 2 ((slotChain b).length - off - len) ++ sliceBytes (slotChain b) off len) b)) ∧
    (spdmAsked p sess msg 0x83 0x13 3 .outside b = true → msg.length = 44 → leField msg 2 1 = 0 → summaryOk (leField msg 3 1) = true →
      trngStopped b = false → exec (.challenge path sess msg) s = onto s (challengeAuth p sess msg b)) ∧
    (spdmAsked p sess msg 0xE0 0x13 3 .either b = true → leField msg 2 1 < 8 → trngStopped b = false →
      msg.length = (if (leField msg 2 1).testBit 0 then 45 else 12) → ((leField msg 2 1).testBit 0 = true → leField msg 36 1 = 0) →
      exec (.getMeasurements path sess msg) s = onto s (measurements p sess msg b)) ∧
    (spdmAsked p sess msg 0xE4 0x13 3 .outside b = true → b.lcBusy = false → msg.length = 138 + leField msg 136 2 → leField msg 3 1 = 0 →
      summaryOk (leField msg 2 1) = true → sessionsFull p b = false → trngStopped b = false →
      exec (.keyExchange path sess msg) s = onto s (if Config.ecPoint (dhPoint msg) then openSpdm p msg b
        else spdmError p eInvalidRequest b)) ∧
    (∀ x, spdmAsked p sess msg 0xE5 0x13 3 .handshake b = true → findSpdm p sess b = some x → x.mustAuth = false → leField msg 2 1 = 0 →
      leField msg 3 1 = 0 → msg.length = 52 →
      exec (.finish path sess msg) s = onto s
        (if sliceBytes msg 4 48 = sliceBytes (Config.finishMac x.secret (x.trans ++ msg.take 4)) 0 48 then
          answer p [0x13, 0x65, 0, 0] (modSpdm p sess (fun s => { s with live := true }) b)
        else sessionFails p sess 0x06 b)) ∧
    (spdmAsked p sess msg 0xEC 0x13 3 .either b = true → (findSpdm p sess b).isSome = true → msg.length = 4 → leField msg 2 1 ≤ 1 →
      leField msg 3 1 = 0 → exec (.endSession path sess msg) s = onto s (endSpdm p sess (answer p [0x13, 0x6C, 0, 0] b))) ∧
    (∀ x, spdmAsked p sess msg 0xEA 0x13 3 .handshake b = true → findSpdm p sess b = some x → x.mustAuth = true → x.authd = false →
      exec (.getEncapsulatedRequest path sess msg) s = onto s (answer p [0x13, 0x6A, 1, 0, 0x13, 0x81, 0, 0]
        (modSpdm p sess (fun s => { s with encap := 1, encapId := 1, chain := [] }) b))) ∧
    (∀ x, spdmAsked p sess msg 0xEB 0x13 3 .handshake b = true → findSpdm p sess b = some x → x.encap = 1 → leField msg 2 1 = x.encapId →
      leField msg 3 1 = 0 → let r := msg.drop 4
      leField r 0 1 = 0x13 → leField r 1 1 = 1 → (leField r 3 1).testBit 0 = true → 52 ≤ r.length →
      exec (.deliverEncapsulatedResponse path sess msg) s =
        onto s (askCert p sess { x with reqDigest := sliceBytes r 4 48, chain := [] } 0 b))

/-- For a frame that verifies on a weft port (weftVerified), with c the block once it is accepted and x the record of the request:
READ of 1 to 4 lines, WRITE, an idempotent PLY and COMBINED whose kind the session carries and none of whose lines is refused
have every line accepted. A sequenced PLY that the high-water table applies likewise. RESOLVE, and a sequenced PLY already
applied or out of order, are answered with what the high-water table says. MCAST on a group with a session to its sender has its
line accepted. MESSAGE to a skein with a mailbox is delivered, and its status answered. GROUP_OPEN at a free index installs the
group and answers OK. COHERENCE on a federation port, for this die, is presented; one for another die, of at most 256 bytes,
goes out on the port toward it. The model's choices it rests on: log entries 92, 94, 95, 142. (07_weft_links) -/
def Obligations.WeftRequestsComplete : Prop :=
  ∀ (port : BitVec 8) (f : Bytes) (evs : MemEvs) (st : State) (si : Nat) (s : Session) (h : Header) (p : Bytes),
    let c := takeFrame si port.toNat h st.blk
    let i := inOf (some si) s.skein h 0 c
    let word := BitVec.ofNat 32 h.param
    let tag := BitVec.ofNat 64 h.extra
    let rid := requesterId s.peer.endpoint s.peer.channel
    let bind := BitVec.ofNat 16 s.peer.bind
    let v (kind : Nat) : Prop := weftVerified kind port.toNat 0 f st.blk = some (si, s, h, p)
    let valueOf (w : Option (BitVec 64)) : Bytes := match w with | some w => valueBytes w.toNat | none => []
    (v 1 → carries s h = true → 1 ≤ h.param → h.param ≤ 4 → linesBar { i.1 with lines := h.param } .read h.addr.toNat 0 0 i.2 = none →
      exec (.weftRead port f evs) st = fabric st (acceptLines { i.1 with lines := h.param } .read h.addr.toNat 0 [] 0 0 evs i.2)) ∧
    (v 2 → carries s h = true → linesBar { i.1 with lines := h.flits / 2 } .write h.addr.toNat 0 0 i.2 = none →
      exec (.weftWrite port f evs) st = fabric st (acceptLines { i.1 with lines := h.flits / 2 } .write h.addr.toNat
        (if h.flits = 2 then tag else fullMask) ((List.range (h.flits / 2)).map fun j => ofBytes 512 (sliceBytes p (64 * j) 64)) 0 0 evs i.2)) ∧
    (v 3 → carries s h = true → ((plyWord word).fetch = true ↔ h.flits = 1) →
      (h.ns = false → (plyWord word).fetch = false → (plyWord word).op ≠ 1 → (plyWord word).op ≠ 6 →
        linesBar { i.1 with lines := 1 } .ply h.addr.toNat word tag i.2 = none →
        exec (.weftPly port f evs) st =
          fabric st (acceptLines { i.1 with lines := 1 } .ply h.addr.toNat fullMask [ofBytes 512 p] word tag evs i.2)) ∧
      (∀ o, h.ns = true → hwJudge rid i.1.skein bind (BitVec.ofNat 64 h.nonce) (plyWord word).fetch false i.2 = o →
        (o.1 = .apply →
          let x := { i.1 with lines := 1, seqd := some (rid, BitVec.ofNat 64 h.nonce) }
          linesBar x .ply h.addr.toNat word tag o.2 = none →
          exec (.weftPly port f evs) st = fabric st (acceptLines x .ply h.addr.toNat fullMask [ofBytes 512 p] word tag evs o.2)) ∧
        (∀ a w, o.1 = .reply a w → exec (.weftPly port f evs) st = fabric st (answerIn i.1 a (valueOf w) o.2)))) ∧
    (v 5 → carries s h = true → linesBar { i.1 with lines := 1, count := h.extra % 65536 } .ply h.addr.toNat word 0 i.2 = none →
      exec (.weftCombined port f evs) st = fabric st (acceptLines { i.1 with lines := 1, count := h.extra % 65536 } .ply h.addr.toNat fullMask
        ((List.range (h.flits / 2)).map fun j => ofBytes 512 (sliceBytes p (64 * j) 64)) word 0 evs i.2)) ∧
    (∀ a w c', v 7 → carries s h = true → hwJudge rid i.1.skein bind (BitVec.ofNat 64 h.nonce) false true i.2 = (.reply a w, c') →
      exec (.weftResolve port f evs) st = fabric st (answerIn i.1 a (valueOf w) c')) ∧
    (∀ q, v 4 → s.kind = 2 → findSess 0 s.skein s.peer.member c = some q → h.param = 0 →
      let x := inOf (some q.1) s.skein h 1 c
      linesBar x.1 .write h.addr.toNat 0 0 x.2 = none →
      exec (.weftMcast port f evs) st = fabric st (acceptLines x.1 .write h.addr.toNat fullMask [ofBytes 512 p] 0 0 evs x.2)) ∧
    (∀ mb a c', v 6 → carries s h = true → (getSkein s.skein c).bind (·.mailbox) = some mb → deliver evs mb s h p c = (a, c') →
      exec (.weftMessage port f evs) st = fabric st (refuseIn si s h a c')) ∧
    (let gi := leField p 0 2
     v 0x23 → carries s h = true → s.kind = 0 → 3968 ≤ gi → gi < 4096 → (getSess gi c).isNone = true →
      (c.fab.sessions.filter fun e => e.2.skein == s.skein).length < 1024 →
      exec (.weftGroupOpen port f) st =
        fabric st (refuseIn si s h cOK (spoolFree 1 10 s.skein gi 0 (putSess gi (groupOf s gi (sliceBytes p 2 8) c) c)))) ∧
    (∀ src, fedVerified 8 port.toNat f st.blk = some (src, h, p) → h.die = st.blk.regs.dieIndex →
      exec (.weftCoherence port f none) st = fabric st (emit (.coherence p) (takeFed port.toNat h p st.blk))) ∧
    (∀ (die : BitVec 2) (slot : BitVec 6) out, closed st.blk = false → f.length ≤ 256 → fedPortTo die.toNat st.blk = some out →
      exec (.weftCoherence port f (some (die, slot))) st =
        fabric st (sendFed out die.toNat slot.toNat st.blk.regs.dieIndex 8 none 0 0 0 f st.blk).2)

/-- For a reply that verifies on a weft port and answers an outstanding request: READ_RESP, WRITE_RESP and PLY_RESP use it.
WEFT_OPEN meant for a skein of this instance, whose place is not taken, whose list reads well, with an entry free, makes a
half-open session and answers ACCEPT. WEFT_ACCEPT of an opening session, with the listed member's fields and the right tag,
makes the session live and sends what waited. WEFT_CLOSE that verifies ends the session: what is outstanding on it fails with
KEY_RETIRED. The model's choices it rests on: log entries 13, 49, 93, 96, 140. (07_weft_links) -/
def Obligations.WeftAnswersComplete : Prop :=
  ∀ (port : BitVec 8) (f : Bytes) (st : State) (si : Nat) (s : Session) (h : Header) (p : Bytes) (r : OutReq),
    let c := takeFrame si port.toNat h st.blk
    let code := BitVec.ofNat 8 (h.param % 256)
    let hit (kind : Nat) : Prop := (c.fab.out.find? fun r => r.session == some si && repliesTo kind r.kind && r.kind != 4 &&
      r.nonce == some h.extra && (kind != 0x11 || code != cOK || h.flits == 2 * r.lines)) = some r
    let used : Block := pumpOut (useReply r code p (h.flits != 0) (sampleTime 0x13 port.toNat c))
    (weftVerified 0x11 port.toNat 0 f st.blk = some (si, s, h, p) → hit 0x11 → exec (.weftReadResp port f) st = fabric st used) ∧
    (weftVerified 0x12 port.toNat 0 f st.blk = some (si, s, h, p) → hit 0x12 → exec (.weftWriteResp port f) st = fabric st used) ∧
    (∀ origin : BitVec 15, weftVerified 0x13 port.toNat origin.toNat f st.blk = some (si, s, h, p) → hit 0x13 →
      exec (.weftPlyResp port origin f) st = fabric st used) ∧
    (∀ (o a : OpenF) (t : Nat) (ts : List Nat) (i : Nat) (b0 b2 b3 : Block), asleep st.blk = false → st.blk.fab.up.contains port.toNat = true →
      isFedPort port.toNat = false → port.toNat < st.blk.row.weftPorts → o.kind < 2 → openTargets o st.blk = t :: ts →
      let n := (t :: ts).getD (choose (ts.length + 1) st.blk).1 t
      let b1 := (choose (ts.length + 1) st.blk).2
      openTaken n o b1 = false → heldSess n b1 < 1024 → readMember [] n o.member b1 = (cOK, b0) →
      takeSess (dropOldHalf b0) = (some i, b2) → ownFields o.kind i n b2 = some (a, b3) →
      exec (.weftOpen port o) st = fabric st (halfOpen i n o a b3)) ∧
    (∀ (i : BitVec 12) (a : OpenF) (tag : BitVec 128) (x : Session) (b0 : Block), asleep st.blk = false → st.blk.fab.up.contains port.toNat = true →
      isFedPort port.toNat = false → port.toNat < st.blk.row.weftPorts → readMember [] x.skein x.peer.member st.blk = (cOK, b0) →
      getSess i.toNat st.blk = some x → x.st = .opening → x.kind ≠ 2 → a.kind = x.kind → acceptListed x a st.blk = true →
      acceptTag i.toNat x a st.blk = tag →
      exec (.weftAccept port i a tag) st = fabric st (pumpOut (flushReplies i.toNat (acceptSess i.toNat x a b0)))) ∧
    (weftVerified 0x22 port.toNat 0 f st.blk = some (si, s, h, p) →
      exec (.weftClose port f) st = fabric st (pumpOut (endSess si cKeyRetired c)))

/-- For every state: REQUEST_TIMEOUT of an outstanding request at its time reports TIMEOUT; an unsent request then ends, a multicast
store goes again as WRITEs, a sequenced operation goes again as RESOLVE. PLY_RESEND and RESOLVE_RESEND send again what is due.
OPEN_TIMEOUT ends an opening session with TIMEOUT. SESSION_LOSS ends a session with requests outstanding and no verified frame
for the loss interval. SESSION_IDLE closes a session without frames for 65,536 ticks. SECRET_CLOSE closes a session under an old
secret that is idle or whose time has come. LINK_DOWN takes the port out of those up; LINK_UP adds it, and what waits goes on.
FEDERATION_PORT_LOSS at its time closes the port. FEDERATION_BRINGUP with a good signature of a bound device sends this die's
messages and opens the hop's ports; a follower takes the leader's key and lists. The model's choices it rests on: log entries
19, 96, 97, 99. (07_weft_links, 09_skeins) -/
def Obligations.WeftEventsComplete : Prop :=
  ∀ (s : State),
    let b := s.blk
    (∀ (req : BitVec 64) r, findOut req.toNat b = some r → r.timedOut = false → r.since + r.limit ≤ b.tick → r.src.isSome = true →
      let c := setOut req.toNat (fun r => { r with timedOut := true }) (report r cTimeout [] b)
      let late := { r with timedOut := true }
      exec (.requestTimeout req) s = fabric s (if r.nonce.isNone then endReq late cAborted [] none c
        else if r.kind = 4 then pumpOut (recast late c) else if r.seqd then resend late c else c)) ∧
    (∀ (req : BitVec 64) r, findOut req.toNat b = some r → r.seqd = true → r.nonce.isSome = true → r.timedOut = false →
      (r.resume = true ∨ r.lastSent + 100 ≤ b.tick) →
      exec (.plyResend req) s = fabric s ((seqPeers r (fun x => !x.timedOut && (x.resume || decide (x.lastSent + 100 ≤ b.tick))) b).foldl
        (fun b x => resend x b) b)) ∧
    (∀ (req : BitVec 64) r, findOut req.toNat b = some r → r.seqd = true → r.timedOut = true → r.lastSent + 100 ≤ b.tick →
      exec (.resolveResend req) s = fabric s (resend r b)) ∧
    (∀ (i : BitVec 12) x, getSess i.toNat b = some x →
      (x.st = .opening → x.kind ≠ 2 → x.since + x.limit ≤ b.tick → exec (.openTimeout i) s = fabric s (endSess i.toNat cTimeout b)) ∧
      (∀ r, x.st = .live → argMin (·.since) (outOn i.toNat b) = some r → lossDue x.lastRx x.loss r ≤ b.tick →
        exec (.sessionLoss i) s = fabric s (endSess i.toNat cKeyRetired b)) ∧
      (x.st = .live → x.kind ≠ 2 → sessBusy i.toNat x b = false → x.lastFrame + 65536 ≤ b.tick →
        exec (.sessionIdle i) s = fabric s (closeSess i.toNat b)) ∧
      (∀ t, x.closeBy = some t → (sessBusy i.toNat x b = false ∨ t ≤ b.tick) →
        exec (.secretClose i) s = fabric s (pumpOut (closeSess i.toNat b)))) ∧
    (∀ port : BitVec 8, exec (.linkDown port) s = fabric s (setFab (fun x => { x with up := x.up.filter fun p => p != port.toNat }) b)) ∧
    (∀ port : BitVec 8, b.fab.up.contains port.toNat = false → (port.toNat < b.row.weftPorts ∨ isFedPort port.toNat = true) →
      let resumes (r : OutReq) : Bool := r.seqd && r.nonce.isSome && (r.die.isSome == isFedPort port.toNat)
      let c := setFab (fun x => { x with
        up := port.toNat :: x.up, out := x.out.map fun r => if resumes r then { r with resume := true } else r }) b
      exec (.linkUp port) s = fabric s (c.fab.sessions.foldl (fun b e => flushReplies e.1 b) c)) ∧
    (∀ (port : BitVec 8) x r, getFed port.toNat b = some x → x.isOpen = true →
      argMin (·.since) (b.fab.out.filter fun r => r.nonce.isSome && (match r.die with
        | some d => fedPortTo d b == some port.toNat
        | none => false)) = some r → lossDue x.lastRx x.loss r ≤ b.tick →
      exec (.federationPortLoss port) s = fabric s (loseDie port.toNat b)) ∧
    (∀ (die : BitVec 2) (device : BitVec 128) (key : Key) (rands : BitVec 512) (list : List (Nat × Option Nat)) (binds : List (Nat × Nat)),
      bringsUp die.toNat b = true → b.fab.binding.contains device = true →
      let c := joinDie die.toNat device key rands list binds b
      exec (.federationBringup die device true key rands list binds) s =
        fabric s (pumpOut (fedStatusSync (setRegs (fun r => { r with fedStatus := setBits r.fedStatus 0 0 1 }) c))))

/-- For every state: ECC_SWEEP corrects and counts each word named, or brings what its loss brings, in order.
FIRMWARE_WATCHDOG_EXPIRY while the firmware runs and its kick is 10 ms late restarts the controller; within 1,000,000 ticks of
the last expiry it makes a block reset due at once with STALLED 0x16. CONTROLLER_RESTART_DONE of a restart: where the running
bank passes the ROM's check it runs again; where it fails and the other bank is PREVIOUS and passes, that bank runs and CDI1 is
derived again; else the restart goes on. CONTROLLER_RESTART_TIMEOUT 5 ms or more after the restart began makes a block reset
due. The check's signatures are free values, so both outcomes are stated. UNIT_HANG of a unit that has held work for 100 ticks
without an acknowledge, while the block is awake, makes a block reset due. The model's choices it rests on: log entries 84, 85,
86, 90. (13_faults_and_recovery) -/
def Obligations.FaultEventsComplete : Prop :=
  ∀ (s : State),
    let b := s.blk
    (∀ errs : List EccErr, exec (.eccSweep errs) s = onto s (settle (errs.foldl (fun b x => eccOne x b) b))) ∧
    (b.dst.started = true → asleep b = false → b.fwHalted = false → b.fwRestart = none → b.fwKick + 10000 ≤ b.tick →
      let late := { b with fwExpiry := some b.tick }
      (∀ t, b.fwExpiry = some t → b.tick < t + 1000000 →
        exec .firmwareWatchdogExpiry s = onto s (settle (dueReset b.tick 3 (setDistaff (fun d => { d with stalled := 0x16 }) late)))) ∧
      ((∀ t, b.fwExpiry = some t → t + 1000000 ≤ b.tick) →
        exec .firmwareWatchdogExpiry s = onto s (settle (beginRestart late)))) ∧
    (b.fwRestart.isSome = true →
      let ends (c : Block) : Block :=
        raiseViews { cls := 5 } (spoolFree 1 4 ownBlock 8 1 (setDst 10 false { c with fwRestart := none, fwKick := c.tick }))
      let back := { otherBank b with st := 4 }
      exec .controllerRestartDone s = onto s (settle (
        if imageReason (running b).img b = 0 then ends b
        else if (otherBank b).st = 5 ∧ imageReason (otherBank b).img b = 0 then
          ends (deriveCdi1 (setDistaff (fun d =>
            if runsB b then { d with bankB := {}, bankA := back } else { d with bankA := {}, bankB := back }) b))
        else b))) ∧
    (∀ t, b.fwRestart = some t → t + 5000 ≤ b.tick →
      exec .controllerRestartTimeout s = onto s (settle (dueReset b.tick 3 (setDistaff (fun d => { d with stalled := 0x16 }) b)))) ∧
    (∀ unit : BitVec 8, asleep b = false → unitHung unit.toNat b = true →
      exec (.unitHang unit) s = onto s (dueReset b.tick 1 (setDistaff (fun d => { d with stalled := unit.toNat }) b)))

/-- For every state: STEAL_REQUEST of a spindle in service with an empty queue and a whorl free to start, where the ring holds a
victim, moves the stolen units to it and turns its direction. RESPIN_COMPARE of a check under way: equal results end it;
different ones, with a third whorl of a third spindle that takes work, end it, count the mismatch and take the whorls that
differ from the third out of service, each with a suspect sweep. SUSPECT_SWEEP_END judges the oldest sweep's entries and records
them. WHORL_HANG of a whorl that has held a block for 20 ticks resets it, or retires it where it hung less than 1,000,000 ticks
before. WHORL_RESET_DONE of a whorl in reset returns it with a record, or starts a suspect sweep. SPINDLE_HANG resets a spindle
that has stood still for 20 ticks; SPINDLE_RESET_DONE returns it with a record. Their timeouts, 50 ticks later, retire the
whorl, isolate the spindle, and make a block reset due. The model's choices it rests on: log entries 24, 44, 45, 87, 88, 125,
126, 127, 148. (02_whorl_array, 13_faults_and_recovery) -/
def Obligations.WhorlEventsComplete : Prop :=
  ∀ (s : State),
    let b := s.blk
    let dropW (w : Nat) : Block := setWh (fun x => { x with resetWhorls := x.resetWhorls.filter fun u => u.index != w }) b
    (∀ (sp : BitVec 6) v, spindleIn sp.toNat b = true → queueOf sp.toNat b = [] →
      startersOf sp.toNat b ≠ [] → stealVictim sp.toNat b = some v →
      exec (.stealRequest sp) s = onto s (stealFrom sp.toNat v (stealTurn sp.toNat b))) ∧
    (∀ (p c t : BitVec 12) (rp rc rt : Block128) k, checkOf p.toNat c.toNat b = some k →
      (rp = rc → exec (.respinCompare p c t rp rc rt) s = onto s (settle (endCheck k b))) ∧
      (rp ≠ rc → thirdOk p.toNat c.toNat t.toNat b = true →
        exec (.respinCompare p c t rp rc rt) s = onto s (settle (settleSuspects
          (respinCaught p.toNat c.toNat t.toNat (rt != rp) (rt != rc) (endCheck k b)))))) ∧
    (∀ (evs : MemEvs) x xs, b.wh.sweeps = x :: xs →
      let j := sweepSet evs x.entries (setWh (fun w => { w with sweeps := xs }) b)
      exec (.suspectSweepEnd evs) s = onto s (settle (settleSuspects (endSweep x j.1 j.2)))) ∧
    (∀ w : BitVec 12, whorlHung w.toNat b = true →
      let hung := setWh (fun x => { x with lastHang := amSet w.toNat b.tick x.lastHang }) b
      exec (.whorlHang w) s = onto s (settle (settleSuspects (if hungBefore w.toNat b then hangAgain w.toNat hung else resetWhorl w.toNat hung)))) ∧
    (∀ (w : BitVec 12) u, (b.wh.resetWhorls.find? fun u => u.index == w.toNat) = some u →
      exec (.whorlResetDone w true) s = onto s (settle (hangRecord 2 2 w.toNat u.replayed (dropW w.toNat))) ∧
      (let x : Sweep := { kind := 2, whorl := w.toNat, entries := [], replayed := u.replayed, incomplete := false, slots := 0 }
       exec (.whorlResetDone w false) s = onto s (settle (settleSuspects (beginSweep x (dropW w.toNat))))) ∧
      (u.since + 50 ≤ b.tick → exec (.whorlResetTimeout w) s =
        onto s (settle (hangRecord 2 3 w.toNat u.replayed (retireWhorls [w.toNat] (dropW w.toNat)))))) ∧
    (∀ sp : BitVec 6, spindleHung sp.toNat b = true →
      exec (.spindleHang sp) s = onto s (settle (settleSuspects (resetSpindle sp.toNat b)))) ∧
    (∀ (sp : BitVec 6) u, (b.wh.resetSpindles.find? fun u => u.index == sp.toNat) = some u →
      exec (.spindleResetDone sp) s = onto s (settle (hangRecord 3 4 sp.toNat u.replayed
        (setWh (fun x => { x with resetSpindles := x.resetSpindles.filter fun u => u.index != sp.toNat }) b))) ∧
      (u.since + 50 ≤ b.tick → exec (.spindleResetTimeout sp) s = onto s (settle (isolateSpindle u b)))) ∧
    (∀ (sp : BitVec 6) u, (b.wh.isolating.find? fun u => u.index == sp.toNat) = some u → u.since + 50 ≤ b.tick →
      exec (.spindleIsolationTimeout sp) s =
        onto s (settle (dueReset b.tick 2 (setDistaff (fun d => { d with stalled := 4 }) b))))

/-- FIELD_TEST of a ring that is fetched, passes every check and starts at once joins the tests. FIELD_TEST_END, once its last
whorls have been taken, returns them, applies the oldest test's outcomes to its engines, judges the suspects, writes its record
and completes its descriptor. For a message of group 0x60 that is served: PACK_WRITE patches the session's staging area.
PACK_COMMIT stores a staged pack that passes its checks and answers its ID, and otherwise answers the first check's status (the
signature is a free value, so both outcomes are stated). PACK_DROP of a stored pack removes it. FT_RUN of engines in range and a
pack held adds a test and answers its FAULT_ID. FAULT_READ of a record held answers it. FAULT_LIST of a record held answers the
part of its list that was asked for. LANE_SET disables or enables a lane. BLOCK_RESET answers OK and makes a reset due 10 ms
later. The model's choices it rests on: log entries 104, 105. (13_faults_and_recovery) -/
def Obligations.FieldTestsComplete : Prop :=
  (∀ (r : Ring) (d : Line) (s : State), WhenRuns r d 0x58 (fieldTestChecks d) (.fieldTest r d) (fun _ => []) s fun x b out =>
      out = onto s (settle (addTest { desc := some x.id, scope := fieldAt d 16 1, index := fieldAt d 18 2, pack := fieldAt d 20 4, fault := 0 } b))) ∧
    (∀ (s : State) (failed : List Nat) (vectors : BitVec 32) (evs : MemEvs) x xs, s.blk.dst.tests = x :: xs → x.begun = true → x.todo = [] →
      let b := backFromTest s.blk.wh.testing (setDistaff (fun d => { d with tests := xs }) s.blk)
      let e := enginesOf x.scope x.index b
      let bad (code i : Nat) : Bool := failed.contains (unitCode code i)
      let j := judgeTest x bad b
      let l := sweepSet evs j.1.entries j.2
      let f := if x.fault = 0 then takeFaultId l.2 else (x.fault, l.2)
      exec (.fieldTestEnd failed vectors evs) s =
        onto s (settle (settleSuspects (closeTest x (e.lanes.filter (bad 9)) j.1 l.1 f.1 (testResult e bad j.1 f.1 vectors.toNat) f.2)))) ∧
    (∀ (path : BitVec 2) (sess : BitVec 32) (msg : Bytes) (s : State),
      let p := path.toNat
      let b := s.blk
      let id := leField msg 4 4
      let off := leField msg 8 4
      let serve (op size : Nat) (bad : Bool) : Prop := groupServed .operator 0x60 op p sess msg size bad b = true
      (let n := leField msg 8 2
       serve 1 (16 + n) (n = 0 || decide (4096 < n) || decide (262144 < id + n) || !restZero msg 10 16) →
        exec (.packWrite path sess msg) s = onto s (groupStatus p 0x60 1 cOK
          (setDistaff (fun d => { d with staging := some (sess, patchBytes (stagingOf sess b) id (msg.drop 16)) }) b))) ∧
      (let img := stagingOf sess b
       serve 2 5 (decide (1 < leField msg 4 1)) →
        exec (.packCommit path sess msg) s = onto s (
          if packStatus img b = cOK then
            groupAnswer p 0x60 2 cOK (zeroBytes 3 ++ leBytes 4 (leField img 4 4)) (storePack img (leField msg 4 1 == 1) b)
          else groupStatus p 0x60 2 (packStatus img b) b)) ∧
      (serve 3 8 false → (b.dst.packs.any fun p => p.id == id) = true →
        exec (.packDrop path sess msg) s = onto s (groupStatus p 0x60 3 cOK
          (setDistaff (fun d => { d with packs := d.packs.filter fun p => p.id != id }) b))) ∧
      (let scope := leField msg 4 1
       serve 4 12 (decide (5 < scope) || leField msg 5 1 != 0) → testIndexOk scope (leField msg 6 2) b = true → packOk off false b = true →
        exec (.ftRun path sess msg) s = onto s (groupAnswer p 0x60 4 cOK (zeroBytes 3 ++ leBytes 4 (takeFaultId b).1)
          (addTest { desc := none, scope := scope, index := leField msg 6 2, pack := off, fault := (takeFaultId b).1 } (takeFaultId b).2))) ∧
      (∀ w, serve 5 8 false → faultHeld id b = some w →
        exec (.faultRead path sess msg) s = onto s (groupAnswer p 0x60 5 cOK (zeroBytes 3 ++ toBytes 128 w) b)) ∧
      (∀ (w : BitVec 1024) (evs : MemEvs), serve 6 12 (off % 4096 != 0) → faultHeld id b = some w →
        let part (bs : Bytes) : Bytes := ((bs.take (16 * fieldAt w 40 4)).drop off).take 4096
        (fieldAt w 40 4 = 0 → exec (.faultList path sess msg evs) s = onto s (groupAnswer p 0x60 6 cOK (zeroBytes 11) b)) ∧
        (∀ e xs b', fieldAt w 40 4 ≠ 0 → findExtent (.fault id) b = some e → readExtent evs e b = (.ok xs, b') →
          exec (.faultList path sess msg evs) s = onto s (groupAnswer p 0x60 6 cOK (zeroBytes 11 ++ part (lineBytes xs)) b'))) ∧
      (let lane := leField msg 4 1
       serve 7 6 (decide (b.row.stackCount ≤ lane) || decide (1 < leField msg 5 1)) →
        exec (.laneSet path sess msg) s = onto s (groupStatus p 0x60 7 cOK (setDistaff (fun d => { d with
          lanesOff := if leField msg 5 1 = 1 then d.lanesOff.filter (· != lane) else lane :: d.lanesOff.filter (· != lane) }) b))) ∧
      (serve 8 4 false →
        exec (.blockReset path sess msg) s = onto s (groupStatus p 0x60 8 cOK (dueReset (b.tick + 10000) 4 b))))

/-- For every state: START with a supply, while the block neither serves nor is in scan, counts T from 0, reads OTP, the straps and
the row, regenerates the root in at most 8 attempts, and starts with or without it (the root is a free value, so both are its
outcome). BLOCK_RESET_EDGE of a reset that is due, on a started block that is not OFF, resets it. VAO_MAIN_LOST with the backup
good switches over, and without it everything but OTP is lost; VAO_MAIN_RESTORED switches back; VAO_BACKUP_LOST with the main
supply good is noted. CORE_SUPPLY_LOSS outside OFF loses the datapath. DISTAFF_BROWN_OUT in low-power mode leaves the retention
where it is kept, and the I3C address with it. REQUEST_REST and REQUEST_OFF written while nothing refuses begin their entry and
are answered. WAKE, on I3C by the target's dynamic address, aborts an entry, ends REST, and in OFF asks for the core supply; an
I3C header that wakes is not acknowledged. ALARM at its time clears TIM_ALARM and acts. The model's choices it rests on: log
entries 17, 108, 109, 110, 111, 112, 113. (14_supplies_power_time, 04_epoch_boot_and_sealing) -/
def Obligations.StartAndPowerComplete : Prop :=
  ∀ (s : State),
    let b := s.blk
    (∀ a : StartIn, startsNow a b = true →
      let c := setTim (fun t => { t with t := 0 }) (if b.pwr.st = .off then clearVolatile b else b)
      let tries := regenerate 8 a.races (readOtp a c)
      exec (.start a) s = onto s (settle (startEnds a (startSecrets a tries.2 (startLoads a tries.1 c))))) ∧
    (∀ at' cause, b.dst.resetDue = some (at', cause) → at' ≤ b.tick → b.dst.started = true → b.pwr.st ≠ .off →
      exec .blockResetEdge s = onto s (resetBlock cause b)) ∧
    (b.pwr.mainGood = true → exec .vaoMainLost s =
      onto s (if b.pwr.backupGood then switchOver true (setPwr (fun p => { p with mainGood := false }) b) else bothLost b)) ∧
    (b.pwr.mainGood = false → b.pwr.onBackup = true →
      exec .vaoMainRestored s = onto s (switchOver false (setPwr (fun p => { p with mainGood := true }) b))) ∧
    (b.pwr.backupGood = true → exec .vaoBackupLost s =
      onto s (if b.pwr.mainGood then setPwr (fun p => { p with backupGood := false }) b else bothLost b)) ∧
    (b.pwr.st ≠ .off → b.pwr.coreOn = true → exec .coreSupplyLoss s = onto s (setPwr (fun p => { p with
      st := .active, coreOn := false, nextStart := some 4, heldEv := p.heldEv ++ [(6, 0)] }) (clearVolatile b))) ∧
    (∀ kept : Bool, b.pwr.st ≠ .active →
      let left := if kept then setHost (fun h => { h with i3c := { h.i3c with da := b.host.i3c.da } }) (clearVolatile b) else loseRetention b
      let st : PState := if b.pwr.st = .off then .off else .active
      exec (.distaffBrownOut kept) s = onto s (setPwr (fun p => { p with
        st := st, nextStart := some 3, heldEv := p.heldEv ++ [(6, 0)], wakeReq := false }) left)) ∧
    (∀ (q : Tgt) (evs : MemEvs) v, closed b = false → isReg q 0x500 false = true → writeValue q b = some v → writesHonoured 0x500 b = true →
      (bitField v 1 0 = 1 → refuser false b = none → exec (.requestRest q evs) s = onto s (settle (beginEntry 1 evs (answerWrite b)))) ∧
      (bitField v 1 0 = 2 → refuser true b = none → exec (.requestOff q evs) s = onto s (settle (beginEntry 2 evs (answerWrite b))))) ∧
    (∀ src : WakeSource, (src = .i3c → b.host.i3c.da.isSome = true) →
      let c := if src = .i3c ∧ b.pwr.st ≠ .active then emit (.i3cNack (b.host.i3c.da.getD 0)) b else b
      (∀ req, b.pwr.st = .active → b.pwr.entry = some req → exec (.wake src) s = onto s (settle (abortEntry src req b))) ∧
      (b.pwr.st = .rest → exec (.wake src) s = onto s (settle (endRest c))) ∧
      (b.pwr.st = .off → (∀ n, src ≠ .doorbell n) →
        exec (.wake src) s = onto s (settle (setPwr (fun p => { p with wakeReq := true }) c)))) ∧
    (alarmDue b = true →
      (b.pwr.st = .active → b.pwr.entry = none → exec .alarm s =
        onto s (settle (raiseBlock 7 0 (spoolFree 1 3 ownBlock 8 0 (setRegs (fun r => { r with timAlarm := 0 }) b))))) ∧
      (b.pwr.st ≠ .active → exec .alarm s =
        onto s (settle (wake .alarm (spoolFree 1 3 ownBlock 8 0 (setRegs (fun r => { r with timAlarm := 0 }) b))))))

/-- For every state: TICK_LOST starts the substitute edges and TICK_REGAINED ends them, and each sets the quality. PPS_EDGE with
TOD_EN, PPS_EN and a good tick, the bus value near a whole second, locks T. TOD_BUS_LOST in quality 3, the bus not seen for 2
ticks, sets 2. TOD_BUS_SAMPLE_LOCK with PPS_EN 0 locks T. PPS_LOST sets the quality. SLOT_STROBE in time is noted and advances
the regions that follow it; too early, it is discarded and counted. STROBE_MISSING at twice EXPECT_US raises ACLASS 7. IDCODE
and BYPASS shift out their bits. DBG_FW while open halts, resumes, steps or reads the firmware (what it reads is a free value).
DBG_READ while open shifts out what it names. SCAN_ENTRY while open clears what scan could show; SCAN_EXIT asks for a start. The
model's choices it rests on: log entries 3, 19, 108, 114, 115. (14_supplies_power_time, 11_evidence_and_life_cycle,
16_ports_and_delivery) -/
def Obligations.TimeAndDebugComplete : Prop :=
  ∀ (s : State),
    let b := s.blk
    (b.tim.substitute = false →
      let c := setTim (fun t => { t with substitute := true }) b
      exec .tickLost s = onto s (setQuality (qualityNow c) c)) ∧
    (b.tim.substitute = true →
      let c := setTim (fun t => { t with substitute := false }) b
      exec .tickRegained s = onto s (setQuality (qualityNow c) c)) ∧
    (∀ v : BitVec 64, b.regs.timCtrl.getLsbD 0 = true → b.tim.substitute = false →
      (b.regs.timCtrl.getLsbD 1 = true → nearSecond v b = true →
        exec (.ppsEdge (some v)) s = onto s (takeLock v (setTim (fun t => { t with ppsAt := some b.tick }) (seeBus b)))) ∧
      (b.regs.timCtrl.getLsbD 1 = false → b.tim.quality ≠ 3 → exec (.todBusSampleLock v) s = onto s (takeLock v (seeBus b)))) ∧
    (b.tim.quality = 3 → b.tim.busAt + 2 ≤ b.tick → exec .todBusLost s = onto s (setQuality 2 b)) ∧
    exec .ppsLost s = onto s (setQuality (qualityNow b) b) ∧
    (strobeEarly b = false → exec .slotStrobe s = onto s (settle (strobeRegions (noteStrobe b)))) ∧
    (strobeEarly b = true →
      exec .slotStrobe s = onto s (settle (raiseBlock 7 0 (bumpHealth 120 1 (spoolFree 1 3 ownBlock 5 0 b))))) ∧
    (bitField b.regs.timStrobe 31 16 ≠ 0 → b.tim.strobeMissing = false → b.tim.strobeFrom + 2 * bitField b.regs.timStrobe 31 16 ≤ b.tick →
      exec .strobeMissing s = onto s (raiseBlock 7 0 (spoolFree 1 3 ownBlock 7 0 (setTim (fun t => { t with strobeMissing := true }) b)))) ∧
    exec .idcode s = onto s (emit (.jtag (toBytes 4 (BitVec.ofNat 32 (4 * 2 ^ 28 + 0x6F2A * 2 ^ 12 + Config.jedec.toNat * 2 + 1)))) b) ∧
    exec .bypass s = onto s (emit (.jtag [0]) b) ∧
    (b.regs.lockState.getLsbD 7 = true → b.regs.lcsGate.getLsbD 1 = false → closed b = false →
      exec (.dbgFw .halt) s = onto s (emit (.jtag []) { b with fwHalted := true }) ∧
      (b.fwHalted = true → exec (.dbgFw .resume) s = onto s (emit (.jtag []) { b with fwHalted := false, fwKick := b.tick })) ∧
      exec (.dbgFw .step) s = onto s (emit (.jtag []) { b with choices := b.choices + 1 }) ∧
      ∀ a, exec (.dbgFw (.read a)) s = onto s (emit (.jtag (toBytes 8 (Config.fwDebug b.choices a))) { b with choices := b.choices + 1 })) ∧
    (∀ what : DbgRead, b.regs.lockState.getLsbD 4 = true → b.regs.lcsGate.getLsbD 0 = false → closed b = false →
      exec (.dbgRead what) s = onto s (emit (.jtag (dbgBytes what b)) b)) ∧
    (∀ bist : Bool, b.regs.lockState.getLsbD 5 = true → b.regs.lcsGate.getLsbD 2 = false → closed b = false → b.dst.scan = false →
      exec (.scanEntry bist) s = onto s (setDistaff (fun d => if bist then { d with scan := true, bankA := {}, bankB := {}, packs := [] }
        else { d with scan := true }) (setTel (fun t => { t with dumpSlots := [] }) (clearVolatile b)))) ∧
    (b.dst.scan = true →
      exec .scanExit s = onto s (setPwr (fun p => { p with nextStart := some 1 }) (setDistaff (fun d => { d with scan := false }) b)))

/-- In every state of every row, CFG_ID reads block revision minor 4 and major 1, programming-model version 1, and part code 0x6F2A,
which the JTAG IDCODE carries too; its reserved bits read 0, and no register write changes what it reads. (R5, R507) -/
def Obligations.RevisionIsFixed : Prop :=
  ∀ (b : Block),
    let id := regRead 0x000 b
    bitField id 7 0 = 4 ∧ bitField id 15 8 = 1 ∧ bitField id 23 16 = 1 ∧ bitField id 31 24 = 0 ∧ bitField id 47 32 = 0x6F2A ∧
      bitField id 63 48 = 0 ∧ bitField idcode 27 12 = bitField id 47 32 ∧
      ∀ (off : Nat) (v : BitVec 64), regRead 0x000 (regStore off v b) = id

/-- For every view, ATTN (bit 15 of its reply status) is 1 exactly when ASEQ differs from the last ASEQ written to ATTN_ACK. Both
are 0 in the manager's view after a block reset, and in the view of a new skein. An honoured ATTN_ACK write of a ring that is
served makes ATTN of its view 1 exactly when it names another ASEQ than the view's: an older one leaves ATTN at 1. (R379) -/
def Obligations.AttentionBit : Prop :=
  (∀ v : View, v.status.getLsbD 15 = (v.aseq != v.acked)) ∧
    (∀ (cause : Nat) (b : Block), (resetBlock cause b).mgrView.aseq = 0 ∧ (resetBlock cause b).mgrView.acked = 0) ∧
    (∀ (d : Line) (slot : Nat) (b : Block), (newSkein d slot b).view.aseq = 0 ∧ (newSkein d slot b).view.acked = 0) ∧
    ∀ (v : BitVec 32) (r : Ring) (b : Block), (getRing r b).isSome = true →
      (getView r (modView r (fun x => { x with acked := v.setWidth 8 }) b)).status.getLsbD 15 = ((getView r b).aseq != v.setWidth 8)

/-- For a fence f of a set that is not frozen, a signal to v: where f is in error it answers f's code and leaves f. Where v is at
least 0xFFFF_FFFF_FFFF_FFFE it puts f into error with FENCE_EXHAUSTED and answers that. Where v is below VALUE it answers
FENCE_REGRESSION, leaves f, and counts it for a skein. Else VALUE becomes v, and it answers OK. A waiter is satisfied exactly
when f is not in error and VALUE is at least its target. A descriptor whose work succeeded completes with its signal's code.
After the releases of a command no waiter is left on a fence that satisfies it or is in error. Only a reset takes a fence out of
error. (R382) -/
def Obligations.SignalRule : Prop :=
  ∀ (o : Option Nat) (i v : Nat) (b : Block), frozen o b = false → (∀ n, o = some n → (getSkein n b).isSome = true) →
    let f := getFence o i b
    let r := signalFence o i v b
    (f.error = true → r.1 = f.code ∧ getFence o i r.2 = f) ∧
    (f.error = false → 0xFFFFFFFFFFFFFFFE ≤ v → r.1 = cFenceExh ∧ getFence o i r.2 = { f with error := true, code := cFenceExh }) ∧
    (f.error = false → v < 0xFFFFFFFFFFFFFFFE → v < f.value.toNat → r.1 = cFenceReg ∧ getFence o i r.2 = f ∧
      ∀ n s, o = some n → getSkein n b = some s →
        (getSkein n r.2).map (·.ctrs) = some (amPut 0 120 ((amGetD 0 120 s.ctrs + 1) % 2 ^ 64) s.ctrs)) ∧
    (f.error = false → v < 0xFFFFFFFFFFFFFFFE → f.value.toNat ≤ v →
      r.1 = cOK ∧ getFence o i r.2 = { f with value := BitVec.ofNat 64 v } ∧ (getFence o i r.2).value.toNat = v) ∧
    (∀ t : BitVec 64, f.satisfied t = (!f.error && decide (t.toNat ≤ f.value.toNat))) ∧
    (∀ (g : Ring) (d : Line), ringOwner g = o → dSig d = true → dSigFence d = i → dSigValue d = v → finalStatus g d cOK b = r.1) ∧
    Released (settle r.2) ∧
    (∀ w : Nat, f.error = true → (getFence o i (signalFence o i w b).2).error = true)

/-- For every block, whatever waits in it: after the releases no FENCE_WAIT is left on a fence that satisfies it or is in error, no
chained descriptor is left whose wait has completed, and no late wait whose fence satisfies it or is in error. The chain of
releases ends by itself, though one release may signal, fault or satisfy further fences. (12_rings_replies_fences) -/
def Obligations.SettleReleasesEveryWaiter : Prop :=
  ∀ b : Block, Released (settle b)

/-- For every block and fence, across the completion of a descriptor and across all releases: the fence's VALUE is never lower than
before, and where it was in error it stays in error, with its first code and its VALUE. (12_rings_replies_fences) -/
def Obligations.FencesNeverFall : Prop :=
  ∀ (o : Option Nat) (i : Nat) (b : Block),
    let up (c : Block) : Prop := (getFence o i b).value.toNat ≤ (getFence o i c).value.toNat ∧
      ((getFence o i b).error = true → (getFence o i c).error = true ∧ (getFence o i c).code = (getFence o i b).code ∧
        (getFence o i c).value = (getFence o i b).value)
    up (settle b) ∧ ∀ (x : Desc) (st : BitVec 8) (res : BitVec 160) (forced : Bool), up (completeF x st res forced b)

/-- The frame of every command's replies. For every block: the completion of a descriptor, the releases that follow, and an
attention event change ring pairs, views, fences, descriptors, records, counters, telemetry, the states of hanks, and what IDE
does to the transfers of records (streams of the host ports, TDIs bound to one that leaves Secure, units of the whorl array)
alone; beyondReplies is the rest. Every line of memory, every key ID, region, register, session and secret, and what each hank
belongs to, stay as they are. (12_rings_replies_fences) -/
def Obligations.RepliesLeaveTheRest : Prop :=
  ∀ b : Block,
    let same (c : Block) : Prop := beyondReplies c = beyondReplies b ∧ ∀ h, hankOwner h c = hankOwner h b
    same (settle b) ∧ (∀ (x : Desc) (st : BitVec 8) (res : BitVec 160) (forced : Bool), same (completeF x st res forced b)) ∧
      ∀ e : Event, same (raiseViews e b)

/-- The frame of NOP, FENCE_SIGNAL, FENCE_RESET, FENCE_GRANT, FENCE_WAIT and FENCE_WAIT_TIMEOUT, and of SQ_TAIL, CQ_HEAD and
ATTN_ACK while the block is awake and started, in every state and for all operands, refused ones too: nothing changes but ring
pairs and the doorbell values held for a SWAPPED skein, views, fences, descriptors, records, counters, telemetry, and what IDE
does to their transfers. Every line of memory, and what every hank belongs to, stay as they are. (12_rings_replies_fences) -/
def Obligations.RingCommandsLeaveTheRest : Prop :=
  ∀ (r : Ring) (d : Line) (i : BitVec 16) (q : Tgt) (b : Block),
    (∀ c ∈ [Instr.nop r d, .fenceSignal r d, .fenceReset r d, .fenceGrant r d, .fenceWait r d, .fenceWaitTimeout r i],
      beyondReplies (effect c b) = beyondReplies b ∧ (∀ h, hankOwner h (effect c b) = hankOwner h b) ∧
        ∀ p, lineIn p (effect c b) = lineIn p b) ∧
    (closed b = false → ∀ c ∈ [Instr.sqTail q, .cqHead q, .attnAck q],
      beyondReplies (effect c b) = beyondReplies b ∧ (∀ h, hankOwner h (effect c b) = hankOwner h b) ∧
        ∀ p, lineIn p (effect c b) = lineIn p b)

/-- The frame of TICK_LOST, TICK_REGAINED, PPS_EDGE, TOD_BUS_LOST, PPS_LOST, TOD_BUS_SAMPLE_LOCK and STROBE_MISSING, and of the
TAP's IDCODE, BYPASS and DBG_READ, in every state: nothing changes but the fields of time, an event held while the block is not
served, views, records, counters, telemetry, and what IDE does to the records' transfers. Every line of memory, every hank,
every fence and every descriptor stay as they are. The model's choices it rests on: log entry 108. (14_supplies_power_time,
16_ports_and_delivery) -/
def Obligations.TimeEventsLeaveTheRest : Prop :=
  ∀ (bus : Option (BitVec 64)) (v : BitVec 64) (w : DbgRead) (b : Block),
    ∀ c ∈ [Instr.tickLost, .tickRegained, .ppsEdge bus, .todBusLost, .ppsLost, .todBusSampleLock v, .strobeMissing, .idcode, .bypass,
        .dbgRead w],
      let t := effect c b
      beyondReplies { t with tim := b.tim, pwr := { t.pwr with heldEv := b.pwr.heldEv } } = beyondReplies b ∧
        { t.mem with nextId := b.mem.nextId } = b.mem ∧ t.descs = b.descs ∧ (∀ o i, getFence o i t = getFence o i b)

/-- For every register slot and every value: the write of a register without a behaviour of its own changes the manager's ring
fields or the set-up registers alone, no other slot reads differently after it, and writing the same value again changes
nothing. The model's choices it rests on: log entry 36. (17_setup_registers) -/
def Obligations.RegisterStoreFrame : Prop :=
  ∀ (off : Nat) (v : BitVec 64) (b : Block), off % 8 = 0 →
    (∃ m r, regStore off v b = { b with mgr := m, regs := r }) ∧
    (∀ off', off' % 8 = 0 → off' ≠ off → regRead off' (regStore off v b) = regRead off' b) ∧
    regStore off v (regStore off v b) = regStore off v b

/-- For every block, line address and content, where the line's place and that of its MAC line differ: a class B line read under the
count it was written with, a class E line read under the key, epoch and region it was written with, and a class S line judged
under the key and counters it was written with, are the content that was written. The stores change the line's place and its MAC
line's place, computed as the reads compute them, and every other line of memory reads as before. Each keeps the memory's
canonical form. The model's choices it rests on: log entries 5, 8. (03_sealed_memory, 04_epoch_boot_and_sealing) -/
def Obligations.StoredLinesReadBack : Prop :=
  ∀ (addr : Nat) (x : Line) (b : Block),
    let p := dataPlace (addrTk addr b) addr b
    let mp := (macPlace addr b).1
    let ep := (eMacPlace addr b).1
    let keeps (q : Nat) (c : Block) : Prop := (∀ a, a ≠ p → a ≠ q → lineIn a c = lineIn a b) ∧ (b.mem.wf = true → c.mem.wf = true)
    (∀ count : BitVec 64, let c := writeLineB count addr x b
      keeps mp c ∧ (p ≠ mp → (readLineB {} [] count addr c).1 = .ok x)) ∧
    (∀ (w : Option WFor) (plain macEn : Bool) (wk : Work) (skein keyId : Nat) (g : KeyGen) (epoch : BitVec 64) (region : Nat),
      let c := storeE w plain g.key epoch region macEn addr x b
      keeps ep c ∧ (p ≠ ep → (readE [] wk skein keyId (some g) epoch region macEn addr c).1 = .ok x)) ∧
    (∀ (w : Option WFor) (key : Key) (maj : BitVec 64) (mnr step : Nat),
      let c := storeLine w key (addrTk addr b) maj mnr step addr x b
      keeps mp c ∧ (p ≠ mp → judgeLine key (.s maj mnr step) addr (macPlace addr b).2 (rawRead [] p false c).1
        (some (rawRead [] mp true c).1) = .ok x))

/-- For a zone of k lanes, k a divisor of 1,024 (R140 makes it a power of two from 8 to 256), every twist key and every 64 KiB
window w: each line of the window is placed on one of the k lanes, at a lane line index of the window's own 1024 / k lines of
that lane; and each of these places is that of exactly one line of the window. So the footprint is the same under every key, a
change of key moves lines within it alone, and each lane receives exactly 1024 / k lines of the window. (R146) -/
def Obligations.TwistFootprint : Prop :=
  ∀ (tk : BitVec 64) (k w : Nat), k ∣ 1024 →
    (∀ n, n / 1024 = w → (twistLine tk k n).1 < k ∧ (twistLine tk k n).2 / (1024 / k) = w) ∧
    ∀ j ll, j < k → ll / (1024 / k) = w → ∃ n, (n / 1024 = w ∧ twistLine tk k n = (j, ll)) ∧
      ∀ m, m / 1024 = w → twistLine tk k m = (j, ll) → m = n

/-- For every key, origin, header whose fields fit their bits and payload of its flits: the sealed frame parses as that header,
opens under the same key as that payload, and with its trailer replaced by any other does not open. The model's choices it rests
on: log entry 8. (07_weft_links) -/
def Obligations.WeftFramesRoundTrip : Prop :=
  ∀ (k : Key) (h : Header) (origin : Nat) (p : Bytes), h.kind < 64 → h.die < 4 → h.flits ≤ 8 → h.rgen < 4 → h.session < 65536 →
    h.param < 2 ^ 32 → h.nonce < 2 ^ 64 → h.extra < 2 ^ 64 → p.length = 32 * h.flits →
    let f := sealFrame k h origin p
    parseHeader f = some h ∧ openFrame k h origin f = some p ∧ f.length = 48 + 32 * h.flits ∧
      ∀ t : Bytes, t ≠ f.drop (32 + 32 * h.flits) → openFrame k h origin (f.take (32 + 32 * h.flits) ++ t) = none

/-- For every 256-bit word with the check bits that the code gives it: it decodes as clean; with any one of its 266 bits flipped it
is corrected, to the word it was; and with any two of its 266 bits flipped it is uncorrectable. (13_faults_and_recovery) -/
def Obligations.InternalCodeCorrectsAndDetects : Prop :=
  ∀ (d : BitVec 256),
    let flipD (i : Nat) (x : BitVec 256) : BitVec 256 := if i < 256 then x ^^^ (1 <<< i) else x
    let flipC (i : Nat) (x : BitVec 10) : BitVec 10 := if i < 256 then x else x ^^^ (1 <<< (i - 256))
    eccDecode d (eccEncode d) = .clean ∧
    (∀ i, i < 266 → eccDecode (flipD i d) (flipC i (eccEncode d)) = .corrected d) ∧
    ∀ i j, i < j → j < 266 → eccDecode (flipD j (flipD i d)) (flipC j (flipC i (eccEncode d))) = .uncorrectable

/-- For every accumulator and addends, infinities and NaN among them, whose magnitudes together with the accumulator's stay below
2^287: added in any other order they leave the same value. Where the accumulator and all addends are finite, that value is their
exact sum. (06_ply_unit) -/
def Obligations.ExactSumsIgnoreOrder : Prop :=
  ∀ (a : Acc) (xs ys : List FV), xs.Perm ys → a.v.natAbs + sumNat (xs.map FV.mag) < 2 ^ 287 →
    let sum (l : List FV) : Acc := l.foldl (fun c x => (c.add x).1) a
    (sum xs).value = (sum ys).value ∧
      (a.st = .fin → xs.all FV.isFin = true →
        (sum xs).st = .fin ∧ (sum xs).v = a.v + (xs.map fun x => match x with
          | .fin true m => -(m : Int)
          | .fin false m => (m : Int)
          | _ => 0).foldl (· + ·) 0)

/-- For every block: an advance of a region that is not at the top of the range raises its epoch by exactly one and forgets a reuse;
at the top it is refused, and the epoch stays. The epoch of no other region changes. A class E write that is accepted makes
every further write to its line in that epoch EPOCH_REUSE. (04_epoch_boot_and_sealing) -/
def Obligations.EpochsRiseByOne : Prop :=
  (∀ (r : Nat) (g : Region) (b : Block), amGet r b.mem.regions = some g →
      let o := advanceRegion r b
      (g.epoch ≠ 0xFFFFFFFFFFFFFFFF → o.1 = true ∧ ∃ g', amGet r o.2.mem.regions = some g' ∧ g'.epoch = g.epoch + 1 ∧
        g'.epoch.toNat = g.epoch.toNat + 1 ∧ g'.reuse = false) ∧
      (g.epoch = 0xFFFFFFFFFFFFFFFF → o.1 = false ∧ amGet r o.2.mem.regions = some g) ∧
      ∀ r', r' ≠ r → amGet r' o.2.mem.regions = amGet r' b.mem.regions) ∧
    ∀ (n keyId addr : Nat) (b b' : Block), claimE n keyId addr b = (cOK, b') → (claimE n keyId addr b').1 = cEpochReuse

/-- For every frame on a weft port that does not verify (weftVerified is none): each of the twelve frame commands does nothing of
its own, or drops and counts the frame, in the record of the destroy under way of its session's skein too, or also notes the
failed tag in its session and raises one event of class 4 to the session's skein. What waits in the fabric goes on as after any
command. The model's choices it rests on: log entry 95. (07_weft_links) -/
def Obligations.UnverifiedFramesDoNothing : Prop :=
  ∀ (port : BitVec 8) (f : Bytes) (evs : MemEvs) (s : State), isFedPort port.toNat = false →
    let b := s.blk
    let quiet (c : Instr) : Prop := exec c s = fabric s b ∨ (∃ why, exec c s = fabric s (dropFrame why b)) ∨
      (∃ si x, getSess si b = some x ∧ exec c s = fabric s (dropFrame .stale (dropStraggler x.skein b))) ∨
      ∃ si x, getSess si b = some x ∧ exec c s = fabric s (raiseViews { cls := 4, skein := some x.skein }
        (modSess si (fun x => { x with event := some b.tick }) (dropFrame .tag b)))
    let bad (kind : Nat) : Prop := weftVerified kind port.toNat 0 f b = none
    (bad 1 → quiet (.weftRead port f evs)) ∧ (bad 2 → quiet (.weftWrite port f evs)) ∧ (bad 3 → quiet (.weftPly port f evs)) ∧
    (bad 4 → quiet (.weftMcast port f evs)) ∧ (bad 5 → quiet (.weftCombined port f evs)) ∧ (bad 6 → quiet (.weftMessage port f evs)) ∧
    (bad 7 → quiet (.weftResolve port f evs)) ∧ (bad 0x11 → quiet (.weftReadResp port f)) ∧ (bad 0x12 → quiet (.weftWriteResp port f)) ∧
    (bad 0x22 → quiet (.weftClose port f)) ∧ (bad 0x23 → quiet (.weftGroupOpen port f)) ∧
    ∀ origin : BitVec 15, weftVerified 0x13 port.toNat origin.toNat f b = none → quiet (.weftPlyResp port origin f)

/-- For every request of a warp port from a slot of skein n, while the block is awake and started, to the block's own memory, with
well-formed fields: where the hank is not allocated to n, or not under the key it names, or the key is not n's own and valid,
the front end refuses it. A refused WARP_READ or WARP_WRITE is counted, answered and reported, its fence goes into error, and
nothing beyond replies changes: no line of memory, no key, no request in flight. (01_trust_unit, 10_keys_and_crypto_services,
05_twist_hanks_reel) -/
def Obligations.RefusedRequestsTouchNothing : Prop :=
  (∀ (n keyId addr : Nat) (b : Block),
      ((getHank (addr / hankBytes) b).st ≠ .allocated ∨ (getHank (addr / hankBytes) b).skein ≠ n ∨
        (getHank (addr / hankBytes) b).keyId ≠ keyId ∨
        ∀ e, amGet keyId b.mem.keys = some e → e.skein ≠ n ∨ e.st ≠ .valid) → (frontEnd n keyId addr b).isSome = true) ∧
    ∀ (q : WarpReq) (evs : MemEvs) (s : State) (n : Nat) (x : Skein) (st : BitVec 8) (raise : Bool), closed s.blk = false →
      slotSkein q.skeinTag.toNat s.blk = some (n, x) → q.peerV = false → frontEnd n (reqKeyId q) (reqAddr q) s.blk = some (st, raise) →
      let refused (isWrite : Bool) : Block := failReq q n isWrite st (refuseReq n st raise isWrite s.blk)
      (reqMalformed q 0 = false → exec (.warpRead q evs) s = fabric s (refused false)) ∧
      (reqMalformed q 1 = false → exec (.warpWrite q evs) s = fabric s (refused true)) ∧
      ∀ isWrite, beyondReplies (refused isWrite) = beyondReplies s.blk ∧ ∀ h, hankOwner h (refused isWrite) = hankOwner h s.blk

/-- For every block: the floors of all slots and the pool together are exactly the whorls in service outside the reservation; the
floor is the row's where those suffice, and never more than it. The entitlements of the slots together never exceed those
whorls. Each slot is entitled to at least the floor, and to no more than it where its skein's weight is 0 or no skein holds it.
The model's choices it rests on: log entry 44. (02_whorl_array) -/
def Obligations.EntitlementsShareTheArray : Prop :=
  ∀ b : Block,
    let g := sharedWhorls b
    let fp := floorPool b
    fp.1 * b.row.slots + fp.2 = g ∧ fp.1 ≤ b.row.floor ∧ (b.row.floor * b.row.slots ≤ g → fp.1 = b.row.floor) ∧
      sumNat ((List.range b.row.slots).map fun t => entitlement t b) ≤ g ∧
      ∀ t, fp.1 ≤ entitlement t b ∧ (((slotSkein t b).map (·.2.weight)).getD 0 = 0 → entitlement t b = fp.1)
end

