-- ==== Sys2Proof/Laws/Lists.lean ====
section
/-! SUPPORT. The laws of keyed lists: what is read after a write, and that every change keeps the keys strictly rising. -/

namespace Sys2Proof.Machine

variable {α : Type}

@[simp] theorem amGet_nil (k : Nat) : amGet k ([] : List (Nat × α)) = none := rfl

/-- A key that was just listed reads as what was listed. -/
@[simp] theorem amGet_amSet_same (k : Nat) (v : α) (m : List (Nat × α)) : amGet k (amSet k v m) = some v := by
  induction m with
  | nil => simp [amSet, amGet]
  | cons e m ih =>
    obtain ⟨j, w⟩ := e
    simp only [amSet]
    split
    · simp [amGet]
    · split
      · simp [amGet]
      · rename_i h; simp [amGet, h, ih]

/-- Listing one key leaves every other as it was. -/
theorem amGet_amSet_other {k j : Nat} (h : j ≠ k) (v : α) (m : List (Nat × α)) : amGet j (amSet k v m) = amGet j m := by
  induction m with
  | nil => simp [amSet, amGet, h]
  | cons e m ih =>
    obtain ⟨i, w⟩ := e
    simp only [amSet]
    split
    · simp [amGet, h]
    · split
      · rename_i h1; subst h1; simp [amGet, h]
      · simp [amGet, ih]

/-- Unlisting one key leaves every other as it was. -/
theorem amGet_amDel_other {k j : Nat} (h : j ≠ k) (m : List (Nat × α)) : amGet j (amDel k m) = amGet j m := by
  induction m with
  | nil => rfl
  | cons e m ih =>
    obtain ⟨i, w⟩ := e
    simp only [amDel]
    split
    · rename_i h1; subst h1; simp [amGet, h, ih]
    · simp [amGet, ih]

/-- A head of a strictly rising list is below every later key. -/
theorem amSorted_head {e : Nat × α} {m : List (Nat × α)} (h : amSorted (e :: m) = true) :
    amSorted m = true ∧ ∀ x ∈ m, e.1 < x.1 := by
  induction m generalizing e with
  | nil => simp [amSorted]
  | cons f m ih =>
    obtain ⟨j, v⟩ := e
    obtain ⟨k, w⟩ := f
    simp only [amSorted, Bool.and_eq_true, decide_eq_true_eq] at h
    obtain ⟨h1, h2⟩ := ih h.2
    refine ⟨h.2, ?_⟩
    intro x hx
    rcases List.mem_cons.mp hx with rfl | hx
    · exact h.1
    · exact Nat.lt_trans h.1 (h2 x hx)

/-- A head below every later key of a strictly rising list keeps it so. -/
theorem amSorted_cons {e : Nat × α} {m : List (Nat × α)} (h : amSorted m = true) (h2 : ∀ x ∈ m, e.1 < x.1) :
    amSorted (e :: m) = true := by
  cases m with
  | nil => rfl
  | cons f m =>
    simp only [amSorted, Bool.and_eq_true, decide_eq_true_eq]
    exact ⟨h2 f (List.mem_cons_self ..), h⟩

/-- A key that was unlisted is listed nowhere. -/
@[simp] theorem amGet_amDel_same (k : Nat) (m : List (Nat × α)) : amGet k (amDel k m) = none := by
  induction m with
  | nil => rfl
  | cons e m ih =>
    obtain ⟨j, w⟩ := e
    simp only [amDel]
    split
    · exact ih
    · rename_i hk; simp [amGet, hk, ih]

theorem mem_amSet {k : Nat} {v : α} {m : List (Nat × α)} {x : Nat × α} (h : x ∈ amSet k v m) : x = (k, v) ∨ x ∈ m := by
  induction m with
  | nil => simpa [amSet] using h
  | cons e m ih =>
    obtain ⟨j, w⟩ := e
    simp only [amSet] at h
    split at h
    · simpa using h
    · split at h
      · rcases List.mem_cons.mp h with h | h
        · exact .inl h
        · exact .inr (List.mem_cons_of_mem _ h)
      · rcases List.mem_cons.mp h with h | h
        · exact .inr (h ▸ List.mem_cons_self ..)
        · exact (ih h).imp_right (List.mem_cons_of_mem _)

theorem mem_amDel {k : Nat} {m : List (Nat × α)} {x : Nat × α} (h : x ∈ amDel k m) : x ∈ m := by
  induction m with
  | nil => exact h
  | cons e m ih =>
    obtain ⟨j, w⟩ := e
    simp only [amDel] at h
    split at h
    · exact List.mem_cons_of_mem _ (ih h)
    · rcases List.mem_cons.mp h with h | h
      · exact h ▸ List.mem_cons_self ..
      · exact List.mem_cons_of_mem _ (ih h)

/-- Listing a key keeps the keys strictly rising. -/
theorem amSorted_amSet (k : Nat) (v : α) {m : List (Nat × α)} (h : amSorted m = true) : amSorted (amSet k v m) = true := by
  induction m with
  | nil => rfl
  | cons e m ih =>
    obtain ⟨h1, h2⟩ := amSorted_head h
    obtain ⟨j, w⟩ := e
    simp only [amSet]
    split
    · rename_i hk
      exact amSorted_cons h fun x hx => by
        rcases List.mem_cons.mp hx with rfl | hx
        · exact hk
        · exact Nat.lt_trans hk (h2 x hx)
    · split
      · rename_i hk; subst hk; exact amSorted_cons h1 h2
      · rename_i hk hk'
        exact amSorted_cons (ih h1) fun x hx => by
          rcases mem_amSet hx with rfl | hx
          · show j < k; omega
          · exact h2 x hx

/-- Unlisting a key keeps the keys strictly rising. -/
theorem amSorted_amDel (k : Nat) {m : List (Nat × α)} (h : amSorted m = true) : amSorted (amDel k m) = true := by
  induction m with
  | nil => rfl
  | cons e m ih =>
    obtain ⟨h1, h2⟩ := amSorted_head h
    obtain ⟨j, w⟩ := e
    simp only [amDel]
    split
    · exact ih h1
    · exact amSorted_cons (ih h1) fun x hx => h2 x (mem_amDel hx)

/-- What a key reads as after a write of it. -/
@[simp] theorem amGetD_amPut_same [DecidableEq α] (d : α) (k : Nat) (v : α) (m : List (Nat × α)) :
    amGetD d k (amPut d k v m) = v := by
  unfold amPut
  split
  · rename_i hv; subst hv; simp [amGetD]
  · simp [amGetD]

/-- A write of one key leaves what every other reads as. -/
theorem amGetD_amPut_other [DecidableEq α] (d : α) {k j : Nat} (h : j ≠ k) (v : α) (m : List (Nat × α)) :
    amGetD d j (amPut d k v m) = amGetD d j m := by
  unfold amPut
  split
  · simp [amGetD, amGet_amDel_other h]
  · simp [amGetD, amGet_amSet_other h]

/-- A write keeps the canonical form: keys strictly rising, and no entry that reads as an unlisted key does. -/
theorem amPut_canonical [DecidableEq α] (d : α) (k : Nat) (v : α) {m : List (Nat × α)} (h : amSorted m = true)
    (hd : ∀ x ∈ m, x.2 ≠ d) : amSorted (amPut d k v m) = true ∧ ∀ x ∈ amPut d k v m, x.2 ≠ d := by
  unfold amPut
  split
  · exact ⟨amSorted_amDel k h, fun x hx => hd x (mem_amDel hx)⟩
  · rename_i hv
    exact ⟨amSorted_amSet k v h, fun x hx => by
      rcases mem_amSet hx with rfl | hx
      · exact hv
      · exact hd x hx⟩

end Sys2Proof.Machine
end

