-- ==== Sys2Proof/Laws/State.lean ====
section
/-! SUPPORT. What each update of the block leaves in each of its fields; no proof need unfold a record update. -/

namespace Sys2Proof.Machine

/-! ### setRegs -/

@[simp] theorem setRegs_row (f : Regs → Regs) (b : Block) : (setRegs f b).row = b.row := rfl
@[simp] theorem setRegs_regs (f : Regs → Regs) (b : Block) : (setRegs f b).regs = f b.regs := rfl
@[simp] theorem setRegs_tick (f : Regs → Regs) (b : Block) : (setRegs f b).tick = b.tick := rfl
@[simp] theorem setRegs_mgr (f : Regs → Regs) (b : Block) : (setRegs f b).mgr = b.mgr := rfl
@[simp] theorem setRegs_mgrView (f : Regs → Regs) (b : Block) : (setRegs f b).mgrView = b.mgrView := rfl
@[simp] theorem setRegs_mgrFences (f : Regs → Regs) (b : Block) : (setRegs f b).mgrFences = b.mgrFences := rfl
@[simp] theorem setRegs_skeins (f : Regs → Regs) (b : Block) : (setRegs f b).skeins = b.skeins := rfl
@[simp] theorem setRegs_descs (f : Regs → Regs) (b : Block) : (setRegs f b).descs = b.descs := rfl
@[simp] theorem setRegs_nextDesc (f : Regs → Regs) (b : Block) : (setRegs f b).nextDesc = b.nextDesc := rfl
@[simp] theorem setRegs_lates (f : Regs → Regs) (b : Block) : (setRegs f b).lates = b.lates := rfl
@[simp] theorem setRegs_standing (f : Regs → Regs) (b : Block) : (setRegs f b).standing = b.standing := rfl
@[simp] theorem setRegs_suspects (f : Regs → Regs) (b : Block) : (setRegs f b).suspects = b.suspects := rfl
@[simp] theorem setRegs_lostUnits (f : Regs → Regs) (b : Block) : (setRegs f b).lostUnits = b.lostUnits := rfl
@[simp] theorem setRegs_unitStuck (f : Regs → Regs) (b : Block) : (setRegs f b).unitStuck = b.unitStuck := rfl
@[simp] theorem setRegs_repaired (f : Regs → Regs) (b : Block) : (setRegs f b).repaired = b.repaired := rfl
@[simp] theorem setRegs_refusedNoSkein (f : Regs → Regs) (b : Block) : (setRegs f b).refusedNoSkein = b.refusedNoSkein := rfl
@[simp] theorem setRegs_held (f : Regs → Regs) (b : Block) : (setRegs f b).held = b.held := rfl
@[simp] theorem setRegs_serving (f : Regs → Regs) (b : Block) : (setRegs f b).serving = b.serving := rfl
@[simp] theorem setRegs_health (f : Regs → Regs) (b : Block) : (setRegs f b).health = b.health := rfl
@[simp] theorem setRegs_glob (f : Regs → Regs) (b : Block) : (setRegs f b).glob = b.glob := rfl
@[simp] theorem setRegs_lcBusy (f : Regs → Regs) (b : Block) : (setRegs f b).lcBusy = b.lcBusy := rfl
@[simp] theorem setRegs_awake (f : Regs → Regs) (b : Block) : (setRegs f b).awake = b.awake := rfl
@[simp] theorem setRegs_lastRule (f : Regs → Regs) (b : Block) : (setRegs f b).lastRule = b.lastRule := rfl
@[simp] theorem setRegs_rule (f : Regs → Regs) (b : Block) : (setRegs f b).rule = b.rule := rfl
@[simp] theorem setRegs_pwr (f : Regs → Regs) (b : Block) : (setRegs f b).pwr = b.pwr := rfl
@[simp] theorem setRegs_tim (f : Regs → Regs) (b : Block) : (setRegs f b).tim = b.tim := rfl
@[simp] theorem setRegs_ladder (f : Regs → Regs) (b : Block) : (setRegs f b).ladder = b.ladder := rfl
@[simp] theorem setRegs_fwHalted (f : Regs → Regs) (b : Block) : (setRegs f b).fwHalted = b.fwHalted := rfl
@[simp] theorem setRegs_fwKick (f : Regs → Regs) (b : Block) : (setRegs f b).fwKick = b.fwKick := rfl
@[simp] theorem setRegs_fwRestart (f : Regs → Regs) (b : Block) : (setRegs f b).fwRestart = b.fwRestart := rfl
@[simp] theorem setRegs_fwExpiry (f : Regs → Regs) (b : Block) : (setRegs f b).fwExpiry = b.fwExpiry := rfl
@[simp] theorem setRegs_host (f : Regs → Regs) (b : Block) : (setRegs f b).host = b.host := rfl
@[simp] theorem setRegs_dst (f : Regs → Regs) (b : Block) : (setRegs f b).dst = b.dst := rfl
@[simp] theorem setRegs_mem (f : Regs → Regs) (b : Block) : (setRegs f b).mem = b.mem := rfl
@[simp] theorem setRegs_wh (f : Regs → Regs) (b : Block) : (setRegs f b).wh = b.wh := rfl
@[simp] theorem setRegs_fab (f : Regs → Regs) (b : Block) : (setRegs f b).fab = b.fab := rfl
@[simp] theorem setRegs_srv (f : Regs → Regs) (b : Block) : (setRegs f b).srv = b.srv := rfl
@[simp] theorem setRegs_tel (f : Regs → Regs) (b : Block) : (setRegs f b).tel = b.tel := rfl
@[simp] theorem setRegs_root (f : Regs → Regs) (b : Block) : (setRegs f b).root = b.root := rfl
@[simp] theorem setRegs_dataRoot (f : Regs → Regs) (b : Block) : (setRegs f b).dataRoot = b.dataRoot := rfl
@[simp] theorem setRegs_nStart (f : Regs → Regs) (b : Block) : (setRegs f b).nStart = b.nStart := rfl
@[simp] theorem setRegs_faultNext (f : Regs → Regs) (b : Block) : (setRegs f b).faultNext = b.faultNext := rfl
@[simp] theorem setRegs_faults (f : Regs → Regs) (b : Block) : (setRegs f b).faults = b.faults := rfl
@[simp] theorem setRegs_fltSlot (f : Regs → Regs) (b : Block) : (setRegs f b).fltSlot = b.fltSlot := rfl
@[simp] theorem setRegs_draws (f : Regs → Regs) (b : Block) : (setRegs f b).draws = b.draws := rfl
@[simp] theorem setRegs_choices (f : Regs → Regs) (b : Block) : (setRegs f b).choices = b.choices := rfl
@[simp] theorem setRegs_out (f : Regs → Regs) (b : Block) : (setRegs f b).out = b.out := rfl

/-! ### setMem -/

@[simp] theorem setMem_row (f : Mem → Mem) (b : Block) : (setMem f b).row = b.row := rfl
@[simp] theorem setMem_regs (f : Mem → Mem) (b : Block) : (setMem f b).regs = b.regs := rfl
@[simp] theorem setMem_tick (f : Mem → Mem) (b : Block) : (setMem f b).tick = b.tick := rfl
@[simp] theorem setMem_mgr (f : Mem → Mem) (b : Block) : (setMem f b).mgr = b.mgr := rfl
@[simp] theorem setMem_mgrView (f : Mem → Mem) (b : Block) : (setMem f b).mgrView = b.mgrView := rfl
@[simp] theorem setMem_mgrFences (f : Mem → Mem) (b : Block) : (setMem f b).mgrFences = b.mgrFences := rfl
@[simp] theorem setMem_skeins (f : Mem → Mem) (b : Block) : (setMem f b).skeins = b.skeins := rfl
@[simp] theorem setMem_descs (f : Mem → Mem) (b : Block) : (setMem f b).descs = b.descs := rfl
@[simp] theorem setMem_nextDesc (f : Mem → Mem) (b : Block) : (setMem f b).nextDesc = b.nextDesc := rfl
@[simp] theorem setMem_lates (f : Mem → Mem) (b : Block) : (setMem f b).lates = b.lates := rfl
@[simp] theorem setMem_standing (f : Mem → Mem) (b : Block) : (setMem f b).standing = b.standing := rfl
@[simp] theorem setMem_suspects (f : Mem → Mem) (b : Block) : (setMem f b).suspects = b.suspects := rfl
@[simp] theorem setMem_lostUnits (f : Mem → Mem) (b : Block) : (setMem f b).lostUnits = b.lostUnits := rfl
@[simp] theorem setMem_unitStuck (f : Mem → Mem) (b : Block) : (setMem f b).unitStuck = b.unitStuck := rfl
@[simp] theorem setMem_repaired (f : Mem → Mem) (b : Block) : (setMem f b).repaired = b.repaired := rfl
@[simp] theorem setMem_refusedNoSkein (f : Mem → Mem) (b : Block) : (setMem f b).refusedNoSkein = b.refusedNoSkein := rfl
@[simp] theorem setMem_held (f : Mem → Mem) (b : Block) : (setMem f b).held = b.held := rfl
@[simp] theorem setMem_serving (f : Mem → Mem) (b : Block) : (setMem f b).serving = b.serving := rfl
@[simp] theorem setMem_health (f : Mem → Mem) (b : Block) : (setMem f b).health = b.health := rfl
@[simp] theorem setMem_glob (f : Mem → Mem) (b : Block) : (setMem f b).glob = b.glob := rfl
@[simp] theorem setMem_lcBusy (f : Mem → Mem) (b : Block) : (setMem f b).lcBusy = b.lcBusy := rfl
@[simp] theorem setMem_awake (f : Mem → Mem) (b : Block) : (setMem f b).awake = b.awake := rfl
@[simp] theorem setMem_lastRule (f : Mem → Mem) (b : Block) : (setMem f b).lastRule = b.lastRule := rfl
@[simp] theorem setMem_rule (f : Mem → Mem) (b : Block) : (setMem f b).rule = b.rule := rfl
@[simp] theorem setMem_pwr (f : Mem → Mem) (b : Block) : (setMem f b).pwr = b.pwr := rfl
@[simp] theorem setMem_tim (f : Mem → Mem) (b : Block) : (setMem f b).tim = b.tim := rfl
@[simp] theorem setMem_ladder (f : Mem → Mem) (b : Block) : (setMem f b).ladder = b.ladder := rfl
@[simp] theorem setMem_fwHalted (f : Mem → Mem) (b : Block) : (setMem f b).fwHalted = b.fwHalted := rfl
@[simp] theorem setMem_fwKick (f : Mem → Mem) (b : Block) : (setMem f b).fwKick = b.fwKick := rfl
@[simp] theorem setMem_fwRestart (f : Mem → Mem) (b : Block) : (setMem f b).fwRestart = b.fwRestart := rfl
@[simp] theorem setMem_fwExpiry (f : Mem → Mem) (b : Block) : (setMem f b).fwExpiry = b.fwExpiry := rfl
@[simp] theorem setMem_host (f : Mem → Mem) (b : Block) : (setMem f b).host = b.host := rfl
@[simp] theorem setMem_dst (f : Mem → Mem) (b : Block) : (setMem f b).dst = b.dst := rfl
@[simp] theorem setMem_mem (f : Mem → Mem) (b : Block) : (setMem f b).mem = f b.mem := rfl
@[simp] theorem setMem_wh (f : Mem → Mem) (b : Block) : (setMem f b).wh = b.wh := rfl
@[simp] theorem setMem_fab (f : Mem → Mem) (b : Block) : (setMem f b).fab = b.fab := rfl
@[simp] theorem setMem_srv (f : Mem → Mem) (b : Block) : (setMem f b).srv = b.srv := rfl
@[simp] theorem setMem_tel (f : Mem → Mem) (b : Block) : (setMem f b).tel = b.tel := rfl
@[simp] theorem setMem_root (f : Mem → Mem) (b : Block) : (setMem f b).root = b.root := rfl
@[simp] theorem setMem_dataRoot (f : Mem → Mem) (b : Block) : (setMem f b).dataRoot = b.dataRoot := rfl
@[simp] theorem setMem_nStart (f : Mem → Mem) (b : Block) : (setMem f b).nStart = b.nStart := rfl
@[simp] theorem setMem_faultNext (f : Mem → Mem) (b : Block) : (setMem f b).faultNext = b.faultNext := rfl
@[simp] theorem setMem_faults (f : Mem → Mem) (b : Block) : (setMem f b).faults = b.faults := rfl
@[simp] theorem setMem_fltSlot (f : Mem → Mem) (b : Block) : (setMem f b).fltSlot = b.fltSlot := rfl
@[simp] theorem setMem_draws (f : Mem → Mem) (b : Block) : (setMem f b).draws = b.draws := rfl
@[simp] theorem setMem_choices (f : Mem → Mem) (b : Block) : (setMem f b).choices = b.choices := rfl
@[simp] theorem setMem_out (f : Mem → Mem) (b : Block) : (setMem f b).out = b.out := rfl

/-! ### setWh -/

@[simp] theorem setWh_row (f : Whorls → Whorls) (b : Block) : (setWh f b).row = b.row := rfl
@[simp] theorem setWh_regs (f : Whorls → Whorls) (b : Block) : (setWh f b).regs = b.regs := rfl
@[simp] theorem setWh_tick (f : Whorls → Whorls) (b : Block) : (setWh f b).tick = b.tick := rfl
@[simp] theorem setWh_mgr (f : Whorls → Whorls) (b : Block) : (setWh f b).mgr = b.mgr := rfl
@[simp] theorem setWh_mgrView (f : Whorls → Whorls) (b : Block) : (setWh f b).mgrView = b.mgrView := rfl
@[simp] theorem setWh_mgrFences (f : Whorls → Whorls) (b : Block) : (setWh f b).mgrFences = b.mgrFences := rfl
@[simp] theorem setWh_skeins (f : Whorls → Whorls) (b : Block) : (setWh f b).skeins = b.skeins := rfl
@[simp] theorem setWh_descs (f : Whorls → Whorls) (b : Block) : (setWh f b).descs = b.descs := rfl
@[simp] theorem setWh_nextDesc (f : Whorls → Whorls) (b : Block) : (setWh f b).nextDesc = b.nextDesc := rfl
@[simp] theorem setWh_lates (f : Whorls → Whorls) (b : Block) : (setWh f b).lates = b.lates := rfl
@[simp] theorem setWh_standing (f : Whorls → Whorls) (b : Block) : (setWh f b).standing = b.standing := rfl
@[simp] theorem setWh_suspects (f : Whorls → Whorls) (b : Block) : (setWh f b).suspects = b.suspects := rfl
@[simp] theorem setWh_lostUnits (f : Whorls → Whorls) (b : Block) : (setWh f b).lostUnits = b.lostUnits := rfl
@[simp] theorem setWh_unitStuck (f : Whorls → Whorls) (b : Block) : (setWh f b).unitStuck = b.unitStuck := rfl
@[simp] theorem setWh_repaired (f : Whorls → Whorls) (b : Block) : (setWh f b).repaired = b.repaired := rfl
@[simp] theorem setWh_refusedNoSkein (f : Whorls → Whorls) (b : Block) : (setWh f b).refusedNoSkein = b.refusedNoSkein := rfl
@[simp] theorem setWh_held (f : Whorls → Whorls) (b : Block) : (setWh f b).held = b.held := rfl
@[simp] theorem setWh_serving (f : Whorls → Whorls) (b : Block) : (setWh f b).serving = b.serving := rfl
@[simp] theorem setWh_health (f : Whorls → Whorls) (b : Block) : (setWh f b).health = b.health := rfl
@[simp] theorem setWh_glob (f : Whorls → Whorls) (b : Block) : (setWh f b).glob = b.glob := rfl
@[simp] theorem setWh_lcBusy (f : Whorls → Whorls) (b : Block) : (setWh f b).lcBusy = b.lcBusy := rfl
@[simp] theorem setWh_awake (f : Whorls → Whorls) (b : Block) : (setWh f b).awake = b.awake := rfl
@[simp] theorem setWh_lastRule (f : Whorls → Whorls) (b : Block) : (setWh f b).lastRule = b.lastRule := rfl
@[simp] theorem setWh_rule (f : Whorls → Whorls) (b : Block) : (setWh f b).rule = b.rule := rfl
@[simp] theorem setWh_pwr (f : Whorls → Whorls) (b : Block) : (setWh f b).pwr = b.pwr := rfl
@[simp] theorem setWh_tim (f : Whorls → Whorls) (b : Block) : (setWh f b).tim = b.tim := rfl
@[simp] theorem setWh_ladder (f : Whorls → Whorls) (b : Block) : (setWh f b).ladder = b.ladder := rfl
@[simp] theorem setWh_fwHalted (f : Whorls → Whorls) (b : Block) : (setWh f b).fwHalted = b.fwHalted := rfl
@[simp] theorem setWh_fwKick (f : Whorls → Whorls) (b : Block) : (setWh f b).fwKick = b.fwKick := rfl
@[simp] theorem setWh_fwRestart (f : Whorls → Whorls) (b : Block) : (setWh f b).fwRestart = b.fwRestart := rfl
@[simp] theorem setWh_fwExpiry (f : Whorls → Whorls) (b : Block) : (setWh f b).fwExpiry = b.fwExpiry := rfl
@[simp] theorem setWh_host (f : Whorls → Whorls) (b : Block) : (setWh f b).host = b.host := rfl
@[simp] theorem setWh_dst (f : Whorls → Whorls) (b : Block) : (setWh f b).dst = b.dst := rfl
@[simp] theorem setWh_mem (f : Whorls → Whorls) (b : Block) : (setWh f b).mem = b.mem := rfl
@[simp] theorem setWh_wh (f : Whorls → Whorls) (b : Block) : (setWh f b).wh = f b.wh := rfl
@[simp] theorem setWh_fab (f : Whorls → Whorls) (b : Block) : (setWh f b).fab = b.fab := rfl
@[simp] theorem setWh_srv (f : Whorls → Whorls) (b : Block) : (setWh f b).srv = b.srv := rfl
@[simp] theorem setWh_tel (f : Whorls → Whorls) (b : Block) : (setWh f b).tel = b.tel := rfl
@[simp] theorem setWh_root (f : Whorls → Whorls) (b : Block) : (setWh f b).root = b.root := rfl
@[simp] theorem setWh_dataRoot (f : Whorls → Whorls) (b : Block) : (setWh f b).dataRoot = b.dataRoot := rfl
@[simp] theorem setWh_nStart (f : Whorls → Whorls) (b : Block) : (setWh f b).nStart = b.nStart := rfl
@[simp] theorem setWh_faultNext (f : Whorls → Whorls) (b : Block) : (setWh f b).faultNext = b.faultNext := rfl
@[simp] theorem setWh_faults (f : Whorls → Whorls) (b : Block) : (setWh f b).faults = b.faults := rfl
@[simp] theorem setWh_fltSlot (f : Whorls → Whorls) (b : Block) : (setWh f b).fltSlot = b.fltSlot := rfl
@[simp] theorem setWh_draws (f : Whorls → Whorls) (b : Block) : (setWh f b).draws = b.draws := rfl
@[simp] theorem setWh_choices (f : Whorls → Whorls) (b : Block) : (setWh f b).choices = b.choices := rfl
@[simp] theorem setWh_out (f : Whorls → Whorls) (b : Block) : (setWh f b).out = b.out := rfl

/-! ### setSrv -/

@[simp] theorem setSrv_row (f : Services → Services) (b : Block) : (setSrv f b).row = b.row := rfl
@[simp] theorem setSrv_regs (f : Services → Services) (b : Block) : (setSrv f b).regs = b.regs := rfl
@[simp] theorem setSrv_tick (f : Services → Services) (b : Block) : (setSrv f b).tick = b.tick := rfl
@[simp] theorem setSrv_mgr (f : Services → Services) (b : Block) : (setSrv f b).mgr = b.mgr := rfl
@[simp] theorem setSrv_mgrView (f : Services → Services) (b : Block) : (setSrv f b).mgrView = b.mgrView := rfl
@[simp] theorem setSrv_mgrFences (f : Services → Services) (b : Block) : (setSrv f b).mgrFences = b.mgrFences := rfl
@[simp] theorem setSrv_skeins (f : Services → Services) (b : Block) : (setSrv f b).skeins = b.skeins := rfl
@[simp] theorem setSrv_descs (f : Services → Services) (b : Block) : (setSrv f b).descs = b.descs := rfl
@[simp] theorem setSrv_nextDesc (f : Services → Services) (b : Block) : (setSrv f b).nextDesc = b.nextDesc := rfl
@[simp] theorem setSrv_lates (f : Services → Services) (b : Block) : (setSrv f b).lates = b.lates := rfl
@[simp] theorem setSrv_standing (f : Services → Services) (b : Block) : (setSrv f b).standing = b.standing := rfl
@[simp] theorem setSrv_suspects (f : Services → Services) (b : Block) : (setSrv f b).suspects = b.suspects := rfl
@[simp] theorem setSrv_lostUnits (f : Services → Services) (b : Block) : (setSrv f b).lostUnits = b.lostUnits := rfl
@[simp] theorem setSrv_unitStuck (f : Services → Services) (b : Block) : (setSrv f b).unitStuck = b.unitStuck := rfl
@[simp] theorem setSrv_repaired (f : Services → Services) (b : Block) : (setSrv f b).repaired = b.repaired := rfl
@[simp] theorem setSrv_refusedNoSkein (f : Services → Services) (b : Block) : (setSrv f b).refusedNoSkein = b.refusedNoSkein := rfl
@[simp] theorem setSrv_held (f : Services → Services) (b : Block) : (setSrv f b).held = b.held := rfl
@[simp] theorem setSrv_serving (f : Services → Services) (b : Block) : (setSrv f b).serving = b.serving := rfl
@[simp] theorem setSrv_health (f : Services → Services) (b : Block) : (setSrv f b).health = b.health := rfl
@[simp] theorem setSrv_glob (f : Services → Services) (b : Block) : (setSrv f b).glob = b.glob := rfl
@[simp] theorem setSrv_lcBusy (f : Services → Services) (b : Block) : (setSrv f b).lcBusy = b.lcBusy := rfl
@[simp] theorem setSrv_awake (f : Services → Services) (b : Block) : (setSrv f b).awake = b.awake := rfl
@[simp] theorem setSrv_lastRule (f : Services → Services) (b : Block) : (setSrv f b).lastRule = b.lastRule := rfl
@[simp] theorem setSrv_rule (f : Services → Services) (b : Block) : (setSrv f b).rule = b.rule := rfl
@[simp] theorem setSrv_pwr (f : Services → Services) (b : Block) : (setSrv f b).pwr = b.pwr := rfl
@[simp] theorem setSrv_tim (f : Services → Services) (b : Block) : (setSrv f b).tim = b.tim := rfl
@[simp] theorem setSrv_ladder (f : Services → Services) (b : Block) : (setSrv f b).ladder = b.ladder := rfl
@[simp] theorem setSrv_fwHalted (f : Services → Services) (b : Block) : (setSrv f b).fwHalted = b.fwHalted := rfl
@[simp] theorem setSrv_fwKick (f : Services → Services) (b : Block) : (setSrv f b).fwKick = b.fwKick := rfl
@[simp] theorem setSrv_fwRestart (f : Services → Services) (b : Block) : (setSrv f b).fwRestart = b.fwRestart := rfl
@[simp] theorem setSrv_fwExpiry (f : Services → Services) (b : Block) : (setSrv f b).fwExpiry = b.fwExpiry := rfl
@[simp] theorem setSrv_host (f : Services → Services) (b : Block) : (setSrv f b).host = b.host := rfl
@[simp] theorem setSrv_dst (f : Services → Services) (b : Block) : (setSrv f b).dst = b.dst := rfl
@[simp] theorem setSrv_mem (f : Services → Services) (b : Block) : (setSrv f b).mem = b.mem := rfl
@[simp] theorem setSrv_wh (f : Services → Services) (b : Block) : (setSrv f b).wh = b.wh := rfl
@[simp] theorem setSrv_fab (f : Services → Services) (b : Block) : (setSrv f b).fab = b.fab := rfl
@[simp] theorem setSrv_srv (f : Services → Services) (b : Block) : (setSrv f b).srv = f b.srv := rfl
@[simp] theorem setSrv_tel (f : Services → Services) (b : Block) : (setSrv f b).tel = b.tel := rfl
@[simp] theorem setSrv_root (f : Services → Services) (b : Block) : (setSrv f b).root = b.root := rfl
@[simp] theorem setSrv_dataRoot (f : Services → Services) (b : Block) : (setSrv f b).dataRoot = b.dataRoot := rfl
@[simp] theorem setSrv_nStart (f : Services → Services) (b : Block) : (setSrv f b).nStart = b.nStart := rfl
@[simp] theorem setSrv_faultNext (f : Services → Services) (b : Block) : (setSrv f b).faultNext = b.faultNext := rfl
@[simp] theorem setSrv_faults (f : Services → Services) (b : Block) : (setSrv f b).faults = b.faults := rfl
@[simp] theorem setSrv_fltSlot (f : Services → Services) (b : Block) : (setSrv f b).fltSlot = b.fltSlot := rfl
@[simp] theorem setSrv_draws (f : Services → Services) (b : Block) : (setSrv f b).draws = b.draws := rfl
@[simp] theorem setSrv_choices (f : Services → Services) (b : Block) : (setSrv f b).choices = b.choices := rfl
@[simp] theorem setSrv_out (f : Services → Services) (b : Block) : (setSrv f b).out = b.out := rfl

/-! ### setFab -/

@[simp] theorem setFab_row (f : Fabric → Fabric) (b : Block) : (setFab f b).row = b.row := rfl
@[simp] theorem setFab_regs (f : Fabric → Fabric) (b : Block) : (setFab f b).regs = b.regs := rfl
@[simp] theorem setFab_tick (f : Fabric → Fabric) (b : Block) : (setFab f b).tick = b.tick := rfl
@[simp] theorem setFab_mgr (f : Fabric → Fabric) (b : Block) : (setFab f b).mgr = b.mgr := rfl
@[simp] theorem setFab_mgrView (f : Fabric → Fabric) (b : Block) : (setFab f b).mgrView = b.mgrView := rfl
@[simp] theorem setFab_mgrFences (f : Fabric → Fabric) (b : Block) : (setFab f b).mgrFences = b.mgrFences := rfl
@[simp] theorem setFab_skeins (f : Fabric → Fabric) (b : Block) : (setFab f b).skeins = b.skeins := rfl
@[simp] theorem setFab_descs (f : Fabric → Fabric) (b : Block) : (setFab f b).descs = b.descs := rfl
@[simp] theorem setFab_nextDesc (f : Fabric → Fabric) (b : Block) : (setFab f b).nextDesc = b.nextDesc := rfl
@[simp] theorem setFab_lates (f : Fabric → Fabric) (b : Block) : (setFab f b).lates = b.lates := rfl
@[simp] theorem setFab_standing (f : Fabric → Fabric) (b : Block) : (setFab f b).standing = b.standing := rfl
@[simp] theorem setFab_suspects (f : Fabric → Fabric) (b : Block) : (setFab f b).suspects = b.suspects := rfl
@[simp] theorem setFab_lostUnits (f : Fabric → Fabric) (b : Block) : (setFab f b).lostUnits = b.lostUnits := rfl
@[simp] theorem setFab_unitStuck (f : Fabric → Fabric) (b : Block) : (setFab f b).unitStuck = b.unitStuck := rfl
@[simp] theorem setFab_repaired (f : Fabric → Fabric) (b : Block) : (setFab f b).repaired = b.repaired := rfl
@[simp] theorem setFab_refusedNoSkein (f : Fabric → Fabric) (b : Block) : (setFab f b).refusedNoSkein = b.refusedNoSkein := rfl
@[simp] theorem setFab_held (f : Fabric → Fabric) (b : Block) : (setFab f b).held = b.held := rfl
@[simp] theorem setFab_serving (f : Fabric → Fabric) (b : Block) : (setFab f b).serving = b.serving := rfl
@[simp] theorem setFab_health (f : Fabric → Fabric) (b : Block) : (setFab f b).health = b.health := rfl
@[simp] theorem setFab_glob (f : Fabric → Fabric) (b : Block) : (setFab f b).glob = b.glob := rfl
@[simp] theorem setFab_lcBusy (f : Fabric → Fabric) (b : Block) : (setFab f b).lcBusy = b.lcBusy := rfl
@[simp] theorem setFab_awake (f : Fabric → Fabric) (b : Block) : (setFab f b).awake = b.awake := rfl
@[simp] theorem setFab_lastRule (f : Fabric → Fabric) (b : Block) : (setFab f b).lastRule = b.lastRule := rfl
@[simp] theorem setFab_rule (f : Fabric → Fabric) (b : Block) : (setFab f b).rule = b.rule := rfl
@[simp] theorem setFab_pwr (f : Fabric → Fabric) (b : Block) : (setFab f b).pwr = b.pwr := rfl
@[simp] theorem setFab_tim (f : Fabric → Fabric) (b : Block) : (setFab f b).tim = b.tim := rfl
@[simp] theorem setFab_ladder (f : Fabric → Fabric) (b : Block) : (setFab f b).ladder = b.ladder := rfl
@[simp] theorem setFab_fwHalted (f : Fabric → Fabric) (b : Block) : (setFab f b).fwHalted = b.fwHalted := rfl
@[simp] theorem setFab_fwKick (f : Fabric → Fabric) (b : Block) : (setFab f b).fwKick = b.fwKick := rfl
@[simp] theorem setFab_fwRestart (f : Fabric → Fabric) (b : Block) : (setFab f b).fwRestart = b.fwRestart := rfl
@[simp] theorem setFab_fwExpiry (f : Fabric → Fabric) (b : Block) : (setFab f b).fwExpiry = b.fwExpiry := rfl
@[simp] theorem setFab_host (f : Fabric → Fabric) (b : Block) : (setFab f b).host = b.host := rfl
@[simp] theorem setFab_dst (f : Fabric → Fabric) (b : Block) : (setFab f b).dst = b.dst := rfl
@[simp] theorem setFab_mem (f : Fabric → Fabric) (b : Block) : (setFab f b).mem = b.mem := rfl
@[simp] theorem setFab_wh (f : Fabric → Fabric) (b : Block) : (setFab f b).wh = b.wh := rfl
@[simp] theorem setFab_fab (f : Fabric → Fabric) (b : Block) : (setFab f b).fab = f b.fab := rfl
@[simp] theorem setFab_srv (f : Fabric → Fabric) (b : Block) : (setFab f b).srv = b.srv := rfl
@[simp] theorem setFab_tel (f : Fabric → Fabric) (b : Block) : (setFab f b).tel = b.tel := rfl
@[simp] theorem setFab_root (f : Fabric → Fabric) (b : Block) : (setFab f b).root = b.root := rfl
@[simp] theorem setFab_dataRoot (f : Fabric → Fabric) (b : Block) : (setFab f b).dataRoot = b.dataRoot := rfl
@[simp] theorem setFab_nStart (f : Fabric → Fabric) (b : Block) : (setFab f b).nStart = b.nStart := rfl
@[simp] theorem setFab_faultNext (f : Fabric → Fabric) (b : Block) : (setFab f b).faultNext = b.faultNext := rfl
@[simp] theorem setFab_faults (f : Fabric → Fabric) (b : Block) : (setFab f b).faults = b.faults := rfl
@[simp] theorem setFab_fltSlot (f : Fabric → Fabric) (b : Block) : (setFab f b).fltSlot = b.fltSlot := rfl
@[simp] theorem setFab_draws (f : Fabric → Fabric) (b : Block) : (setFab f b).draws = b.draws := rfl
@[simp] theorem setFab_choices (f : Fabric → Fabric) (b : Block) : (setFab f b).choices = b.choices := rfl
@[simp] theorem setFab_out (f : Fabric → Fabric) (b : Block) : (setFab f b).out = b.out := rfl

/-! ### setTel -/

@[simp] theorem setTel_row (f : Telemetry → Telemetry) (b : Block) : (setTel f b).row = b.row := rfl
@[simp] theorem setTel_regs (f : Telemetry → Telemetry) (b : Block) : (setTel f b).regs = b.regs := rfl
@[simp] theorem setTel_tick (f : Telemetry → Telemetry) (b : Block) : (setTel f b).tick = b.tick := rfl
@[simp] theorem setTel_mgr (f : Telemetry → Telemetry) (b : Block) : (setTel f b).mgr = b.mgr := rfl
@[simp] theorem setTel_mgrView (f : Telemetry → Telemetry) (b : Block) : (setTel f b).mgrView = b.mgrView := rfl
@[simp] theorem setTel_mgrFences (f : Telemetry → Telemetry) (b : Block) : (setTel f b).mgrFences = b.mgrFences := rfl
@[simp] theorem setTel_skeins (f : Telemetry → Telemetry) (b : Block) : (setTel f b).skeins = b.skeins := rfl
@[simp] theorem setTel_descs (f : Telemetry → Telemetry) (b : Block) : (setTel f b).descs = b.descs := rfl
@[simp] theorem setTel_nextDesc (f : Telemetry → Telemetry) (b : Block) : (setTel f b).nextDesc = b.nextDesc := rfl
@[simp] theorem setTel_lates (f : Telemetry → Telemetry) (b : Block) : (setTel f b).lates = b.lates := rfl
@[simp] theorem setTel_standing (f : Telemetry → Telemetry) (b : Block) : (setTel f b).standing = b.standing := rfl
@[simp] theorem setTel_suspects (f : Telemetry → Telemetry) (b : Block) : (setTel f b).suspects = b.suspects := rfl
@[simp] theorem setTel_lostUnits (f : Telemetry → Telemetry) (b : Block) : (setTel f b).lostUnits = b.lostUnits := rfl
@[simp] theorem setTel_unitStuck (f : Telemetry → Telemetry) (b : Block) : (setTel f b).unitStuck = b.unitStuck := rfl
@[simp] theorem setTel_repaired (f : Telemetry → Telemetry) (b : Block) : (setTel f b).repaired = b.repaired := rfl
@[simp] theorem setTel_refusedNoSkein (f : Telemetry → Telemetry) (b : Block) : (setTel f b).refusedNoSkein = b.refusedNoSkein := rfl
@[simp] theorem setTel_held (f : Telemetry → Telemetry) (b : Block) : (setTel f b).held = b.held := rfl
@[simp] theorem setTel_serving (f : Telemetry → Telemetry) (b : Block) : (setTel f b).serving = b.serving := rfl
@[simp] theorem setTel_health (f : Telemetry → Telemetry) (b : Block) : (setTel f b).health = b.health := rfl
@[simp] theorem setTel_glob (f : Telemetry → Telemetry) (b : Block) : (setTel f b).glob = b.glob := rfl
@[simp] theorem setTel_lcBusy (f : Telemetry → Telemetry) (b : Block) : (setTel f b).lcBusy = b.lcBusy := rfl
@[simp] theorem setTel_awake (f : Telemetry → Telemetry) (b : Block) : (setTel f b).awake = b.awake := rfl
@[simp] theorem setTel_lastRule (f : Telemetry → Telemetry) (b : Block) : (setTel f b).lastRule = b.lastRule := rfl
@[simp] theorem setTel_rule (f : Telemetry → Telemetry) (b : Block) : (setTel f b).rule = b.rule := rfl
@[simp] theorem setTel_pwr (f : Telemetry → Telemetry) (b : Block) : (setTel f b).pwr = b.pwr := rfl
@[simp] theorem setTel_tim (f : Telemetry → Telemetry) (b : Block) : (setTel f b).tim = b.tim := rfl
@[simp] theorem setTel_ladder (f : Telemetry → Telemetry) (b : Block) : (setTel f b).ladder = b.ladder := rfl
@[simp] theorem setTel_fwHalted (f : Telemetry → Telemetry) (b : Block) : (setTel f b).fwHalted = b.fwHalted := rfl
@[simp] theorem setTel_fwKick (f : Telemetry → Telemetry) (b : Block) : (setTel f b).fwKick = b.fwKick := rfl
@[simp] theorem setTel_fwRestart (f : Telemetry → Telemetry) (b : Block) : (setTel f b).fwRestart = b.fwRestart := rfl
@[simp] theorem setTel_fwExpiry (f : Telemetry → Telemetry) (b : Block) : (setTel f b).fwExpiry = b.fwExpiry := rfl
@[simp] theorem setTel_host (f : Telemetry → Telemetry) (b : Block) : (setTel f b).host = b.host := rfl
@[simp] theorem setTel_dst (f : Telemetry → Telemetry) (b : Block) : (setTel f b).dst = b.dst := rfl
@[simp] theorem setTel_mem (f : Telemetry → Telemetry) (b : Block) : (setTel f b).mem = b.mem := rfl
@[simp] theorem setTel_wh (f : Telemetry → Telemetry) (b : Block) : (setTel f b).wh = b.wh := rfl
@[simp] theorem setTel_fab (f : Telemetry → Telemetry) (b : Block) : (setTel f b).fab = b.fab := rfl
@[simp] theorem setTel_srv (f : Telemetry → Telemetry) (b : Block) : (setTel f b).srv = b.srv := rfl
@[simp] theorem setTel_tel (f : Telemetry → Telemetry) (b : Block) : (setTel f b).tel = f b.tel := rfl
@[simp] theorem setTel_root (f : Telemetry → Telemetry) (b : Block) : (setTel f b).root = b.root := rfl
@[simp] theorem setTel_dataRoot (f : Telemetry → Telemetry) (b : Block) : (setTel f b).dataRoot = b.dataRoot := rfl
@[simp] theorem setTel_nStart (f : Telemetry → Telemetry) (b : Block) : (setTel f b).nStart = b.nStart := rfl
@[simp] theorem setTel_faultNext (f : Telemetry → Telemetry) (b : Block) : (setTel f b).faultNext = b.faultNext := rfl
@[simp] theorem setTel_faults (f : Telemetry → Telemetry) (b : Block) : (setTel f b).faults = b.faults := rfl
@[simp] theorem setTel_fltSlot (f : Telemetry → Telemetry) (b : Block) : (setTel f b).fltSlot = b.fltSlot := rfl
@[simp] theorem setTel_draws (f : Telemetry → Telemetry) (b : Block) : (setTel f b).draws = b.draws := rfl
@[simp] theorem setTel_choices (f : Telemetry → Telemetry) (b : Block) : (setTel f b).choices = b.choices := rfl
@[simp] theorem setTel_out (f : Telemetry → Telemetry) (b : Block) : (setTel f b).out = b.out := rfl

/-! ### setTim -/

@[simp] theorem setTim_row (f : Tim → Tim) (b : Block) : (setTim f b).row = b.row := rfl
@[simp] theorem setTim_regs (f : Tim → Tim) (b : Block) : (setTim f b).regs = b.regs := rfl
@[simp] theorem setTim_tick (f : Tim → Tim) (b : Block) : (setTim f b).tick = b.tick := rfl
@[simp] theorem setTim_mgr (f : Tim → Tim) (b : Block) : (setTim f b).mgr = b.mgr := rfl
@[simp] theorem setTim_mgrView (f : Tim → Tim) (b : Block) : (setTim f b).mgrView = b.mgrView := rfl
@[simp] theorem setTim_mgrFences (f : Tim → Tim) (b : Block) : (setTim f b).mgrFences = b.mgrFences := rfl
@[simp] theorem setTim_skeins (f : Tim → Tim) (b : Block) : (setTim f b).skeins = b.skeins := rfl
@[simp] theorem setTim_descs (f : Tim → Tim) (b : Block) : (setTim f b).descs = b.descs := rfl
@[simp] theorem setTim_nextDesc (f : Tim → Tim) (b : Block) : (setTim f b).nextDesc = b.nextDesc := rfl
@[simp] theorem setTim_lates (f : Tim → Tim) (b : Block) : (setTim f b).lates = b.lates := rfl
@[simp] theorem setTim_standing (f : Tim → Tim) (b : Block) : (setTim f b).standing = b.standing := rfl
@[simp] theorem setTim_suspects (f : Tim → Tim) (b : Block) : (setTim f b).suspects = b.suspects := rfl
@[simp] theorem setTim_lostUnits (f : Tim → Tim) (b : Block) : (setTim f b).lostUnits = b.lostUnits := rfl
@[simp] theorem setTim_unitStuck (f : Tim → Tim) (b : Block) : (setTim f b).unitStuck = b.unitStuck := rfl
@[simp] theorem setTim_repaired (f : Tim → Tim) (b : Block) : (setTim f b).repaired = b.repaired := rfl
@[simp] theorem setTim_refusedNoSkein (f : Tim → Tim) (b : Block) : (setTim f b).refusedNoSkein = b.refusedNoSkein := rfl
@[simp] theorem setTim_held (f : Tim → Tim) (b : Block) : (setTim f b).held = b.held := rfl
@[simp] theorem setTim_serving (f : Tim → Tim) (b : Block) : (setTim f b).serving = b.serving := rfl
@[simp] theorem setTim_health (f : Tim → Tim) (b : Block) : (setTim f b).health = b.health := rfl
@[simp] theorem setTim_glob (f : Tim → Tim) (b : Block) : (setTim f b).glob = b.glob := rfl
@[simp] theorem setTim_lcBusy (f : Tim → Tim) (b : Block) : (setTim f b).lcBusy = b.lcBusy := rfl
@[simp] theorem setTim_awake (f : Tim → Tim) (b : Block) : (setTim f b).awake = b.awake := rfl
@[simp] theorem setTim_lastRule (f : Tim → Tim) (b : Block) : (setTim f b).lastRule = b.lastRule := rfl
@[simp] theorem setTim_rule (f : Tim → Tim) (b : Block) : (setTim f b).rule = b.rule := rfl
@[simp] theorem setTim_pwr (f : Tim → Tim) (b : Block) : (setTim f b).pwr = b.pwr := rfl
@[simp] theorem setTim_tim (f : Tim → Tim) (b : Block) : (setTim f b).tim = f b.tim := rfl
@[simp] theorem setTim_ladder (f : Tim → Tim) (b : Block) : (setTim f b).ladder = b.ladder := rfl
@[simp] theorem setTim_fwHalted (f : Tim → Tim) (b : Block) : (setTim f b).fwHalted = b.fwHalted := rfl
@[simp] theorem setTim_fwKick (f : Tim → Tim) (b : Block) : (setTim f b).fwKick = b.fwKick := rfl
@[simp] theorem setTim_fwRestart (f : Tim → Tim) (b : Block) : (setTim f b).fwRestart = b.fwRestart := rfl
@[simp] theorem setTim_fwExpiry (f : Tim → Tim) (b : Block) : (setTim f b).fwExpiry = b.fwExpiry := rfl
@[simp] theorem setTim_host (f : Tim → Tim) (b : Block) : (setTim f b).host = b.host := rfl
@[simp] theorem setTim_dst (f : Tim → Tim) (b : Block) : (setTim f b).dst = b.dst := rfl
@[simp] theorem setTim_mem (f : Tim → Tim) (b : Block) : (setTim f b).mem = b.mem := rfl
@[simp] theorem setTim_wh (f : Tim → Tim) (b : Block) : (setTim f b).wh = b.wh := rfl
@[simp] theorem setTim_fab (f : Tim → Tim) (b : Block) : (setTim f b).fab = b.fab := rfl
@[simp] theorem setTim_srv (f : Tim → Tim) (b : Block) : (setTim f b).srv = b.srv := rfl
@[simp] theorem setTim_tel (f : Tim → Tim) (b : Block) : (setTim f b).tel = b.tel := rfl
@[simp] theorem setTim_root (f : Tim → Tim) (b : Block) : (setTim f b).root = b.root := rfl
@[simp] theorem setTim_dataRoot (f : Tim → Tim) (b : Block) : (setTim f b).dataRoot = b.dataRoot := rfl
@[simp] theorem setTim_nStart (f : Tim → Tim) (b : Block) : (setTim f b).nStart = b.nStart := rfl
@[simp] theorem setTim_faultNext (f : Tim → Tim) (b : Block) : (setTim f b).faultNext = b.faultNext := rfl
@[simp] theorem setTim_faults (f : Tim → Tim) (b : Block) : (setTim f b).faults = b.faults := rfl
@[simp] theorem setTim_fltSlot (f : Tim → Tim) (b : Block) : (setTim f b).fltSlot = b.fltSlot := rfl
@[simp] theorem setTim_draws (f : Tim → Tim) (b : Block) : (setTim f b).draws = b.draws := rfl
@[simp] theorem setTim_choices (f : Tim → Tim) (b : Block) : (setTim f b).choices = b.choices := rfl
@[simp] theorem setTim_out (f : Tim → Tim) (b : Block) : (setTim f b).out = b.out := rfl

/-! ### setPwr -/

@[simp] theorem setPwr_row (f : Power → Power) (b : Block) : (setPwr f b).row = b.row := rfl
@[simp] theorem setPwr_regs (f : Power → Power) (b : Block) : (setPwr f b).regs = b.regs := rfl
@[simp] theorem setPwr_tick (f : Power → Power) (b : Block) : (setPwr f b).tick = b.tick := rfl
@[simp] theorem setPwr_mgr (f : Power → Power) (b : Block) : (setPwr f b).mgr = b.mgr := rfl
@[simp] theorem setPwr_mgrView (f : Power → Power) (b : Block) : (setPwr f b).mgrView = b.mgrView := rfl
@[simp] theorem setPwr_mgrFences (f : Power → Power) (b : Block) : (setPwr f b).mgrFences = b.mgrFences := rfl
@[simp] theorem setPwr_skeins (f : Power → Power) (b : Block) : (setPwr f b).skeins = b.skeins := rfl
@[simp] theorem setPwr_descs (f : Power → Power) (b : Block) : (setPwr f b).descs = b.descs := rfl
@[simp] theorem setPwr_nextDesc (f : Power → Power) (b : Block) : (setPwr f b).nextDesc = b.nextDesc := rfl
@[simp] theorem setPwr_lates (f : Power → Power) (b : Block) : (setPwr f b).lates = b.lates := rfl
@[simp] theorem setPwr_standing (f : Power → Power) (b : Block) : (setPwr f b).standing = b.standing := rfl
@[simp] theorem setPwr_suspects (f : Power → Power) (b : Block) : (setPwr f b).suspects = b.suspects := rfl
@[simp] theorem setPwr_lostUnits (f : Power → Power) (b : Block) : (setPwr f b).lostUnits = b.lostUnits := rfl
@[simp] theorem setPwr_unitStuck (f : Power → Power) (b : Block) : (setPwr f b).unitStuck = b.unitStuck := rfl
@[simp] theorem setPwr_repaired (f : Power → Power) (b : Block) : (setPwr f b).repaired = b.repaired := rfl
@[simp] theorem setPwr_refusedNoSkein (f : Power → Power) (b : Block) : (setPwr f b).refusedNoSkein = b.refusedNoSkein := rfl
@[simp] theorem setPwr_held (f : Power → Power) (b : Block) : (setPwr f b).held = b.held := rfl
@[simp] theorem setPwr_serving (f : Power → Power) (b : Block) : (setPwr f b).serving = b.serving := rfl
@[simp] theorem setPwr_health (f : Power → Power) (b : Block) : (setPwr f b).health = b.health := rfl
@[simp] theorem setPwr_glob (f : Power → Power) (b : Block) : (setPwr f b).glob = b.glob := rfl
@[simp] theorem setPwr_lcBusy (f : Power → Power) (b : Block) : (setPwr f b).lcBusy = b.lcBusy := rfl
@[simp] theorem setPwr_awake (f : Power → Power) (b : Block) : (setPwr f b).awake = b.awake := rfl
@[simp] theorem setPwr_lastRule (f : Power → Power) (b : Block) : (setPwr f b).lastRule = b.lastRule := rfl
@[simp] theorem setPwr_rule (f : Power → Power) (b : Block) : (setPwr f b).rule = b.rule := rfl
@[simp] theorem setPwr_pwr (f : Power → Power) (b : Block) : (setPwr f b).pwr = f b.pwr := rfl
@[simp] theorem setPwr_tim (f : Power → Power) (b : Block) : (setPwr f b).tim = b.tim := rfl
@[simp] theorem setPwr_ladder (f : Power → Power) (b : Block) : (setPwr f b).ladder = b.ladder := rfl
@[simp] theorem setPwr_fwHalted (f : Power → Power) (b : Block) : (setPwr f b).fwHalted = b.fwHalted := rfl
@[simp] theorem setPwr_fwKick (f : Power → Power) (b : Block) : (setPwr f b).fwKick = b.fwKick := rfl
@[simp] theorem setPwr_fwRestart (f : Power → Power) (b : Block) : (setPwr f b).fwRestart = b.fwRestart := rfl
@[simp] theorem setPwr_fwExpiry (f : Power → Power) (b : Block) : (setPwr f b).fwExpiry = b.fwExpiry := rfl
@[simp] theorem setPwr_host (f : Power → Power) (b : Block) : (setPwr f b).host = b.host := rfl
@[simp] theorem setPwr_dst (f : Power → Power) (b : Block) : (setPwr f b).dst = b.dst := rfl
@[simp] theorem setPwr_mem (f : Power → Power) (b : Block) : (setPwr f b).mem = b.mem := rfl
@[simp] theorem setPwr_wh (f : Power → Power) (b : Block) : (setPwr f b).wh = b.wh := rfl
@[simp] theorem setPwr_fab (f : Power → Power) (b : Block) : (setPwr f b).fab = b.fab := rfl
@[simp] theorem setPwr_srv (f : Power → Power) (b : Block) : (setPwr f b).srv = b.srv := rfl
@[simp] theorem setPwr_tel (f : Power → Power) (b : Block) : (setPwr f b).tel = b.tel := rfl
@[simp] theorem setPwr_root (f : Power → Power) (b : Block) : (setPwr f b).root = b.root := rfl
@[simp] theorem setPwr_dataRoot (f : Power → Power) (b : Block) : (setPwr f b).dataRoot = b.dataRoot := rfl
@[simp] theorem setPwr_nStart (f : Power → Power) (b : Block) : (setPwr f b).nStart = b.nStart := rfl
@[simp] theorem setPwr_faultNext (f : Power → Power) (b : Block) : (setPwr f b).faultNext = b.faultNext := rfl
@[simp] theorem setPwr_faults (f : Power → Power) (b : Block) : (setPwr f b).faults = b.faults := rfl
@[simp] theorem setPwr_fltSlot (f : Power → Power) (b : Block) : (setPwr f b).fltSlot = b.fltSlot := rfl
@[simp] theorem setPwr_draws (f : Power → Power) (b : Block) : (setPwr f b).draws = b.draws := rfl
@[simp] theorem setPwr_choices (f : Power → Power) (b : Block) : (setPwr f b).choices = b.choices := rfl
@[simp] theorem setPwr_out (f : Power → Power) (b : Block) : (setPwr f b).out = b.out := rfl

/-! ### setDistaff -/

@[simp] theorem setDistaff_row (f : Distaff → Distaff) (b : Block) : (setDistaff f b).row = b.row := rfl
@[simp] theorem setDistaff_regs (f : Distaff → Distaff) (b : Block) : (setDistaff f b).regs = b.regs := rfl
@[simp] theorem setDistaff_tick (f : Distaff → Distaff) (b : Block) : (setDistaff f b).tick = b.tick := rfl
@[simp] theorem setDistaff_mgr (f : Distaff → Distaff) (b : Block) : (setDistaff f b).mgr = b.mgr := rfl
@[simp] theorem setDistaff_mgrView (f : Distaff → Distaff) (b : Block) : (setDistaff f b).mgrView = b.mgrView := rfl
@[simp] theorem setDistaff_mgrFences (f : Distaff → Distaff) (b : Block) : (setDistaff f b).mgrFences = b.mgrFences := rfl
@[simp] theorem setDistaff_skeins (f : Distaff → Distaff) (b : Block) : (setDistaff f b).skeins = b.skeins := rfl
@[simp] theorem setDistaff_descs (f : Distaff → Distaff) (b : Block) : (setDistaff f b).descs = b.descs := rfl
@[simp] theorem setDistaff_nextDesc (f : Distaff → Distaff) (b : Block) : (setDistaff f b).nextDesc = b.nextDesc := rfl
@[simp] theorem setDistaff_lates (f : Distaff → Distaff) (b : Block) : (setDistaff f b).lates = b.lates := rfl
@[simp] theorem setDistaff_standing (f : Distaff → Distaff) (b : Block) : (setDistaff f b).standing = b.standing := rfl
@[simp] theorem setDistaff_suspects (f : Distaff → Distaff) (b : Block) : (setDistaff f b).suspects = b.suspects := rfl
@[simp] theorem setDistaff_lostUnits (f : Distaff → Distaff) (b : Block) : (setDistaff f b).lostUnits = b.lostUnits := rfl
@[simp] theorem setDistaff_unitStuck (f : Distaff → Distaff) (b : Block) : (setDistaff f b).unitStuck = b.unitStuck := rfl
@[simp] theorem setDistaff_repaired (f : Distaff → Distaff) (b : Block) : (setDistaff f b).repaired = b.repaired := rfl
@[simp] theorem setDistaff_refusedNoSkein (f : Distaff → Distaff) (b : Block) : (setDistaff f b).refusedNoSkein = b.refusedNoSkein := rfl
@[simp] theorem setDistaff_held (f : Distaff → Distaff) (b : Block) : (setDistaff f b).held = b.held := rfl
@[simp] theorem setDistaff_serving (f : Distaff → Distaff) (b : Block) : (setDistaff f b).serving = b.serving := rfl
@[simp] theorem setDistaff_health (f : Distaff → Distaff) (b : Block) : (setDistaff f b).health = b.health := rfl
@[simp] theorem setDistaff_glob (f : Distaff → Distaff) (b : Block) : (setDistaff f b).glob = b.glob := rfl
@[simp] theorem setDistaff_lcBusy (f : Distaff → Distaff) (b : Block) : (setDistaff f b).lcBusy = b.lcBusy := rfl
@[simp] theorem setDistaff_awake (f : Distaff → Distaff) (b : Block) : (setDistaff f b).awake = b.awake := rfl
@[simp] theorem setDistaff_lastRule (f : Distaff → Distaff) (b : Block) : (setDistaff f b).lastRule = b.lastRule := rfl
@[simp] theorem setDistaff_rule (f : Distaff → Distaff) (b : Block) : (setDistaff f b).rule = b.rule := rfl
@[simp] theorem setDistaff_pwr (f : Distaff → Distaff) (b : Block) : (setDistaff f b).pwr = b.pwr := rfl
@[simp] theorem setDistaff_tim (f : Distaff → Distaff) (b : Block) : (setDistaff f b).tim = b.tim := rfl
@[simp] theorem setDistaff_ladder (f : Distaff → Distaff) (b : Block) : (setDistaff f b).ladder = b.ladder := rfl
@[simp] theorem setDistaff_fwHalted (f : Distaff → Distaff) (b : Block) : (setDistaff f b).fwHalted = b.fwHalted := rfl
@[simp] theorem setDistaff_fwKick (f : Distaff → Distaff) (b : Block) : (setDistaff f b).fwKick = b.fwKick := rfl
@[simp] theorem setDistaff_fwRestart (f : Distaff → Distaff) (b : Block) : (setDistaff f b).fwRestart = b.fwRestart := rfl
@[simp] theorem setDistaff_fwExpiry (f : Distaff → Distaff) (b : Block) : (setDistaff f b).fwExpiry = b.fwExpiry := rfl
@[simp] theorem setDistaff_host (f : Distaff → Distaff) (b : Block) : (setDistaff f b).host = b.host := rfl
@[simp] theorem setDistaff_dst (f : Distaff → Distaff) (b : Block) : (setDistaff f b).dst = f b.dst := rfl
@[simp] theorem setDistaff_mem (f : Distaff → Distaff) (b : Block) : (setDistaff f b).mem = b.mem := rfl
@[simp] theorem setDistaff_wh (f : Distaff → Distaff) (b : Block) : (setDistaff f b).wh = b.wh := rfl
@[simp] theorem setDistaff_fab (f : Distaff → Distaff) (b : Block) : (setDistaff f b).fab = b.fab := rfl
@[simp] theorem setDistaff_srv (f : Distaff → Distaff) (b : Block) : (setDistaff f b).srv = b.srv := rfl
@[simp] theorem setDistaff_tel (f : Distaff → Distaff) (b : Block) : (setDistaff f b).tel = b.tel := rfl
@[simp] theorem setDistaff_root (f : Distaff → Distaff) (b : Block) : (setDistaff f b).root = b.root := rfl
@[simp] theorem setDistaff_dataRoot (f : Distaff → Distaff) (b : Block) : (setDistaff f b).dataRoot = b.dataRoot := rfl
@[simp] theorem setDistaff_nStart (f : Distaff → Distaff) (b : Block) : (setDistaff f b).nStart = b.nStart := rfl
@[simp] theorem setDistaff_faultNext (f : Distaff → Distaff) (b : Block) : (setDistaff f b).faultNext = b.faultNext := rfl
@[simp] theorem setDistaff_faults (f : Distaff → Distaff) (b : Block) : (setDistaff f b).faults = b.faults := rfl
@[simp] theorem setDistaff_fltSlot (f : Distaff → Distaff) (b : Block) : (setDistaff f b).fltSlot = b.fltSlot := rfl
@[simp] theorem setDistaff_draws (f : Distaff → Distaff) (b : Block) : (setDistaff f b).draws = b.draws := rfl
@[simp] theorem setDistaff_choices (f : Distaff → Distaff) (b : Block) : (setDistaff f b).choices = b.choices := rfl
@[simp] theorem setDistaff_out (f : Distaff → Distaff) (b : Block) : (setDistaff f b).out = b.out := rfl

/-! ### setHost -/

@[simp] theorem setHost_row (f : HostSide → HostSide) (b : Block) : (setHost f b).row = b.row := rfl
@[simp] theorem setHost_regs (f : HostSide → HostSide) (b : Block) : (setHost f b).regs = b.regs := rfl
@[simp] theorem setHost_tick (f : HostSide → HostSide) (b : Block) : (setHost f b).tick = b.tick := rfl
@[simp] theorem setHost_mgr (f : HostSide → HostSide) (b : Block) : (setHost f b).mgr = b.mgr := rfl
@[simp] theorem setHost_mgrView (f : HostSide → HostSide) (b : Block) : (setHost f b).mgrView = b.mgrView := rfl
@[simp] theorem setHost_mgrFences (f : HostSide → HostSide) (b : Block) : (setHost f b).mgrFences = b.mgrFences := rfl
@[simp] theorem setHost_skeins (f : HostSide → HostSide) (b : Block) : (setHost f b).skeins = b.skeins := rfl
@[simp] theorem setHost_descs (f : HostSide → HostSide) (b : Block) : (setHost f b).descs = b.descs := rfl
@[simp] theorem setHost_nextDesc (f : HostSide → HostSide) (b : Block) : (setHost f b).nextDesc = b.nextDesc := rfl
@[simp] theorem setHost_lates (f : HostSide → HostSide) (b : Block) : (setHost f b).lates = b.lates := rfl
@[simp] theorem setHost_standing (f : HostSide → HostSide) (b : Block) : (setHost f b).standing = b.standing := rfl
@[simp] theorem setHost_suspects (f : HostSide → HostSide) (b : Block) : (setHost f b).suspects = b.suspects := rfl
@[simp] theorem setHost_lostUnits (f : HostSide → HostSide) (b : Block) : (setHost f b).lostUnits = b.lostUnits := rfl
@[simp] theorem setHost_unitStuck (f : HostSide → HostSide) (b : Block) : (setHost f b).unitStuck = b.unitStuck := rfl
@[simp] theorem setHost_repaired (f : HostSide → HostSide) (b : Block) : (setHost f b).repaired = b.repaired := rfl
@[simp] theorem setHost_refusedNoSkein (f : HostSide → HostSide) (b : Block) : (setHost f b).refusedNoSkein = b.refusedNoSkein := rfl
@[simp] theorem setHost_held (f : HostSide → HostSide) (b : Block) : (setHost f b).held = b.held := rfl
@[simp] theorem setHost_serving (f : HostSide → HostSide) (b : Block) : (setHost f b).serving = b.serving := rfl
@[simp] theorem setHost_health (f : HostSide → HostSide) (b : Block) : (setHost f b).health = b.health := rfl
@[simp] theorem setHost_glob (f : HostSide → HostSide) (b : Block) : (setHost f b).glob = b.glob := rfl
@[simp] theorem setHost_lcBusy (f : HostSide → HostSide) (b : Block) : (setHost f b).lcBusy = b.lcBusy := rfl
@[simp] theorem setHost_awake (f : HostSide → HostSide) (b : Block) : (setHost f b).awake = b.awake := rfl
@[simp] theorem setHost_lastRule (f : HostSide → HostSide) (b : Block) : (setHost f b).lastRule = b.lastRule := rfl
@[simp] theorem setHost_rule (f : HostSide → HostSide) (b : Block) : (setHost f b).rule = b.rule := rfl
@[simp] theorem setHost_pwr (f : HostSide → HostSide) (b : Block) : (setHost f b).pwr = b.pwr := rfl
@[simp] theorem setHost_tim (f : HostSide → HostSide) (b : Block) : (setHost f b).tim = b.tim := rfl
@[simp] theorem setHost_ladder (f : HostSide → HostSide) (b : Block) : (setHost f b).ladder = b.ladder := rfl
@[simp] theorem setHost_fwHalted (f : HostSide → HostSide) (b : Block) : (setHost f b).fwHalted = b.fwHalted := rfl
@[simp] theorem setHost_fwKick (f : HostSide → HostSide) (b : Block) : (setHost f b).fwKick = b.fwKick := rfl
@[simp] theorem setHost_fwRestart (f : HostSide → HostSide) (b : Block) : (setHost f b).fwRestart = b.fwRestart := rfl
@[simp] theorem setHost_fwExpiry (f : HostSide → HostSide) (b : Block) : (setHost f b).fwExpiry = b.fwExpiry := rfl
@[simp] theorem setHost_host (f : HostSide → HostSide) (b : Block) : (setHost f b).host = f b.host := rfl
@[simp] theorem setHost_dst (f : HostSide → HostSide) (b : Block) : (setHost f b).dst = b.dst := rfl
@[simp] theorem setHost_mem (f : HostSide → HostSide) (b : Block) : (setHost f b).mem = b.mem := rfl
@[simp] theorem setHost_wh (f : HostSide → HostSide) (b : Block) : (setHost f b).wh = b.wh := rfl
@[simp] theorem setHost_fab (f : HostSide → HostSide) (b : Block) : (setHost f b).fab = b.fab := rfl
@[simp] theorem setHost_srv (f : HostSide → HostSide) (b : Block) : (setHost f b).srv = b.srv := rfl
@[simp] theorem setHost_tel (f : HostSide → HostSide) (b : Block) : (setHost f b).tel = b.tel := rfl
@[simp] theorem setHost_root (f : HostSide → HostSide) (b : Block) : (setHost f b).root = b.root := rfl
@[simp] theorem setHost_dataRoot (f : HostSide → HostSide) (b : Block) : (setHost f b).dataRoot = b.dataRoot := rfl
@[simp] theorem setHost_nStart (f : HostSide → HostSide) (b : Block) : (setHost f b).nStart = b.nStart := rfl
@[simp] theorem setHost_faultNext (f : HostSide → HostSide) (b : Block) : (setHost f b).faultNext = b.faultNext := rfl
@[simp] theorem setHost_faults (f : HostSide → HostSide) (b : Block) : (setHost f b).faults = b.faults := rfl
@[simp] theorem setHost_fltSlot (f : HostSide → HostSide) (b : Block) : (setHost f b).fltSlot = b.fltSlot := rfl
@[simp] theorem setHost_draws (f : HostSide → HostSide) (b : Block) : (setHost f b).draws = b.draws := rfl
@[simp] theorem setHost_choices (f : HostSide → HostSide) (b : Block) : (setHost f b).choices = b.choices := rfl
@[simp] theorem setHost_out (f : HostSide → HostSide) (b : Block) : (setHost f b).out = b.out := rfl

/-! ### emit -/

@[simp] theorem emit_row (o : Output) (b : Block) : (emit o b).row = b.row := rfl
@[simp] theorem emit_regs (o : Output) (b : Block) : (emit o b).regs = b.regs := rfl
@[simp] theorem emit_tick (o : Output) (b : Block) : (emit o b).tick = b.tick := rfl
@[simp] theorem emit_mgr (o : Output) (b : Block) : (emit o b).mgr = b.mgr := rfl
@[simp] theorem emit_mgrView (o : Output) (b : Block) : (emit o b).mgrView = b.mgrView := rfl
@[simp] theorem emit_mgrFences (o : Output) (b : Block) : (emit o b).mgrFences = b.mgrFences := rfl
@[simp] theorem emit_skeins (o : Output) (b : Block) : (emit o b).skeins = b.skeins := rfl
@[simp] theorem emit_descs (o : Output) (b : Block) : (emit o b).descs = b.descs := rfl
@[simp] theorem emit_nextDesc (o : Output) (b : Block) : (emit o b).nextDesc = b.nextDesc := rfl
@[simp] theorem emit_lates (o : Output) (b : Block) : (emit o b).lates = b.lates := rfl
@[simp] theorem emit_standing (o : Output) (b : Block) : (emit o b).standing = b.standing := rfl
@[simp] theorem emit_suspects (o : Output) (b : Block) : (emit o b).suspects = b.suspects := rfl
@[simp] theorem emit_lostUnits (o : Output) (b : Block) : (emit o b).lostUnits = b.lostUnits := rfl
@[simp] theorem emit_unitStuck (o : Output) (b : Block) : (emit o b).unitStuck = b.unitStuck := rfl
@[simp] theorem emit_repaired (o : Output) (b : Block) : (emit o b).repaired = b.repaired := rfl
@[simp] theorem emit_refusedNoSkein (o : Output) (b : Block) : (emit o b).refusedNoSkein = b.refusedNoSkein := rfl
@[simp] theorem emit_held (o : Output) (b : Block) : (emit o b).held = b.held := rfl
@[simp] theorem emit_serving (o : Output) (b : Block) : (emit o b).serving = b.serving := rfl
@[simp] theorem emit_health (o : Output) (b : Block) : (emit o b).health = b.health := rfl
@[simp] theorem emit_glob (o : Output) (b : Block) : (emit o b).glob = b.glob := rfl
@[simp] theorem emit_lcBusy (o : Output) (b : Block) : (emit o b).lcBusy = b.lcBusy := rfl
@[simp] theorem emit_awake (o : Output) (b : Block) : (emit o b).awake = b.awake := rfl
@[simp] theorem emit_lastRule (o : Output) (b : Block) : (emit o b).lastRule = b.lastRule := rfl
@[simp] theorem emit_rule (o : Output) (b : Block) : (emit o b).rule = b.rule := rfl
@[simp] theorem emit_pwr (o : Output) (b : Block) : (emit o b).pwr = b.pwr := rfl
@[simp] theorem emit_tim (o : Output) (b : Block) : (emit o b).tim = b.tim := rfl
@[simp] theorem emit_ladder (o : Output) (b : Block) : (emit o b).ladder = b.ladder := rfl
@[simp] theorem emit_fwHalted (o : Output) (b : Block) : (emit o b).fwHalted = b.fwHalted := rfl
@[simp] theorem emit_fwKick (o : Output) (b : Block) : (emit o b).fwKick = b.fwKick := rfl
@[simp] theorem emit_fwRestart (o : Output) (b : Block) : (emit o b).fwRestart = b.fwRestart := rfl
@[simp] theorem emit_fwExpiry (o : Output) (b : Block) : (emit o b).fwExpiry = b.fwExpiry := rfl
@[simp] theorem emit_host (o : Output) (b : Block) : (emit o b).host = b.host := rfl
@[simp] theorem emit_dst (o : Output) (b : Block) : (emit o b).dst = b.dst := rfl
@[simp] theorem emit_mem (o : Output) (b : Block) : (emit o b).mem = b.mem := rfl
@[simp] theorem emit_wh (o : Output) (b : Block) : (emit o b).wh = b.wh := rfl
@[simp] theorem emit_fab (o : Output) (b : Block) : (emit o b).fab = b.fab := rfl
@[simp] theorem emit_srv (o : Output) (b : Block) : (emit o b).srv = b.srv := rfl
@[simp] theorem emit_tel (o : Output) (b : Block) : (emit o b).tel = b.tel := rfl
@[simp] theorem emit_root (o : Output) (b : Block) : (emit o b).root = b.root := rfl
@[simp] theorem emit_dataRoot (o : Output) (b : Block) : (emit o b).dataRoot = b.dataRoot := rfl
@[simp] theorem emit_nStart (o : Output) (b : Block) : (emit o b).nStart = b.nStart := rfl
@[simp] theorem emit_faultNext (o : Output) (b : Block) : (emit o b).faultNext = b.faultNext := rfl
@[simp] theorem emit_faults (o : Output) (b : Block) : (emit o b).faults = b.faults := rfl
@[simp] theorem emit_fltSlot (o : Output) (b : Block) : (emit o b).fltSlot = b.fltSlot := rfl
@[simp] theorem emit_draws (o : Output) (b : Block) : (emit o b).draws = b.draws := rfl
@[simp] theorem emit_choices (o : Output) (b : Block) : (emit o b).choices = b.choices := rfl
@[simp] theorem emit_out (o : Output) (b : Block) : (emit o b).out = o :: b.out := rfl

/-! ### modSkein -/

@[simp] theorem modSkein_row (n : Nat) (f : Skein → Skein) (b : Block) : (modSkein n f b).row = b.row := rfl
@[simp] theorem modSkein_regs (n : Nat) (f : Skein → Skein) (b : Block) : (modSkein n f b).regs = b.regs := rfl
@[simp] theorem modSkein_tick (n : Nat) (f : Skein → Skein) (b : Block) : (modSkein n f b).tick = b.tick := rfl
@[simp] theorem modSkein_mgr (n : Nat) (f : Skein → Skein) (b : Block) : (modSkein n f b).mgr = b.mgr := rfl
@[simp] theorem modSkein_mgrView (n : Nat) (f : Skein → Skein) (b : Block) : (modSkein n f b).mgrView = b.mgrView := rfl
@[simp] theorem modSkein_mgrFences (n : Nat) (f : Skein → Skein) (b : Block) : (modSkein n f b).mgrFences = b.mgrFences := rfl
@[simp] theorem modSkein_skeins (n : Nat) (f : Skein → Skein) (b : Block) : (modSkein n f b).skeins = amMod n f b.skeins := rfl
@[simp] theorem modSkein_descs (n : Nat) (f : Skein → Skein) (b : Block) : (modSkein n f b).descs = b.descs := rfl
@[simp] theorem modSkein_nextDesc (n : Nat) (f : Skein → Skein) (b : Block) : (modSkein n f b).nextDesc = b.nextDesc := rfl
@[simp] theorem modSkein_lates (n : Nat) (f : Skein → Skein) (b : Block) : (modSkein n f b).lates = b.lates := rfl
@[simp] theorem modSkein_standing (n : Nat) (f : Skein → Skein) (b : Block) : (modSkein n f b).standing = b.standing := rfl
@[simp] theorem modSkein_suspects (n : Nat) (f : Skein → Skein) (b : Block) : (modSkein n f b).suspects = b.suspects := rfl
@[simp] theorem modSkein_lostUnits (n : Nat) (f : Skein → Skein) (b : Block) : (modSkein n f b).lostUnits = b.lostUnits := rfl
@[simp] theorem modSkein_unitStuck (n : Nat) (f : Skein → Skein) (b : Block) : (modSkein n f b).unitStuck = b.unitStuck := rfl
@[simp] theorem modSkein_repaired (n : Nat) (f : Skein → Skein) (b : Block) : (modSkein n f b).repaired = b.repaired := rfl
@[simp] theorem modSkein_refusedNoSkein (n : Nat) (f : Skein → Skein) (b : Block) : (modSkein n f b).refusedNoSkein = b.refusedNoSkein := rfl
@[simp] theorem modSkein_held (n : Nat) (f : Skein → Skein) (b : Block) : (modSkein n f b).held = b.held := rfl
@[simp] theorem modSkein_serving (n : Nat) (f : Skein → Skein) (b : Block) : (modSkein n f b).serving = b.serving := rfl
@[simp] theorem modSkein_health (n : Nat) (f : Skein → Skein) (b : Block) : (modSkein n f b).health = b.health := rfl
@[simp] theorem modSkein_glob (n : Nat) (f : Skein → Skein) (b : Block) : (modSkein n f b).glob = b.glob := rfl
@[simp] theorem modSkein_lcBusy (n : Nat) (f : Skein → Skein) (b : Block) : (modSkein n f b).lcBusy = b.lcBusy := rfl
@[simp] theorem modSkein_awake (n : Nat) (f : Skein → Skein) (b : Block) : (modSkein n f b).awake = b.awake := rfl
@[simp] theorem modSkein_lastRule (n : Nat) (f : Skein → Skein) (b : Block) : (modSkein n f b).lastRule = b.lastRule := rfl
@[simp] theorem modSkein_rule (n : Nat) (f : Skein → Skein) (b : Block) : (modSkein n f b).rule = b.rule := rfl
@[simp] theorem modSkein_pwr (n : Nat) (f : Skein → Skein) (b : Block) : (modSkein n f b).pwr = b.pwr := rfl
@[simp] theorem modSkein_tim (n : Nat) (f : Skein → Skein) (b : Block) : (modSkein n f b).tim = b.tim := rfl
@[simp] theorem modSkein_ladder (n : Nat) (f : Skein → Skein) (b : Block) : (modSkein n f b).ladder = b.ladder := rfl
@[simp] theorem modSkein_fwHalted (n : Nat) (f : Skein → Skein) (b : Block) : (modSkein n f b).fwHalted = b.fwHalted := rfl
@[simp] theorem modSkein_fwKick (n : Nat) (f : Skein → Skein) (b : Block) : (modSkein n f b).fwKick = b.fwKick := rfl
@[simp] theorem modSkein_fwRestart (n : Nat) (f : Skein → Skein) (b : Block) : (modSkein n f b).fwRestart = b.fwRestart := rfl
@[simp] theorem modSkein_fwExpiry (n : Nat) (f : Skein → Skein) (b : Block) : (modSkein n f b).fwExpiry = b.fwExpiry := rfl
@[simp] theorem modSkein_host (n : Nat) (f : Skein → Skein) (b : Block) : (modSkein n f b).host = b.host := rfl
@[simp] theorem modSkein_dst (n : Nat) (f : Skein → Skein) (b : Block) : (modSkein n f b).dst = b.dst := rfl
@[simp] theorem modSkein_mem (n : Nat) (f : Skein → Skein) (b : Block) : (modSkein n f b).mem = b.mem := rfl
@[simp] theorem modSkein_wh (n : Nat) (f : Skein → Skein) (b : Block) : (modSkein n f b).wh = b.wh := rfl
@[simp] theorem modSkein_fab (n : Nat) (f : Skein → Skein) (b : Block) : (modSkein n f b).fab = b.fab := rfl
@[simp] theorem modSkein_srv (n : Nat) (f : Skein → Skein) (b : Block) : (modSkein n f b).srv = b.srv := rfl
@[simp] theorem modSkein_tel (n : Nat) (f : Skein → Skein) (b : Block) : (modSkein n f b).tel = b.tel := rfl
@[simp] theorem modSkein_root (n : Nat) (f : Skein → Skein) (b : Block) : (modSkein n f b).root = b.root := rfl
@[simp] theorem modSkein_dataRoot (n : Nat) (f : Skein → Skein) (b : Block) : (modSkein n f b).dataRoot = b.dataRoot := rfl
@[simp] theorem modSkein_nStart (n : Nat) (f : Skein → Skein) (b : Block) : (modSkein n f b).nStart = b.nStart := rfl
@[simp] theorem modSkein_faultNext (n : Nat) (f : Skein → Skein) (b : Block) : (modSkein n f b).faultNext = b.faultNext := rfl
@[simp] theorem modSkein_faults (n : Nat) (f : Skein → Skein) (b : Block) : (modSkein n f b).faults = b.faults := rfl
@[simp] theorem modSkein_fltSlot (n : Nat) (f : Skein → Skein) (b : Block) : (modSkein n f b).fltSlot = b.fltSlot := rfl
@[simp] theorem modSkein_draws (n : Nat) (f : Skein → Skein) (b : Block) : (modSkein n f b).draws = b.draws := rfl
@[simp] theorem modSkein_choices (n : Nat) (f : Skein → Skein) (b : Block) : (modSkein n f b).choices = b.choices := rfl
@[simp] theorem modSkein_out (n : Nat) (f : Skein → Skein) (b : Block) : (modSkein n f b).out = b.out := rfl

/-! ### putSkein -/

@[simp] theorem putSkein_row (n : Nat) (s : Skein) (b : Block) : (putSkein n s b).row = b.row := rfl
@[simp] theorem putSkein_regs (n : Nat) (s : Skein) (b : Block) : (putSkein n s b).regs = b.regs := rfl
@[simp] theorem putSkein_tick (n : Nat) (s : Skein) (b : Block) : (putSkein n s b).tick = b.tick := rfl
@[simp] theorem putSkein_mgr (n : Nat) (s : Skein) (b : Block) : (putSkein n s b).mgr = b.mgr := rfl
@[simp] theorem putSkein_mgrView (n : Nat) (s : Skein) (b : Block) : (putSkein n s b).mgrView = b.mgrView := rfl
@[simp] theorem putSkein_mgrFences (n : Nat) (s : Skein) (b : Block) : (putSkein n s b).mgrFences = b.mgrFences := rfl
@[simp] theorem putSkein_skeins (n : Nat) (s : Skein) (b : Block) : (putSkein n s b).skeins = amSet n s b.skeins := rfl
@[simp] theorem putSkein_descs (n : Nat) (s : Skein) (b : Block) : (putSkein n s b).descs = b.descs := rfl
@[simp] theorem putSkein_nextDesc (n : Nat) (s : Skein) (b : Block) : (putSkein n s b).nextDesc = b.nextDesc := rfl
@[simp] theorem putSkein_lates (n : Nat) (s : Skein) (b : Block) : (putSkein n s b).lates = b.lates := rfl
@[simp] theorem putSkein_standing (n : Nat) (s : Skein) (b : Block) : (putSkein n s b).standing = b.standing := rfl
@[simp] theorem putSkein_suspects (n : Nat) (s : Skein) (b : Block) : (putSkein n s b).suspects = b.suspects := rfl
@[simp] theorem putSkein_lostUnits (n : Nat) (s : Skein) (b : Block) : (putSkein n s b).lostUnits = b.lostUnits := rfl
@[simp] theorem putSkein_unitStuck (n : Nat) (s : Skein) (b : Block) : (putSkein n s b).unitStuck = b.unitStuck := rfl
@[simp] theorem putSkein_repaired (n : Nat) (s : Skein) (b : Block) : (putSkein n s b).repaired = b.repaired := rfl
@[simp] theorem putSkein_refusedNoSkein (n : Nat) (s : Skein) (b : Block) : (putSkein n s b).refusedNoSkein = b.refusedNoSkein := rfl
@[simp] theorem putSkein_held (n : Nat) (s : Skein) (b : Block) : (putSkein n s b).held = b.held := rfl
@[simp] theorem putSkein_serving (n : Nat) (s : Skein) (b : Block) : (putSkein n s b).serving = b.serving := rfl
@[simp] theorem putSkein_health (n : Nat) (s : Skein) (b : Block) : (putSkein n s b).health = b.health := rfl
@[simp] theorem putSkein_glob (n : Nat) (s : Skein) (b : Block) : (putSkein n s b).glob = b.glob := rfl
@[simp] theorem putSkein_lcBusy (n : Nat) (s : Skein) (b : Block) : (putSkein n s b).lcBusy = b.lcBusy := rfl
@[simp] theorem putSkein_awake (n : Nat) (s : Skein) (b : Block) : (putSkein n s b).awake = b.awake := rfl
@[simp] theorem putSkein_lastRule (n : Nat) (s : Skein) (b : Block) : (putSkein n s b).lastRule = b.lastRule := rfl
@[simp] theorem putSkein_rule (n : Nat) (s : Skein) (b : Block) : (putSkein n s b).rule = b.rule := rfl
@[simp] theorem putSkein_pwr (n : Nat) (s : Skein) (b : Block) : (putSkein n s b).pwr = b.pwr := rfl
@[simp] theorem putSkein_tim (n : Nat) (s : Skein) (b : Block) : (putSkein n s b).tim = b.tim := rfl
@[simp] theorem putSkein_ladder (n : Nat) (s : Skein) (b : Block) : (putSkein n s b).ladder = b.ladder := rfl
@[simp] theorem putSkein_fwHalted (n : Nat) (s : Skein) (b : Block) : (putSkein n s b).fwHalted = b.fwHalted := rfl
@[simp] theorem putSkein_fwKick (n : Nat) (s : Skein) (b : Block) : (putSkein n s b).fwKick = b.fwKick := rfl
@[simp] theorem putSkein_fwRestart (n : Nat) (s : Skein) (b : Block) : (putSkein n s b).fwRestart = b.fwRestart := rfl
@[simp] theorem putSkein_fwExpiry (n : Nat) (s : Skein) (b : Block) : (putSkein n s b).fwExpiry = b.fwExpiry := rfl
@[simp] theorem putSkein_host (n : Nat) (s : Skein) (b : Block) : (putSkein n s b).host = b.host := rfl
@[simp] theorem putSkein_dst (n : Nat) (s : Skein) (b : Block) : (putSkein n s b).dst = b.dst := rfl
@[simp] theorem putSkein_mem (n : Nat) (s : Skein) (b : Block) : (putSkein n s b).mem = b.mem := rfl
@[simp] theorem putSkein_wh (n : Nat) (s : Skein) (b : Block) : (putSkein n s b).wh = b.wh := rfl
@[simp] theorem putSkein_fab (n : Nat) (s : Skein) (b : Block) : (putSkein n s b).fab = b.fab := rfl
@[simp] theorem putSkein_srv (n : Nat) (s : Skein) (b : Block) : (putSkein n s b).srv = b.srv := rfl
@[simp] theorem putSkein_tel (n : Nat) (s : Skein) (b : Block) : (putSkein n s b).tel = b.tel := rfl
@[simp] theorem putSkein_root (n : Nat) (s : Skein) (b : Block) : (putSkein n s b).root = b.root := rfl
@[simp] theorem putSkein_dataRoot (n : Nat) (s : Skein) (b : Block) : (putSkein n s b).dataRoot = b.dataRoot := rfl
@[simp] theorem putSkein_nStart (n : Nat) (s : Skein) (b : Block) : (putSkein n s b).nStart = b.nStart := rfl
@[simp] theorem putSkein_faultNext (n : Nat) (s : Skein) (b : Block) : (putSkein n s b).faultNext = b.faultNext := rfl
@[simp] theorem putSkein_faults (n : Nat) (s : Skein) (b : Block) : (putSkein n s b).faults = b.faults := rfl
@[simp] theorem putSkein_fltSlot (n : Nat) (s : Skein) (b : Block) : (putSkein n s b).fltSlot = b.fltSlot := rfl
@[simp] theorem putSkein_draws (n : Nat) (s : Skein) (b : Block) : (putSkein n s b).draws = b.draws := rfl
@[simp] theorem putSkein_choices (n : Nat) (s : Skein) (b : Block) : (putSkein n s b).choices = b.choices := rfl
@[simp] theorem putSkein_out (n : Nat) (s : Skein) (b : Block) : (putSkein n s b).out = b.out := rfl

/-! ### bumpHealth -/

@[simp] theorem bumpHealth_row (off k : Nat) (b : Block) : (bumpHealth off k b).row = b.row := rfl
@[simp] theorem bumpHealth_regs (off k : Nat) (b : Block) : (bumpHealth off k b).regs = b.regs := rfl
@[simp] theorem bumpHealth_tick (off k : Nat) (b : Block) : (bumpHealth off k b).tick = b.tick := rfl
@[simp] theorem bumpHealth_mgr (off k : Nat) (b : Block) : (bumpHealth off k b).mgr = b.mgr := rfl
@[simp] theorem bumpHealth_mgrView (off k : Nat) (b : Block) : (bumpHealth off k b).mgrView = b.mgrView := rfl
@[simp] theorem bumpHealth_mgrFences (off k : Nat) (b : Block) : (bumpHealth off k b).mgrFences = b.mgrFences := rfl
@[simp] theorem bumpHealth_skeins (off k : Nat) (b : Block) : (bumpHealth off k b).skeins = b.skeins := rfl
@[simp] theorem bumpHealth_descs (off k : Nat) (b : Block) : (bumpHealth off k b).descs = b.descs := rfl
@[simp] theorem bumpHealth_nextDesc (off k : Nat) (b : Block) : (bumpHealth off k b).nextDesc = b.nextDesc := rfl
@[simp] theorem bumpHealth_lates (off k : Nat) (b : Block) : (bumpHealth off k b).lates = b.lates := rfl
@[simp] theorem bumpHealth_standing (off k : Nat) (b : Block) : (bumpHealth off k b).standing = b.standing := rfl
@[simp] theorem bumpHealth_suspects (off k : Nat) (b : Block) : (bumpHealth off k b).suspects = b.suspects := rfl
@[simp] theorem bumpHealth_lostUnits (off k : Nat) (b : Block) : (bumpHealth off k b).lostUnits = b.lostUnits := rfl
@[simp] theorem bumpHealth_unitStuck (off k : Nat) (b : Block) : (bumpHealth off k b).unitStuck = b.unitStuck := rfl
@[simp] theorem bumpHealth_repaired (off k : Nat) (b : Block) : (bumpHealth off k b).repaired = b.repaired := rfl
@[simp] theorem bumpHealth_refusedNoSkein (off k : Nat) (b : Block) : (bumpHealth off k b).refusedNoSkein = b.refusedNoSkein := rfl
@[simp] theorem bumpHealth_held (off k : Nat) (b : Block) : (bumpHealth off k b).held = b.held := rfl
@[simp] theorem bumpHealth_serving (off k : Nat) (b : Block) : (bumpHealth off k b).serving = b.serving := rfl
@[simp] theorem bumpHealth_health (off k : Nat) (b : Block) : (bumpHealth off k b).health = bumpAt off k b.health := rfl
@[simp] theorem bumpHealth_glob (off k : Nat) (b : Block) : (bumpHealth off k b).glob = b.glob := rfl
@[simp] theorem bumpHealth_lcBusy (off k : Nat) (b : Block) : (bumpHealth off k b).lcBusy = b.lcBusy := rfl
@[simp] theorem bumpHealth_awake (off k : Nat) (b : Block) : (bumpHealth off k b).awake = b.awake := rfl
@[simp] theorem bumpHealth_lastRule (off k : Nat) (b : Block) : (bumpHealth off k b).lastRule = b.lastRule := rfl
@[simp] theorem bumpHealth_rule (off k : Nat) (b : Block) : (bumpHealth off k b).rule = b.rule := rfl
@[simp] theorem bumpHealth_pwr (off k : Nat) (b : Block) : (bumpHealth off k b).pwr = b.pwr := rfl
@[simp] theorem bumpHealth_tim (off k : Nat) (b : Block) : (bumpHealth off k b).tim = b.tim := rfl
@[simp] theorem bumpHealth_ladder (off k : Nat) (b : Block) : (bumpHealth off k b).ladder = b.ladder := rfl
@[simp] theorem bumpHealth_fwHalted (off k : Nat) (b : Block) : (bumpHealth off k b).fwHalted = b.fwHalted := rfl
@[simp] theorem bumpHealth_fwKick (off k : Nat) (b : Block) : (bumpHealth off k b).fwKick = b.fwKick := rfl
@[simp] theorem bumpHealth_fwRestart (off k : Nat) (b : Block) : (bumpHealth off k b).fwRestart = b.fwRestart := rfl
@[simp] theorem bumpHealth_fwExpiry (off k : Nat) (b : Block) : (bumpHealth off k b).fwExpiry = b.fwExpiry := rfl
@[simp] theorem bumpHealth_host (off k : Nat) (b : Block) : (bumpHealth off k b).host = b.host := rfl
@[simp] theorem bumpHealth_dst (off k : Nat) (b : Block) : (bumpHealth off k b).dst = b.dst := rfl
@[simp] theorem bumpHealth_mem (off k : Nat) (b : Block) : (bumpHealth off k b).mem = b.mem := rfl
@[simp] theorem bumpHealth_wh (off k : Nat) (b : Block) : (bumpHealth off k b).wh = b.wh := rfl
@[simp] theorem bumpHealth_fab (off k : Nat) (b : Block) : (bumpHealth off k b).fab = b.fab := rfl
@[simp] theorem bumpHealth_srv (off k : Nat) (b : Block) : (bumpHealth off k b).srv = b.srv := rfl
@[simp] theorem bumpHealth_tel (off k : Nat) (b : Block) : (bumpHealth off k b).tel = b.tel := rfl
@[simp] theorem bumpHealth_root (off k : Nat) (b : Block) : (bumpHealth off k b).root = b.root := rfl
@[simp] theorem bumpHealth_dataRoot (off k : Nat) (b : Block) : (bumpHealth off k b).dataRoot = b.dataRoot := rfl
@[simp] theorem bumpHealth_nStart (off k : Nat) (b : Block) : (bumpHealth off k b).nStart = b.nStart := rfl
@[simp] theorem bumpHealth_faultNext (off k : Nat) (b : Block) : (bumpHealth off k b).faultNext = b.faultNext := rfl
@[simp] theorem bumpHealth_faults (off k : Nat) (b : Block) : (bumpHealth off k b).faults = b.faults := rfl
@[simp] theorem bumpHealth_fltSlot (off k : Nat) (b : Block) : (bumpHealth off k b).fltSlot = b.fltSlot := rfl
@[simp] theorem bumpHealth_draws (off k : Nat) (b : Block) : (bumpHealth off k b).draws = b.draws := rfl
@[simp] theorem bumpHealth_choices (off k : Nat) (b : Block) : (bumpHealth off k b).choices = b.choices := rfl
@[simp] theorem bumpHealth_out (off k : Nat) (b : Block) : (bumpHealth off k b).out = b.out := rfl

/-! ### bumpGlob -/

@[simp] theorem bumpGlob_row (off k : Nat) (b : Block) : (bumpGlob off k b).row = b.row := rfl
@[simp] theorem bumpGlob_regs (off k : Nat) (b : Block) : (bumpGlob off k b).regs = b.regs := rfl
@[simp] theorem bumpGlob_tick (off k : Nat) (b : Block) : (bumpGlob off k b).tick = b.tick := rfl
@[simp] theorem bumpGlob_mgr (off k : Nat) (b : Block) : (bumpGlob off k b).mgr = b.mgr := rfl
@[simp] theorem bumpGlob_mgrView (off k : Nat) (b : Block) : (bumpGlob off k b).mgrView = b.mgrView := rfl
@[simp] theorem bumpGlob_mgrFences (off k : Nat) (b : Block) : (bumpGlob off k b).mgrFences = b.mgrFences := rfl
@[simp] theorem bumpGlob_skeins (off k : Nat) (b : Block) : (bumpGlob off k b).skeins = b.skeins := rfl
@[simp] theorem bumpGlob_descs (off k : Nat) (b : Block) : (bumpGlob off k b).descs = b.descs := rfl
@[simp] theorem bumpGlob_nextDesc (off k : Nat) (b : Block) : (bumpGlob off k b).nextDesc = b.nextDesc := rfl
@[simp] theorem bumpGlob_lates (off k : Nat) (b : Block) : (bumpGlob off k b).lates = b.lates := rfl
@[simp] theorem bumpGlob_standing (off k : Nat) (b : Block) : (bumpGlob off k b).standing = b.standing := rfl
@[simp] theorem bumpGlob_suspects (off k : Nat) (b : Block) : (bumpGlob off k b).suspects = b.suspects := rfl
@[simp] theorem bumpGlob_lostUnits (off k : Nat) (b : Block) : (bumpGlob off k b).lostUnits = b.lostUnits := rfl
@[simp] theorem bumpGlob_unitStuck (off k : Nat) (b : Block) : (bumpGlob off k b).unitStuck = b.unitStuck := rfl
@[simp] theorem bumpGlob_repaired (off k : Nat) (b : Block) : (bumpGlob off k b).repaired = b.repaired := rfl
@[simp] theorem bumpGlob_refusedNoSkein (off k : Nat) (b : Block) : (bumpGlob off k b).refusedNoSkein = b.refusedNoSkein := rfl
@[simp] theorem bumpGlob_held (off k : Nat) (b : Block) : (bumpGlob off k b).held = b.held := rfl
@[simp] theorem bumpGlob_serving (off k : Nat) (b : Block) : (bumpGlob off k b).serving = b.serving := rfl
@[simp] theorem bumpGlob_health (off k : Nat) (b : Block) : (bumpGlob off k b).health = b.health := rfl
@[simp] theorem bumpGlob_glob (off k : Nat) (b : Block) : (bumpGlob off k b).glob = bumpAt off k b.glob := rfl
@[simp] theorem bumpGlob_lcBusy (off k : Nat) (b : Block) : (bumpGlob off k b).lcBusy = b.lcBusy := rfl
@[simp] theorem bumpGlob_awake (off k : Nat) (b : Block) : (bumpGlob off k b).awake = b.awake := rfl
@[simp] theorem bumpGlob_lastRule (off k : Nat) (b : Block) : (bumpGlob off k b).lastRule = b.lastRule := rfl
@[simp] theorem bumpGlob_rule (off k : Nat) (b : Block) : (bumpGlob off k b).rule = b.rule := rfl
@[simp] theorem bumpGlob_pwr (off k : Nat) (b : Block) : (bumpGlob off k b).pwr = b.pwr := rfl
@[simp] theorem bumpGlob_tim (off k : Nat) (b : Block) : (bumpGlob off k b).tim = b.tim := rfl
@[simp] theorem bumpGlob_ladder (off k : Nat) (b : Block) : (bumpGlob off k b).ladder = b.ladder := rfl
@[simp] theorem bumpGlob_fwHalted (off k : Nat) (b : Block) : (bumpGlob off k b).fwHalted = b.fwHalted := rfl
@[simp] theorem bumpGlob_fwKick (off k : Nat) (b : Block) : (bumpGlob off k b).fwKick = b.fwKick := rfl
@[simp] theorem bumpGlob_fwRestart (off k : Nat) (b : Block) : (bumpGlob off k b).fwRestart = b.fwRestart := rfl
@[simp] theorem bumpGlob_fwExpiry (off k : Nat) (b : Block) : (bumpGlob off k b).fwExpiry = b.fwExpiry := rfl
@[simp] theorem bumpGlob_host (off k : Nat) (b : Block) : (bumpGlob off k b).host = b.host := rfl
@[simp] theorem bumpGlob_dst (off k : Nat) (b : Block) : (bumpGlob off k b).dst = b.dst := rfl
@[simp] theorem bumpGlob_mem (off k : Nat) (b : Block) : (bumpGlob off k b).mem = b.mem := rfl
@[simp] theorem bumpGlob_wh (off k : Nat) (b : Block) : (bumpGlob off k b).wh = b.wh := rfl
@[simp] theorem bumpGlob_fab (off k : Nat) (b : Block) : (bumpGlob off k b).fab = b.fab := rfl
@[simp] theorem bumpGlob_srv (off k : Nat) (b : Block) : (bumpGlob off k b).srv = b.srv := rfl
@[simp] theorem bumpGlob_tel (off k : Nat) (b : Block) : (bumpGlob off k b).tel = b.tel := rfl
@[simp] theorem bumpGlob_root (off k : Nat) (b : Block) : (bumpGlob off k b).root = b.root := rfl
@[simp] theorem bumpGlob_dataRoot (off k : Nat) (b : Block) : (bumpGlob off k b).dataRoot = b.dataRoot := rfl
@[simp] theorem bumpGlob_nStart (off k : Nat) (b : Block) : (bumpGlob off k b).nStart = b.nStart := rfl
@[simp] theorem bumpGlob_faultNext (off k : Nat) (b : Block) : (bumpGlob off k b).faultNext = b.faultNext := rfl
@[simp] theorem bumpGlob_faults (off k : Nat) (b : Block) : (bumpGlob off k b).faults = b.faults := rfl
@[simp] theorem bumpGlob_fltSlot (off k : Nat) (b : Block) : (bumpGlob off k b).fltSlot = b.fltSlot := rfl
@[simp] theorem bumpGlob_draws (off k : Nat) (b : Block) : (bumpGlob off k b).draws = b.draws := rfl
@[simp] theorem bumpGlob_choices (off k : Nat) (b : Block) : (bumpGlob off k b).choices = b.choices := rfl
@[simp] theorem bumpGlob_out (off k : Nat) (b : Block) : (bumpGlob off k b).out = b.out := rfl

/-! ### dropDesc -/

@[simp] theorem dropDesc_row (id : Nat) (b : Block) : (dropDesc id b).row = b.row := rfl
@[simp] theorem dropDesc_regs (id : Nat) (b : Block) : (dropDesc id b).regs = b.regs := rfl
@[simp] theorem dropDesc_tick (id : Nat) (b : Block) : (dropDesc id b).tick = b.tick := rfl
@[simp] theorem dropDesc_mgr (id : Nat) (b : Block) : (dropDesc id b).mgr = b.mgr := rfl
@[simp] theorem dropDesc_mgrView (id : Nat) (b : Block) : (dropDesc id b).mgrView = b.mgrView := rfl
@[simp] theorem dropDesc_mgrFences (id : Nat) (b : Block) : (dropDesc id b).mgrFences = b.mgrFences := rfl
@[simp] theorem dropDesc_skeins (id : Nat) (b : Block) : (dropDesc id b).skeins = b.skeins := rfl
@[simp] theorem dropDesc_descs (id : Nat) (b : Block) : (dropDesc id b).descs = b.descs.filter fun x => x.id != id := rfl
@[simp] theorem dropDesc_nextDesc (id : Nat) (b : Block) : (dropDesc id b).nextDesc = b.nextDesc := rfl
@[simp] theorem dropDesc_lates (id : Nat) (b : Block) : (dropDesc id b).lates = b.lates := rfl
@[simp] theorem dropDesc_standing (id : Nat) (b : Block) : (dropDesc id b).standing = b.standing := rfl
@[simp] theorem dropDesc_suspects (id : Nat) (b : Block) : (dropDesc id b).suspects = b.suspects := rfl
@[simp] theorem dropDesc_lostUnits (id : Nat) (b : Block) : (dropDesc id b).lostUnits = b.lostUnits := rfl
@[simp] theorem dropDesc_unitStuck (id : Nat) (b : Block) : (dropDesc id b).unitStuck = b.unitStuck := rfl
@[simp] theorem dropDesc_repaired (id : Nat) (b : Block) : (dropDesc id b).repaired = b.repaired := rfl
@[simp] theorem dropDesc_refusedNoSkein (id : Nat) (b : Block) : (dropDesc id b).refusedNoSkein = b.refusedNoSkein := rfl
@[simp] theorem dropDesc_held (id : Nat) (b : Block) : (dropDesc id b).held = b.held := rfl
@[simp] theorem dropDesc_serving (id : Nat) (b : Block) : (dropDesc id b).serving = b.serving := rfl
@[simp] theorem dropDesc_health (id : Nat) (b : Block) : (dropDesc id b).health = b.health := rfl
@[simp] theorem dropDesc_glob (id : Nat) (b : Block) : (dropDesc id b).glob = b.glob := rfl
@[simp] theorem dropDesc_lcBusy (id : Nat) (b : Block) : (dropDesc id b).lcBusy = b.lcBusy := rfl
@[simp] theorem dropDesc_awake (id : Nat) (b : Block) : (dropDesc id b).awake = b.awake := rfl
@[simp] theorem dropDesc_lastRule (id : Nat) (b : Block) : (dropDesc id b).lastRule = b.lastRule := rfl
@[simp] theorem dropDesc_rule (id : Nat) (b : Block) : (dropDesc id b).rule = b.rule := rfl
@[simp] theorem dropDesc_pwr (id : Nat) (b : Block) : (dropDesc id b).pwr = b.pwr := rfl
@[simp] theorem dropDesc_tim (id : Nat) (b : Block) : (dropDesc id b).tim = b.tim := rfl
@[simp] theorem dropDesc_ladder (id : Nat) (b : Block) : (dropDesc id b).ladder = b.ladder := rfl
@[simp] theorem dropDesc_fwHalted (id : Nat) (b : Block) : (dropDesc id b).fwHalted = b.fwHalted := rfl
@[simp] theorem dropDesc_fwKick (id : Nat) (b : Block) : (dropDesc id b).fwKick = b.fwKick := rfl
@[simp] theorem dropDesc_fwRestart (id : Nat) (b : Block) : (dropDesc id b).fwRestart = b.fwRestart := rfl
@[simp] theorem dropDesc_fwExpiry (id : Nat) (b : Block) : (dropDesc id b).fwExpiry = b.fwExpiry := rfl
@[simp] theorem dropDesc_host (id : Nat) (b : Block) : (dropDesc id b).host = b.host := rfl
@[simp] theorem dropDesc_dst (id : Nat) (b : Block) : (dropDesc id b).dst = b.dst := rfl
@[simp] theorem dropDesc_mem (id : Nat) (b : Block) : (dropDesc id b).mem = b.mem := rfl
@[simp] theorem dropDesc_wh (id : Nat) (b : Block) : (dropDesc id b).wh = b.wh := rfl
@[simp] theorem dropDesc_fab (id : Nat) (b : Block) : (dropDesc id b).fab = b.fab := rfl
@[simp] theorem dropDesc_srv (id : Nat) (b : Block) : (dropDesc id b).srv = b.srv := rfl
@[simp] theorem dropDesc_tel (id : Nat) (b : Block) : (dropDesc id b).tel = b.tel := rfl
@[simp] theorem dropDesc_root (id : Nat) (b : Block) : (dropDesc id b).root = b.root := rfl
@[simp] theorem dropDesc_dataRoot (id : Nat) (b : Block) : (dropDesc id b).dataRoot = b.dataRoot := rfl
@[simp] theorem dropDesc_nStart (id : Nat) (b : Block) : (dropDesc id b).nStart = b.nStart := rfl
@[simp] theorem dropDesc_faultNext (id : Nat) (b : Block) : (dropDesc id b).faultNext = b.faultNext := rfl
@[simp] theorem dropDesc_faults (id : Nat) (b : Block) : (dropDesc id b).faults = b.faults := rfl
@[simp] theorem dropDesc_fltSlot (id : Nat) (b : Block) : (dropDesc id b).fltSlot = b.fltSlot := rfl
@[simp] theorem dropDesc_draws (id : Nat) (b : Block) : (dropDesc id b).draws = b.draws := rfl
@[simp] theorem dropDesc_choices (id : Nat) (b : Block) : (dropDesc id b).choices = b.choices := rfl
@[simp] theorem dropDesc_out (id : Nat) (b : Block) : (dropDesc id b).out = b.out := rfl

/-! ### setPhase -/

@[simp] theorem setPhase_row (id : Nat) (p : Phase) (b : Block) : (setPhase id p b).row = b.row := rfl
@[simp] theorem setPhase_regs (id : Nat) (p : Phase) (b : Block) : (setPhase id p b).regs = b.regs := rfl
@[simp] theorem setPhase_tick (id : Nat) (p : Phase) (b : Block) : (setPhase id p b).tick = b.tick := rfl
@[simp] theorem setPhase_mgr (id : Nat) (p : Phase) (b : Block) : (setPhase id p b).mgr = b.mgr := rfl
@[simp] theorem setPhase_mgrView (id : Nat) (p : Phase) (b : Block) : (setPhase id p b).mgrView = b.mgrView := rfl
@[simp] theorem setPhase_mgrFences (id : Nat) (p : Phase) (b : Block) : (setPhase id p b).mgrFences = b.mgrFences := rfl
@[simp] theorem setPhase_skeins (id : Nat) (p : Phase) (b : Block) : (setPhase id p b).skeins = b.skeins := rfl
@[simp] theorem setPhase_descs (id : Nat) (p : Phase) (b : Block) : (setPhase id p b).descs = b.descs.map fun x => if x.id = id then { x with phase := p } else x := rfl
@[simp] theorem setPhase_nextDesc (id : Nat) (p : Phase) (b : Block) : (setPhase id p b).nextDesc = b.nextDesc := rfl
@[simp] theorem setPhase_lates (id : Nat) (p : Phase) (b : Block) : (setPhase id p b).lates = b.lates := rfl
@[simp] theorem setPhase_standing (id : Nat) (p : Phase) (b : Block) : (setPhase id p b).standing = b.standing := rfl
@[simp] theorem setPhase_suspects (id : Nat) (p : Phase) (b : Block) : (setPhase id p b).suspects = b.suspects := rfl
@[simp] theorem setPhase_lostUnits (id : Nat) (p : Phase) (b : Block) : (setPhase id p b).lostUnits = b.lostUnits := rfl
@[simp] theorem setPhase_unitStuck (id : Nat) (p : Phase) (b : Block) : (setPhase id p b).unitStuck = b.unitStuck := rfl
@[simp] theorem setPhase_repaired (id : Nat) (p : Phase) (b : Block) : (setPhase id p b).repaired = b.repaired := rfl
@[simp] theorem setPhase_refusedNoSkein (id : Nat) (p : Phase) (b : Block) : (setPhase id p b).refusedNoSkein = b.refusedNoSkein := rfl
@[simp] theorem setPhase_held (id : Nat) (p : Phase) (b : Block) : (setPhase id p b).held = b.held := rfl
@[simp] theorem setPhase_serving (id : Nat) (p : Phase) (b : Block) : (setPhase id p b).serving = b.serving := rfl
@[simp] theorem setPhase_health (id : Nat) (p : Phase) (b : Block) : (setPhase id p b).health = b.health := rfl
@[simp] theorem setPhase_glob (id : Nat) (p : Phase) (b : Block) : (setPhase id p b).glob = b.glob := rfl
@[simp] theorem setPhase_lcBusy (id : Nat) (p : Phase) (b : Block) : (setPhase id p b).lcBusy = b.lcBusy := rfl
@[simp] theorem setPhase_awake (id : Nat) (p : Phase) (b : Block) : (setPhase id p b).awake = b.awake := rfl
@[simp] theorem setPhase_lastRule (id : Nat) (p : Phase) (b : Block) : (setPhase id p b).lastRule = b.lastRule := rfl
@[simp] theorem setPhase_rule (id : Nat) (p : Phase) (b : Block) : (setPhase id p b).rule = b.rule := rfl
@[simp] theorem setPhase_pwr (id : Nat) (p : Phase) (b : Block) : (setPhase id p b).pwr = b.pwr := rfl
@[simp] theorem setPhase_tim (id : Nat) (p : Phase) (b : Block) : (setPhase id p b).tim = b.tim := rfl
@[simp] theorem setPhase_ladder (id : Nat) (p : Phase) (b : Block) : (setPhase id p b).ladder = b.ladder := rfl
@[simp] theorem setPhase_fwHalted (id : Nat) (p : Phase) (b : Block) : (setPhase id p b).fwHalted = b.fwHalted := rfl
@[simp] theorem setPhase_fwKick (id : Nat) (p : Phase) (b : Block) : (setPhase id p b).fwKick = b.fwKick := rfl
@[simp] theorem setPhase_fwRestart (id : Nat) (p : Phase) (b : Block) : (setPhase id p b).fwRestart = b.fwRestart := rfl
@[simp] theorem setPhase_fwExpiry (id : Nat) (p : Phase) (b : Block) : (setPhase id p b).fwExpiry = b.fwExpiry := rfl
@[simp] theorem setPhase_host (id : Nat) (p : Phase) (b : Block) : (setPhase id p b).host = b.host := rfl
@[simp] theorem setPhase_dst (id : Nat) (p : Phase) (b : Block) : (setPhase id p b).dst = b.dst := rfl
@[simp] theorem setPhase_mem (id : Nat) (p : Phase) (b : Block) : (setPhase id p b).mem = b.mem := rfl
@[simp] theorem setPhase_wh (id : Nat) (p : Phase) (b : Block) : (setPhase id p b).wh = b.wh := rfl
@[simp] theorem setPhase_fab (id : Nat) (p : Phase) (b : Block) : (setPhase id p b).fab = b.fab := rfl
@[simp] theorem setPhase_srv (id : Nat) (p : Phase) (b : Block) : (setPhase id p b).srv = b.srv := rfl
@[simp] theorem setPhase_tel (id : Nat) (p : Phase) (b : Block) : (setPhase id p b).tel = b.tel := rfl
@[simp] theorem setPhase_root (id : Nat) (p : Phase) (b : Block) : (setPhase id p b).root = b.root := rfl
@[simp] theorem setPhase_dataRoot (id : Nat) (p : Phase) (b : Block) : (setPhase id p b).dataRoot = b.dataRoot := rfl
@[simp] theorem setPhase_nStart (id : Nat) (p : Phase) (b : Block) : (setPhase id p b).nStart = b.nStart := rfl
@[simp] theorem setPhase_faultNext (id : Nat) (p : Phase) (b : Block) : (setPhase id p b).faultNext = b.faultNext := rfl
@[simp] theorem setPhase_faults (id : Nat) (p : Phase) (b : Block) : (setPhase id p b).faults = b.faults := rfl
@[simp] theorem setPhase_fltSlot (id : Nat) (p : Phase) (b : Block) : (setPhase id p b).fltSlot = b.fltSlot := rfl
@[simp] theorem setPhase_draws (id : Nat) (p : Phase) (b : Block) : (setPhase id p b).draws = b.draws := rfl
@[simp] theorem setPhase_choices (id : Nat) (p : Phase) (b : Block) : (setPhase id p b).choices = b.choices := rfl
@[simp] theorem setPhase_out (id : Nat) (p : Phase) (b : Block) : (setPhase id p b).out = b.out := rfl

/-! ### addDesc -/

@[simp] theorem addDesc_row (x : Desc) (ph : Phase) (b : Block) : (addDesc x ph b).row = b.row := rfl
@[simp] theorem addDesc_regs (x : Desc) (ph : Phase) (b : Block) : (addDesc x ph b).regs = b.regs := rfl
@[simp] theorem addDesc_tick (x : Desc) (ph : Phase) (b : Block) : (addDesc x ph b).tick = b.tick := rfl
@[simp] theorem addDesc_mgr (x : Desc) (ph : Phase) (b : Block) : (addDesc x ph b).mgr = b.mgr := rfl
@[simp] theorem addDesc_mgrView (x : Desc) (ph : Phase) (b : Block) : (addDesc x ph b).mgrView = b.mgrView := rfl
@[simp] theorem addDesc_mgrFences (x : Desc) (ph : Phase) (b : Block) : (addDesc x ph b).mgrFences = b.mgrFences := rfl
@[simp] theorem addDesc_skeins (x : Desc) (ph : Phase) (b : Block) : (addDesc x ph b).skeins = b.skeins := rfl
@[simp] theorem addDesc_descs (x : Desc) (ph : Phase) (b : Block) : (addDesc x ph b).descs = b.descs ++ [{ x with phase := ph }] := rfl
@[simp] theorem addDesc_nextDesc (x : Desc) (ph : Phase) (b : Block) : (addDesc x ph b).nextDesc = b.nextDesc := rfl
@[simp] theorem addDesc_lates (x : Desc) (ph : Phase) (b : Block) : (addDesc x ph b).lates = b.lates := rfl
@[simp] theorem addDesc_standing (x : Desc) (ph : Phase) (b : Block) : (addDesc x ph b).standing = b.standing := rfl
@[simp] theorem addDesc_suspects (x : Desc) (ph : Phase) (b : Block) : (addDesc x ph b).suspects = b.suspects := rfl
@[simp] theorem addDesc_lostUnits (x : Desc) (ph : Phase) (b : Block) : (addDesc x ph b).lostUnits = b.lostUnits := rfl
@[simp] theorem addDesc_unitStuck (x : Desc) (ph : Phase) (b : Block) : (addDesc x ph b).unitStuck = b.unitStuck := rfl
@[simp] theorem addDesc_repaired (x : Desc) (ph : Phase) (b : Block) : (addDesc x ph b).repaired = b.repaired := rfl
@[simp] theorem addDesc_refusedNoSkein (x : Desc) (ph : Phase) (b : Block) : (addDesc x ph b).refusedNoSkein = b.refusedNoSkein := rfl
@[simp] theorem addDesc_held (x : Desc) (ph : Phase) (b : Block) : (addDesc x ph b).held = b.held := rfl
@[simp] theorem addDesc_serving (x : Desc) (ph : Phase) (b : Block) : (addDesc x ph b).serving = b.serving := rfl
@[simp] theorem addDesc_health (x : Desc) (ph : Phase) (b : Block) : (addDesc x ph b).health = b.health := rfl
@[simp] theorem addDesc_glob (x : Desc) (ph : Phase) (b : Block) : (addDesc x ph b).glob = b.glob := rfl
@[simp] theorem addDesc_lcBusy (x : Desc) (ph : Phase) (b : Block) : (addDesc x ph b).lcBusy = b.lcBusy := rfl
@[simp] theorem addDesc_awake (x : Desc) (ph : Phase) (b : Block) : (addDesc x ph b).awake = b.awake := rfl
@[simp] theorem addDesc_lastRule (x : Desc) (ph : Phase) (b : Block) : (addDesc x ph b).lastRule = b.lastRule := rfl
@[simp] theorem addDesc_rule (x : Desc) (ph : Phase) (b : Block) : (addDesc x ph b).rule = b.rule := rfl
@[simp] theorem addDesc_pwr (x : Desc) (ph : Phase) (b : Block) : (addDesc x ph b).pwr = b.pwr := rfl
@[simp] theorem addDesc_tim (x : Desc) (ph : Phase) (b : Block) : (addDesc x ph b).tim = b.tim := rfl
@[simp] theorem addDesc_ladder (x : Desc) (ph : Phase) (b : Block) : (addDesc x ph b).ladder = b.ladder := rfl
@[simp] theorem addDesc_fwHalted (x : Desc) (ph : Phase) (b : Block) : (addDesc x ph b).fwHalted = b.fwHalted := rfl
@[simp] theorem addDesc_fwKick (x : Desc) (ph : Phase) (b : Block) : (addDesc x ph b).fwKick = b.fwKick := rfl
@[simp] theorem addDesc_fwRestart (x : Desc) (ph : Phase) (b : Block) : (addDesc x ph b).fwRestart = b.fwRestart := rfl
@[simp] theorem addDesc_fwExpiry (x : Desc) (ph : Phase) (b : Block) : (addDesc x ph b).fwExpiry = b.fwExpiry := rfl
@[simp] theorem addDesc_host (x : Desc) (ph : Phase) (b : Block) : (addDesc x ph b).host = b.host := rfl
@[simp] theorem addDesc_dst (x : Desc) (ph : Phase) (b : Block) : (addDesc x ph b).dst = b.dst := rfl
@[simp] theorem addDesc_mem (x : Desc) (ph : Phase) (b : Block) : (addDesc x ph b).mem = b.mem := rfl
@[simp] theorem addDesc_wh (x : Desc) (ph : Phase) (b : Block) : (addDesc x ph b).wh = b.wh := rfl
@[simp] theorem addDesc_fab (x : Desc) (ph : Phase) (b : Block) : (addDesc x ph b).fab = b.fab := rfl
@[simp] theorem addDesc_srv (x : Desc) (ph : Phase) (b : Block) : (addDesc x ph b).srv = b.srv := rfl
@[simp] theorem addDesc_tel (x : Desc) (ph : Phase) (b : Block) : (addDesc x ph b).tel = b.tel := rfl
@[simp] theorem addDesc_root (x : Desc) (ph : Phase) (b : Block) : (addDesc x ph b).root = b.root := rfl
@[simp] theorem addDesc_dataRoot (x : Desc) (ph : Phase) (b : Block) : (addDesc x ph b).dataRoot = b.dataRoot := rfl
@[simp] theorem addDesc_nStart (x : Desc) (ph : Phase) (b : Block) : (addDesc x ph b).nStart = b.nStart := rfl
@[simp] theorem addDesc_faultNext (x : Desc) (ph : Phase) (b : Block) : (addDesc x ph b).faultNext = b.faultNext := rfl
@[simp] theorem addDesc_faults (x : Desc) (ph : Phase) (b : Block) : (addDesc x ph b).faults = b.faults := rfl
@[simp] theorem addDesc_fltSlot (x : Desc) (ph : Phase) (b : Block) : (addDesc x ph b).fltSlot = b.fltSlot := rfl
@[simp] theorem addDesc_draws (x : Desc) (ph : Phase) (b : Block) : (addDesc x ph b).draws = b.draws := rfl
@[simp] theorem addDesc_choices (x : Desc) (ph : Phase) (b : Block) : (addDesc x ph b).choices = b.choices := rfl
@[simp] theorem addDesc_out (x : Desc) (ph : Phase) (b : Block) : (addDesc x ph b).out = b.out := rfl

end Sys2Proof.Machine
end

