-- ==== Sys2Proof/Laws/Ops.lean ====
section
/-! SUPPORT. What the shared operations do, said once each: a descriptor that runs, an access that is served, a message that passes its
gates, a frame that verifies, and a write of memory. -/

namespace Sys2Proof.Machine

/-! ### Descriptors -/

/-- A descriptor that runs (`runsNow`) is accepted and started at once. -/
theorem fetch_runs {r : Ring} {d : Line} {op : Nat} {checks : Block → Checks} {cmd : Instr} {uses : Block → List Nat}
    {start : Desc → Block → Block} {b : Block} (h : runsNow r d op checks cmd uses b = true) :
    fetch r d op cmd checks uses start b = start (accDesc r d cmd uses b) (accBlk r d cmd uses b) := by
  simp only [runsNow, Bool.and_eq_true, beq_iff_eq, Option.isNone_iff_eq_none, Bool.or_eq_true, Bool.not_eq_true'] at h
  obtain ⟨⟨⟨⟨h1, h2⟩, h3⟩, h4⟩, h5⟩ := h
  simp only [fetch, h1, h2, h3, bne_self_eq_false, Bool.and_false, Bool.false_eq_true, if_false, Bool.not_true]
  have go : ∀ c, c = takeRefs (accDesc r d cmd uses b) (fetched r b) →
      startOrHold (accDesc r d cmd uses b) start c = start (accDesc r d cmd uses b) (accBlk r d cmd uses b) := by
    intro c hc
    subst hc
    simp only [startOrHold, accBlk]
    rw [if_neg]
    simp [accDesc, newDesc] at h5 ⊢
    simp [h5]
  rcases h4 with (h4 | h4) | h4
  · simp only [h4]; exact go _ rfl
  · simp only [h4]; split <;> exact go _ rfl
  · simp only [h4]; split <;> exact go _ rfl

/-! ### Accesses -/

theorem closed_iff {b : Block} : closed b = false ↔ asleep b = false ∧ b.dst.started = true := by simp [closed]

/-- While the block is awake and started, an access takes its effect, and the releases follow. -/
theorem onAccess_open {c : Instr} {f : Block → Block} {s : State} (h : closed s.blk = false) :
    onAccess c f s = onto s (settle (f s.blk)) := by
  obtain ⟨h1, h2⟩ := closed_iff.mp h
  simp [onAccess, onSettled, onBlock, accessOr, h1, h2, onto]

/-- While the block sleeps, an access is held. -/
theorem onAccess_asleep {c : Instr} {f : Block → Block} {s : State} (h : asleep s.blk = true) :
    onAccess c f s = onto s (settle (holdAccess c s.blk)) := by
  simp [onAccess, onSettled, onBlock, accessOr, h, onto]

/-! ### Messages -/

/-- A message that passes its gates runs its operation. -/
theorem spdmGate_served {path : Nat} {k : Block → Block} {b : Block} (h : spdmServed path b = true) :
    spdmGate path false k b = k b := by
  simp only [spdmServed, Bool.and_eq_true, Bool.not_eq_true'] at h
  simp [spdmGate, h]

/-- A group message that is served (`groupServed`) runs its operation; none is above 8,256 B. -/
theorem groupOp_served {use : GroupUse} {g op p size : Nat} {sess : BitVec 32} {msg : Bytes} {bad : Bool} {b : Block} {k : Block → Block}
    (hz : size ≤ 8256) (h : groupServed use g op p sess msg size bad b = true) : groupOp use g op p sess msg size bad k b = k b := by
  simp only [groupServed, Bool.and_eq_true, Bool.not_eq_true', beq_iff_eq, Option.isNone_iff_eq_none] at h
  obtain ⟨⟨⟨⟨⟨⟨h1, h2⟩, h3⟩, h4⟩, h5⟩, h6⟩, h7⟩ := h
  rw [groupOp, if_neg (by simp [h1, h2, h5, Nat.not_lt.mpr hz]), spdmGate_served h3]
  simp [h4, h5, h6, h7]

/-! ### Memory -/

/-- A write of memory changes the line it names, under its mask. -/
theorem memPut_lineIn_same (k : Nat) (m : BitVec 64) (d : Line) (w : Option WFor) (p : Option (Nat × Line)) (x : Bool) (b : Block) :
    lineIn k (memPut k m d w p x b) = mergeLine (lineIn k b) d m := by
  simp [lineIn, memPut, countMem]

/-- A write of memory leaves every other line. -/
theorem memPut_lineIn_other {j k : Nat} (h : j ≠ k) (m : BitVec 64) (d : Line) (w : Option WFor) (p : Option (Nat × Line)) (x : Bool)
    (b : Block) : lineIn j (memPut k m d w p x b) = lineIn j b := by
  simp [lineIn, memPut, countMem, amGetD_amPut_other _ h]

/-- A write of memory keeps its canonical form. -/
theorem memPut_wf (k : Nat) (m : BitVec 64) (d : Line) (w : Option WFor) (p : Option (Nat × Line)) (x : Bool) {b : Block}
    (h : b.mem.wf = true) : (memPut k m d w p x b).mem.wf = true := by
  simp only [Mem.wf, Bool.and_eq_true, List.all_eq_true, bne_iff_ne] at h ⊢
  simpa [memPut, countMem] using amPut_canonical 0 k (mergeLine (amGetD 0 k b.mem.cells) d m) h.1 (fun e he => h.2 e he)

/-- A read of memory inside a step changes no line. -/
theorem rawRead_lineIn (evs : MemEvs) (j k : Nat) (x : Bool) (b : Block) : lineIn j (rawRead evs k x b).2 = lineIn j b := by
  simp [lineIn, rawRead, countMem]

/-- A read of a line that the command names no change of returns what the memory holds. -/
theorem rawRead_data (k : Nat) (x : Bool) (b : Block) : (rawRead [] k x b).1 = { data := lineIn k b, ue := false, ce := false } := by
  simp [rawRead, lineIn]

/-- What is enciphered twice under one counter is as it was. -/
@[simp] theorem cryptLine_cryptLine (k : Key) (c : Ctr) (addr : Nat) (x : Line) : cryptLine k c addr (cryptLine k c addr x) = x := by
  rw [cryptLine, cryptLine, BitVec.xor_assoc, BitVec.xor_self, BitVec.xor_zero]

/-! ### Fences -/

/-- A fence that was just changed reads as it was changed to. -/
theorem getFence_setFence_same {o : Option Nat} (i : Nat) (f : Fence) (b : Block)
    (h : ∀ n, o = some n → (getSkein n b).isSome = true) : getFence o i (setFence o i f b) = f := by
  cases o with
  | none => simp [getFence, setFence]
  | some n =>
    have hm : ∀ (g : Skein → Skein) (l : List (Nat × Skein)) (s : Skein), amGet n l = some s → amGet n (amMod n g l) = some (g s) := by
      intro g l
      induction l with
      | nil => intro s hs; simp at hs
      | cons e l ih =>
        obtain ⟨j, v⟩ := e
        intro s hs
        simp only [amMod, List.map_cons] at ih ⊢
        by_cases hj : n = j
        · subst hj; simp [amGet] at hs ⊢; rw [hs]
        · simp [amGet, hj, Ne.symm hj] at hs ⊢; exact ih s hs
    obtain ⟨s, hs⟩ := Option.isSome_iff_exists.mp (h n rfl)
    simp [getFence, setFence, getSkein, hm _ _ s hs]

end Sys2Proof.Machine
end

