-- ==== Sys2Proof/Tests/Slice0.lean ====
section
/-! SUPPORT. Tests: ill-formed commands, worked examples of the spec, and for each clause of each statement a state and operands that
meet its hypotheses. -/

namespace Sys2Proof.Tests

open Sys2Proof Sys2Proof.Machine

-- One proof at a time: the many kernel evaluations below would otherwise run side by side.
set_option Elab.async false

/-! ### Helpers -/

/-- A format from its fields: byte offset, bytes and value. -/
def fmt (w : Nat) (fs : List (Nat × Nat × Nat)) : BitVec w := fs.foldl (fun x f => x ||| putAt w f.1 f.2.1 f.2.2) 0
/-- A descriptor from its fields. -/
def dsc (fs : List (Nat × Nat × Nat)) : Line := fmt 512 fs
/-- A message from its fields. -/
def msg (len : Nat) (fs : List (Nat × Nat × Nat)) : Bytes := fs.foldl (fun m f => patchBytes m f.1 (leBytes f.2.1 f.2.2)) (zeroBytes len)

def lay : Layout :=
  { total := 2 ^ 36, laneLines := 2 ^ 26, up := 2 ^ 20,
    zones := [{ zone := 0, dedicated := false, lanes := List.range 8, baseHank := 0, hanks := 64, eblocks := 8 },
      { zone := 1, dedicated := true, lanes := [16, 17, 18, 19, 20, 21, 22, 23], baseHank := 64, hanks := 64, eblocks := 8 }],
    plyLanes0 := [0, 1, 2, 3], plyLanes1 := [4, 5, 6, 7], bootBase := 40, bootHanks := 8 }

def gen : KeyGen := { num := 1, mat := 0x11, key := 0x22 }
/-- Skein 1 has class S key 5, with hank 3, and class E key 6, with region 2 and hank 70. -/
def sk : Skein :=
  { slot := some 0, hankQuota := 16, keyQuota := 8, openLines := 16, zones := 3, ring := { sqTail := 1 }, tpk := some 0x77,
    tkeys := [(2, { key := 0x55, rInst := 9, exportN := 1 })], weft := some { key := 0x99, gen := 0 } }
def live : Block :=
  { regs := { dstStatus := 1, ringEnable := true, ringLock := true, leader := true, deviceId := 0x1D }, dst := { started := true },
    mgr := { sqTail := 1 }, skeins := [(1, sk)], tick := 5000000, fwKick := 5000000,
    mem :=
      { lay := lay,
        keys := [(5, { st := .valid, skein := 1, cls := .S, cur := some gen }), (6, { st := .valid, skein := 1, cls := .E, cur := some gen, region := 2 })],
        hanks := [(3, { st := .allocated, skein := 1, keyId := 5, holds := 1 }),
          (70, { st := .allocated, skein := 1, keyId := 6, cls := .E, holds := 1, eblock := some 0 })],
        regions := [(2, { keyId := 6, skein := 1, adv := 0, strobeDiv := 1, macEn := true })] } }
/-- The block with another skein 1. -/
def withSk (f : Skein → Skein) (b : Block) : Block := modSkein 1 f b
/-- The state with nothing waiting. -/
def st (b : Block) : State := { pending := [], blk := b }
def tgt (addr : BitVec 16) (read : Bool) (data : BitVec 64) (be : BitVec 8) : Tgt :=
  { func := 0, t := false, addr := addr, read := read, data := data, be := be }
/-- Every spindle outside the reservation is fenced, so that no unit's spindle depends on the home hash. -/
def fencedAll (b : Block) : Block := setWh (fun w => { w with fenced := List.range (b.row.spindles - 4) }) b
def still : Block := fencedAll live
/-! ### Registers, rings and fences -/

theorem wit_registerWrite : let q := tgt 0x400 false 0x20001 0xFF
    closed live = false ∧ (writeValue q live).isSome = true ∧ q.func = 0 ∧ q.read = false ∧ q.addr.toNat < 0x1000 ∧
      ownBehaviour (slotOff q) = false ∧ writesHonoured (slotOff q) live = true := by decide +kernel

theorem wit_lcsGateWrite : let q := tgt 0x060 false 0x81 0x0F
    (writeValue q live).isSome = true ∧ isReg q 0x060 false = true ∧ writesHonoured 0x060 live = true ∧
      live.regs.lcsGate.getLsbD 7 = false ∧ live.fwHalted = false := by decide +kernel

/-- One zone of every lane of four stacks, EBLOCKS 128, enabled (R509). -/
def fresh : Block := { regs := { dstStatus := 1, twsZone := [(0, BitVec.ofNat 64 (0x0303 + 0xFFFF * 2 ^ 16 + 128 * 2 ^ 32 + 2 ^ 41))] }, dst := { started := true } }

theorem wit_ringEnable : let q := tgt 0x210 false 1 0x0F
    closed fresh = false ∧ (writeValue q fresh).map (·.getLsbD 0) = some true ∧ isReg q 0x210 false = true ∧
      writesHonoured 0x210 fresh = true ∧ fresh.regs.ringLock = false ∧
      zoneCheck fresh.row (bitField fresh.regs.twsMem 6 0) (bitField fresh.regs.twsBoot 7 0) (enabledZones fresh) = none := by
  decide +kernel

theorem wit_timAlarmWrite : let q := tgt 0x618 false 7 0xFF
    (writeValue q live).isSome = true ∧ isReg q 0x618 false = true ∧ writesHonoured 0x618 live = true ∧ q.be = 0xFF ∧
      live.tim.t.toNat < q.data.toNat := by decide +kernel
theorem wit_timStrobeWrite : let q := tgt 0x608 false 0x1F40014 0x0F
    (writeValue q live).isSome = true ∧ isReg q 0x608 false = true ∧ writesHonoured 0x608 live = true := by decide +kernel
theorem wit_latchedHalfRead : let q := tgt 0x620 true 0 0x0F
    (writeValue q live).isSome = true ∧ isReg q 0x620 true = true ∧ q.be = 0x0F := by decide +kernel
theorem wit_fwLoad : let q := tgt 0x070 false 0x4000 0xFF
    (writeValue q live).isSome = true ∧ isReg q 0x070 false = true ∧ writesHonoured 0x070 live = true ∧
      live.regs.dstStatus.getLsbD 8 = false ∧
    writesHonoured 0x070 (setDst 8 true live) = true ∧ closed (setDst 8 true live) = false ∧ (setDst 8 true live).regs.dstStatus.getLsbD 8 = true ∧
      (writeValue q (setDst 8 true live)).any (fun v => bitField (writeFields live.regs.fwLoad v [fld 63 12]) 63 12 != 0) = true := by
  decide +kernel

/-- A doorbell write to offset `off` of the manager's page, and of the page of skein 1. -/
def bell (off : BitVec 16) (v : BitVec 64) : Tgt := tgt (0xF000 + off) false v 0x0F
def bell1 (off : BitVec 16) (v : BitVec 64) : Tgt := { tgt off false v 0x0F with func := 2 }
def busy : Block := { live with mgr := { sqTail := 3, sqHead := 1, cqProd := 7, cqHead := 5 } }

theorem wit_doorbells :
    closed live = false ∧ ringState .mgr busy = none ∧ pageRefused .mgr false busy = none ∧
    pageOf (bell 0x000 65) = some (.mgr, 0x000) ∧ getRing .mgr busy = some busy.mgr ∧ ringEntries busy.mgr.sq = 64 ∧
    ((65 : BitVec 32) - busy.mgr.sqHead).toNat ≤ ringEntries busy.mgr.sq ∧ ¬((66 : BitVec 32) - busy.mgr.sqHead).toNat ≤ ringEntries busy.mgr.sq ∧
    pageOf (bell 0x008 7) = some (.mgr, 0x008) ∧ ((7 : BitVec 32) - busy.mgr.cqHead).toNat ≤ (busy.mgr.cqProd - busy.mgr.cqHead).toNat ∧
    ¬((8 : BitVec 32) - busy.mgr.cqHead).toNat ≤ (busy.mgr.cqProd - busy.mgr.cqHead).toNat ∧
    pageOf (bell 0x010 3) = some (.mgr, 0x010) ∧ pageOf (bell1 0x010 3) = some (.skein 1, 0x010) ∧
    pageRefused (.skein 1) false live = none ∧ ringState (.skein 1) live = some .resident := by decide +kernel

def nopD : Line := dsc [(0, 1, 1)]
/-- FENCE_SIGNAL of fence 9: the value 5, the reset, and the grant to skein 2. -/
def sigD : Line := dsc [(0, 1, 2), (16, 2, 9), (24, 8, 5)]
def fenceRstD : Line := dsc [(0, 1, 2), (16, 2, 9), (18, 1, 1)]
def grantD : Line := dsc [(0, 1, 2), (16, 2, 9), (18, 1, 2), (20, 2, 0xFFFF)]
def waitD : Line := dsc [(0, 1, 3), (16, 2, 0xFFFF), (18, 2, 9), (20, 4, 50), (24, 8, 4)]

theorem wit_fences : let r := Ring.skein 1
    runsNow r nopD 1 (nopChecks nopD) (.nop r nopD) (fun _ => []) live = true ∧
    runsNow r sigD 2 (fenceOpChecks sigD) (.fenceSignal r sigD) (fun _ => []) live = true ∧ fsMode sigD = 0 ∧
      frozen (some 1) (accBlk r sigD (.fenceSignal r sigD) (fun _ => []) live) = false ∧ fsValue sigD = 5 ∧
    runsNow r fenceRstD 2 (fenceOpChecks fenceRstD) (.fenceReset r fenceRstD) (fun _ => []) live = true ∧ fsMode fenceRstD = 1 ∧
    runsNow r grantD 2 (fenceOpChecks grantD) (.fenceGrant r grantD) (fun _ => []) live = true ∧ fsMode grantD = 2 ∧
    runsNow r waitD 3 (fenceWaitChecks r waitD) (.fenceWait r waitD) (fun _ => []) live = true ∧ waitOwner r waitD = ringOwner r := by
  decide +kernel

/-- The descriptor at index 0 of skein 1's ring, in a phase. -/
def at0 (d : Line) (p : Phase) (b : Block) : Block :=
  { b with descs := [{ id := 0, ring := .skein 1, index := 0, raw := d, cmd := .nop (.skein 1) d, phase := p, uses := [], since := 0 }], nextDesc := 1 }
theorem wit_fenceWaitTimesOut : let b := at0 waitD (.waiting (some 1) 9 4 4999950 (some 5000000)) live
    (∃ x, descAt (.skein 1) 0 b = some x ∧ x.phase = .waiting (some 1) 9 4 4999950 (some 5000000)) ∧ 5000000 ≤ b.tick :=
  ⟨⟨_, rfl, rfl⟩, by decide⟩

def isOk {ε α : Type} (r : Except ε α) : Bool := match r with | .ok _ => true | .error _ => false
/-- HANK_ALLOC of one hank under key 5; HANK_FREE and HANK_REF of hank 3. -/
def allocD : Line := dsc [(0, 1, 8), (16, 2, 5), (18, 2, 1)]
def runD (op fl : Nat) : Line := dsc [(0, 1, op), (16, 8, 3 * hankBytes), (24, 2, 1), (26, 1, fl)]
def revD : Line := dsc [(0, 1, 9), (16, 8, 3 * hankBytes), (24, 2, 1), (26, 1, 1), (28, 2, 1)]
def mbD : Line := dsc [(0, 1, 9), (24, 2, 1), (26, 1, 2)]
def named : Block := withSk (fun s => { s with mailbox := some { hank := 3 } }) live

theorem wit_hanks : let r := Ring.skein 1
    runsNow r allocD 8 (allocChecks r allocD) (.hankAlloc r allocD) (fun _ => []) live = true ∧ hankTarget r (fieldAt allocD 20 2) = 1 ∧
      checkKey 1 5 (accBlk r allocD (.hankAlloc r allocD) (fun _ => []) live) = none ∧
      isOk (allocHanks 1 5 1 (accBlk r allocD (.hankAlloc r allocD) (fun _ => []) live)).1 = true ∧
    runsNow r (runD 9 0) 9 (hankChecks r (runD 9 0)) (.hankFree r (runD 9 0)) (freeUses (runD 9 0)) live = true ∧ hFlags (runD 9 0) = 0 ∧
    runsNow .mgr revD 9 (hankChecks .mgr revD) (.hankRevoke .mgr revD) (freeUses revD) live = true ∧ hFlags revD = 1 ∧
    runsNow r (runD 10 0) 10 (hankChecks r (runD 10 0)) (.hankRef r (runD 10 0)) (fun _ => hRun (runD 10 0)) live = true ∧
      hFlags (runD 10 0) = 0 ∧ hRun (runD 10 0) = [3] ∧
      (getHank 3 (accBlk r (runD 10 0) (.hankRef r (runD 10 0)) (fun _ => hRun (runD 10 0)) live)).holds < 65535 := by decide +kernel
theorem wit_mailbox : let r := Ring.skein 1
    let b := accBlk r (runD 10 2) (.mailboxName r (runD 10 2)) (fun _ => hRun (runD 10 2)) live
    runsNow r (runD 10 2) 10 (hankChecks r (runD 10 2)) (.mailboxName r (runD 10 2)) (fun _ => hRun (runD 10 2)) live = true ∧
      hFlags (runD 10 2) = 2 ∧ (getHank 3 b).cls = .S ∧ (getHank 3 b).holds < 65535 ∧ (getSkein 1 b).bind (·.mailbox) = none ∧
    runsNow r mbD 9 (hankChecks r mbD) (.mailboxRelease r mbD) (freeUses mbD) named = true ∧ hFlags mbD = 2 ∧
      (getSkein 1 (accBlk r mbD (.mailboxRelease r mbD) (freeUses mbD) named)).bind (·.mailbox) = some { hank := 3 } := by decide +kernel

/-- A request of slot 0 to cell 0 of its window: an opcode, key 5, one hank from hank 3. -/
def wreq (op : Nat) : Wreq :=
  { addr := 0, read := false, size8 := false, skeinTag := 0,
    data := dsc [(0, 1, op), (2, 2, if op = 8 then 5 else 0), (4, 2, 1), (8, 8, if op = 8 then 0 else 3 * hankBytes)] }
theorem wit_requestWindow :
    windowAccepts 8 (wreq 8) 1 live = true ∧ fieldAt (getCell 1 (cellOf (wreq 8)) (windowTaken (wreq 8) 1 live)) 0 1 = 8 ∧
      checkKey 1 (fieldAt (getCell 1 0 (windowTaken (wreq 8) 1 live)) 2 2) (windowTaken (wreq 8) 1 live) = none ∧
      isOk (allocHanks 1 5 1 (windowTaken (wreq 8) 1 live)).1 = true ∧
    windowAccepts 9 (wreq 9) 1 live = true ∧ fieldAt (getCell 1 0 (windowTaken (wreq 9) 1 live)) 0 1 = 9 ∧
      runOf (fieldAt (getCell 1 0 (windowTaken (wreq 9) 1 live)) 8 8) (fieldAt (getCell 1 0 (windowTaken (wreq 9) 1 live)) 4 2) = [3] ∧
      checkHanks 1 none [3] (windowTaken (wreq 9) 1 live) = none ∧
    windowAccepts 10 (wreq 10) 1 live = true ∧ fieldAt (getCell 1 0 (windowTaken (wreq 10) 1 live)) 0 1 = 10 ∧
      checkHanks 1 none [3] (windowTaken (wreq 10) 1 live) = none ∧ (getHank 3 (windowTaken (wreq 10) 1 live)).holds < 65535 := by decide +kernel
/-- The last selector of the window, at its upper end. -/
theorem wit_selector : let q : Wreq := { wreq 8 with addr := 5312, size8 := true }
    slotSkein (q.addr.toNat / 8192) live = some (1, sk) ∧ q.addr.toNat / 8192 = q.skeinTag.toNat ∧ q.addr.toNat / 8192 < live.row.slots ∧
      4352 ≤ q.addr.toNat % 8192 ∧ q.addr.toNat % 8192 < 5376 ∧ q.addr.toNat % 64 = 0 := by decide +kernel

/-- A warp request of slot 0 to the first line of hank 3; an ADD, SWAP or CAS of one u32 element. -/
def warp (kind op : Nat) : WarpReq :=
  { port := 0, tag := 1, len := 0, ack := false, addr := BitVec.ofNat 64 (5 * 2 ^ 52 + 3 * hankBytes), mask := if kind = 2 then 0xF else BitVec.allOnes 64,
    data := 0, skeinTag := 0, keyidV := false, keyid := 0, fenceV := false, fence := 0, peerV := false, peer := 0,
    plyop := BitVec.ofNat 32 op, srtag := 0, layer := 0, operator := 0, rsvd := false }
theorem wit_warp :
    warpAccepts .read (warp 0 0) 1 live = true ∧ warpAccepts .write (warp 1 0) 1 live = true ∧
    ([1, 2, 3, 4, 5, 6, 23, 24].all fun op => warpAccepts .ply (warp 2 op) 1 live) = true ∧ (plyWord 23).op = 7 ∧ (plyWord 24).op = 8 := by
  decide +kernel
def okEq {ε α : Type} [BEq α] (r : Except ε α) (a : α) : Bool := match r with | .ok x => x == a | .error _ => false
/-- A request of skein 1 on hank 3's first line. -/
def txn (kind : TxnKind) (ph : TxnPhase) : Txn :=
  { id := 0, src := .warp 0 1, kind := kind, skein := 1, slot := 0, keyId := 5, cls := .S, line := 3 * hankBytes, addr := 3 * hankBytes,
    mask := BitVec.allOnes 64, data := 0, word := noPly, srTag := 0, gen := 1, key := 0x22, tk := 0, kr := 0, region := 0, epoch := 0,
    hasBit := false, macEn := false, fence := none, respond := false, layer := 0, operator := 0, phase := ph }
/-- The request's line read on lane 7, and its write on lane 3. -/
def reading : Block :=
  setMem (fun m => { m with
    txns := [txn .read .data]
    fetches := [{ id := 4, purpose := .txn 0, key := 7 * 2 ^ 26, macKey := 3 * 2 ^ 26 }]
    reads := [{ key := 7 * 2 ^ 26, mtag := 0, fetch := 4, isMac := false }] }) live
def writing : Block :=
  setMem (fun m => { m with txns := [txn .write (.accept 1)], writes := [{ key := 3 * 2 ^ 26, purpose := .txn 0, plain := none }] }) live
/-- The same line in the absorber, its window ending now. -/
def absorbed : Block :=
  setMem (fun m => { m with abs := [{
    line := 3 * hankBytes, skein := 1, keyId := 5, data := 7, dirty := true, closeAt := some 5000000
    idle := false, acc := none, spilled := false, use := 0 }] }) live

theorem wit_readReturn : ((reading.mem.reads.find? fun r => physLane r.key == 7 && r.mtag == 0 && decide (0 < 256)).bind fun r =>
    (setMem (fun m => { m with fetches := m.fetches.map fun f =>
        if f.id = r.fetch then (if r.isMac then { f with mac := some { data := 0, ue := false, ce := false } }
          else { f with data := some { data := 0, ue := false, ce := false } }) else f })
      (issueWaiting 7 (setMem (fun m => { m with reads := m.reads.erase r }) reading))).mem.fetches.find? fun f => f.id = r.fetch).isSome =
    true := by decide +kernel
theorem wit_writeAccept : ((writing.mem.writes.find? fun w => physLane w.key == 3).any fun w => w.purpose == .txn 0 &&
      (findTxn 0 (setMem (fun m => { m with writes := m.writes.erase w }) writing)).isSome) = true := by decide +kernel
theorem wit_absorber : ((absHeld (3 * hankBytes) absorbed).any fun e => e.closeAt == some 5000000 && decide (5000000 ≤ absorbed.tick) &&
    !e.idle) = true ∧ (plyWord 1).exact = false ∧ (plyWord 1).fetch = false := by decide +kernel

/-! ### Keys and entropy -/

/-- A blob under skein 1's TPK: its header fields, and its material wrapped with IV 0. -/
def blobOf (fs : List (Nat × Nat × Nat)) : Bytes :=
  let h := sliceBytes (msg 16 fs) 0 16
  let ct := gcmCrypt 0x77 (zeroBytes 12) (toBytes 32 (0x88 : BitVec 256))
  h ++ zeroBytes 16 ++ ct ++ gcmTag 0x77 (zeroBytes 12) h ct ++ zeroBytes 48
def sBlob : Bytes := blobOf [(1, 1, 1), (2, 2, 1), (4, 4, 1)]
/-- KEY_INSTALL of a class S key; KEY_ROTATE of key 5 and of key 6 with a blob, and the advance of key 6; KEY_RETIRE. -/
def kiD : Line := dsc [(0, 1, 0x20), (17, 1, 1)]
def krD (key fl : Nat) : Line := dsc [(0, 1, 0x21), (16, 2, key), (18, 1, fl)]
def retD (key fl i : Nat) : Line := dsc [(0, 1, 0x22), (16, 2, key), (18, 1, fl), (19, 1, i)]


theorem wit_keyInstall : let r := Ring.skein 1
    let b := accBlk r kiD (.keyInstall r kiD sBlob) (fun _ => []) still
    runsNow r kiD 0x20 (keyInstallChecks r kiD) (.keyInstall r kiD sBlob) (fun _ => []) still = true ∧
      blobAgrees 1 kiD sBlob = true ∧ kiKind kiD ≠ 1 ∧
      (let c := readHost (some 1) (fieldAt kiD 32 8) sBlob.length b
       let e := ladderUnits (accDesc r kiD (.keyInstall r kiD sBlob) (fun _ => []) still) sBlob (takeLadder 1 c)
       ((getSkein 1 c).bind (·.tpk)).isSome = true ∧ ladderFree c = true ∧ ((getSkein 1 e).map fun s => (s.tpk, s.serial)) = some (sk.tpk, sk.serial) ∧
         (installBlob 1 sBlob 0x88 e).1 = cOK ∧ (installBlob 1 sBlob 0x88 e).2.1 = 1) := by decide +kernel
theorem wit_keyRotate : let r := Ring.skein 1
    let b := accBlk r (krD 5 0) (.keyRotate r (krD 5 0) []) (fun _ => []) live
    runsNow r (krD 5 0) 0x21 (keyRotateChecks r (krD 5 0)) (.keyRotate r (krD 5 0) []) (fun _ => []) live = true ∧
      rotateWaits (krD 5 0) live = false ∧ checkKey 1 5 b = none ∧ krEpoch (krD 5 0) = false ∧ krBlob (krD 5 0) = false ∧
      ladderFree b = true := by decide +kernel
theorem wit_keyRotateBlob : let r := Ring.skein 1
    let b := accBlk r (krD 5 2) (.keyRotate r (krD 5 2) sBlob) (fun _ => []) still
    runsNow r (krD 5 2) 0x21 (keyRotateChecks r (krD 5 2)) (.keyRotate r (krD 5 2) sBlob) (fun _ => []) still = true ∧
      rotateWaits (krD 5 2) still = false ∧ checkKey 1 5 b = none ∧ krEpoch (krD 5 2) = false ∧ krBlob (krD 5 2) = true ∧
      rotateBlobAgrees 1 .S sBlob = true ∧
      (let c := readHost (some 1) (fieldAt (krD 5 2) 32 8) sBlob.length b
       let u := ladderUnits (accDesc r (krD 5 2) (.keyRotate r (krD 5 2) sBlob) (fun _ => []) still) sBlob (takeLadder 1 c)
       ((getSkein 1 c).bind (·.tpk)).isSome = true ∧ ladderFree c = true ∧ ((getKey 5 c).map (·.cls)) = some .S ∧
         ((getSkein 1 u).map fun s => (s.tpk, s.serial)) = some (sk.tpk, sk.serial)) := by decide +kernel
theorem wit_descriptorAdvance : let r := Ring.skein 1
    let b := accBlk r (krD 6 1) (.descriptorAdvance r (krD 6 1)) (fun _ => []) live
    runsNow r (krD 6 1) 0x21 (keyRotateChecks r (krD 6 1)) (.descriptorAdvance r (krD 6 1)) (fun _ => []) live = true ∧
      rotateWaits (krD 6 1) live = false ∧ checkKey 1 6 b = none ∧ krEpoch (krD 6 1) = true ∧
      ((getKey 6 b).map fun e => (e.cls, e.region)) = some (.E, 2) ∧ ((amGet 2 b.mem.regions).map (·.adv)) = some 0 := by decide +kernel
theorem wit_keyRetire : let r := Ring.skein 1
    runsNow r (retD 5 0 0) 0x22 (keyRetireChecks r (retD 5 0 0)) (.keyRetire r (retD 5 0 0)) (fun _ => []) live = true ∧
      (fieldAt (retD 5 0 0) 18 1).testBit 0 = false ∧
      checkKey 1 5 (accBlk r (retD 5 0 0) (.keyRetire r (retD 5 0 0)) (fun _ => []) live) = none ∧
    runsNow r (retD 0 1 2) 0x22 (keyRetireChecks r (retD 0 1 2)) (.transferKeyRetire r (retD 0 1 2)) (fun _ => []) live = true ∧
      (fieldAt (retD 0 1 2) 18 1).testBit 0 = true ∧
      ((getSkein 1 (accBlk r (retD 0 1 2) (.transferKeyRetire r (retD 0 1 2)) (fun _ => []) live)).bind fun s => amGet 2 s.tkeys).isSome = true := by
  decide +kernel

/-- Region 2 with one descriptor waiting for its advance. -/
def advancing : Block :=
  setMem (fun m => { m with regions := amMod 2 (fun r => { r with advs := [some 0] }) m.regions }) (at0 (krD 6 1) .effected live)
theorem wit_epochAdvance : let b := setMem (fun m => { m with regions := amMod 2 (fun x => { x with advs := x.advs.drop 1 }) m.regions }) advancing
    ((amGet 2 advancing.mem.regions).map (·.advs)) = some [some 0] ∧ mayAdvance 2 advancing = true ∧
      (findDesc 0 (advanceRegion 2 b).2).isSome = true := by decide +kernel
/-- The entropy source after two and three failing blocks in a row. -/
def trngAt (n : Nat) (stop : Option Nat) : Block := setSrv (fun v => { v with trng := { discards := n, stopped := stop } }) live
theorem wit_trng : (trngAt 1 none).srv.trng.stopped = none ∧ (trngAt 1 none).srv.trng.discards + 1 < 3 ∧
    (trngAt 2 none).srv.trng.stopped = none ∧ 3 ≤ (trngAt 2 none).srv.trng.discards + 1 ∧
    (trngAt 3 (some 4999000)).srv.trng.stopped = some 4999000 ∧ 4999000 + 1000 ≤ (trngAt 3 (some 4999000)).tick ∧
    live.srv.trng.reseedTick + 100000 ≤ live.tick := by decide +kernel
def ladderOf (m : List (Nat × Nat)) (f : List Nat) : Block :=
  { at0 kiD .ready live with ladder := { live.ladder with owner := 2, mgrWait := m, fwWait := f } }
/-- Skein 1 swapped in to a slot, and skein 1 quiesced with its swap-out at the ladder. -/
def ladderIn : Block := withSk (fun s => { s with st := .swapped }) (ladderOf [(1, 4999999)] [])
def ladderOut : Block := withSk (fun s => { s with
  st := .quiesced
  drains := [{ kind := .swapOut, desc := none, index := 0, opcode := 0x43, deadline := 0, late := false, wasQuiesced := false, atLadder := true }] })
    (ladderOf [(1, 4999999)] [])
theorem wit_ladder : ladderIn.ladder.mgrWait = [(1, 4999999)] ∧ ((getSkein 1 (grantManager 4999999 [] ladderIn)).any fun s =>
      s.st == .swapped && s.slot.isSome) = true ∧ ladderOut.ladder.mgrWait = [(1, 4999999)] ∧
    ((getSkein 1 (grantManager 4999999 [] ladderOut)).any fun s => s.st == .quiesced && s.drains.any (·.atLadder)) = true ∧
    (ladderOf [(1, 4999999)] []).ladder.mgrWait = (1, 4999999) :: [] ∧ (ladderOf [(1, 4999999)] []).ladder.fwWait = [] ∧
    (ladderOf [] [0]).ladder.fwWait = 0 :: [] ∧ (findDesc 0 (grantFirmware [] (ladderOf [] [0]))).isSome = true ∧
    (ladderOf [] []).ladder.mgrWait = [] := by decide +kernel

/-! ### The Reel and the seals -/

/-- Zone 0's retwist and key 5's rotation queued; a pass with no window, with one, with one taken and with none left. -/
def reelAt (r : Reel) : Block := setMem (fun m => { m with reel := r }) live
def queued : Block :=
  reelAt { queue := [{ change := .retwist 0 230 none, deferred := false, mat := none }, { change := .rotate 5 none, deferred := true, mat := none }] }
def passing (mark : Nat) (taken : Option Nat) : Block := reelAt { pass := [.retwist 0 230 none], mark := mark, taken := taken, rate := 230 }
def rtD : Line := dsc [(0, 1, 0x50), (16, 1, 0), (18, 2, 1000)]
/-- Hank 4 is being zeroed and hank 9 is held for re-initialisation. -/
def cleaning : Block :=
  setMem (fun m => { m with hanks := [(4, { st := .zeroing, order := 1, cls := .E }), (9, { st := .quarHeld, order := 2 })] }) live

theorem wit_reel : queued.mem.reel.pass = [] ∧ queued.mem.reel.taken = none ∧ passChanges queued ≠ [] ∧
    nextWindow (passing 0 none) = some (3 * hankBytes) ∧
    (let w := 3 * hankBytes + 65536
     nextWindow (passing w none) = some w ∧ reelCut (passing w none) = false ∧ inScope w (enterHank [] w (passing w none)) = true ∧
       (passing w none).mem.reel.pass ≠ [] ∧ (passing w none).mem.reel.taken = none) ∧
    (passing 0 (some 0)).mem.reel.taken = some 0 ∧ windowDrained 0 (passing 0 (some 0)) = true ∧
    nextWindow (passing (48 * hankBytes) none) = none ∧ (passing (48 * hankBytes) none).mem.reel.pass ≠ [] := by decide +kernel
/-- As `cleaning`, the re-initialisation ahead of the zeroing. -/
def rebuilding : Block :=
  setMem (fun m => { m with hanks := [(4, { st := .zeroing, order := 3, cls := .E }), (9, { st := .quarHeld, order := 2 })] }) live
theorem wit_hankZeroing : reelWorks cleaning = true ∧ (firstZeroing cleaning).map (fun e => (e.1, e.2.order)) = some (4, 1) ∧
    ((firstReinit cleaning).all fun r => decide (1 ≤ reinitOrder r.1 cleaning)) = true ∧ (getHank 4 (zeroHank [] 4 .E cleaning)).st ≠ .retired := by
  decide +kernel
theorem wit_quarantineReinit : reelWorks rebuilding = true ∧ (firstReinit rebuilding).map (·.1) = some 9 ∧
    ((firstZeroing rebuilding).all fun z => decide (reinitOrder 9 rebuilding ≤ z.2.order)) = true ∧
    live.mem.skewSince + 1000 ≤ live.tick := by decide +kernel
theorem wit_retwist : runsNow (.skein 1) rtD 0x50 (retwistChecks rtD) (.retwist (.skein 1) rtD) (fun _ => []) live = false ∧
    runsNow .mgr rtD 0x50 (retwistChecks rtD) (.retwist .mgr rtD) (fun _ => []) live = true ∧ reelFull live = false := by decide +kernel

/-- Region 2 as a seal region, and skein 2 as the slot class. -/
def seald : Block :=
  withSk (fun s => { s with preemptible := true }) { live with
    skeins := live.skeins ++ [(2, { slot := some 1, slotClass := true, ring := { sqTail := 1 } })]
    mem := { live.mem with regions := [(2, { keyId := 6, skein := 1, adv := 2, strobeDiv := 0, macEn := true })] } }
def armD : Line := dsc [(0, 1, 0x18), (16, 1, 1), (18, 2, 6), (20, 4, 1), (24, 8, 64), (32, 2, 9), (40, 8, 1)]
def fireD : Line := dsc [(0, 1, 0x18), (16, 1, 2), (20, 4, 1), (24, 8, 64), (32, 2, 1), (40, 8, 7)]
def sealAt (st : SealSt) (b : Block) : Block :=
  setSrv (fun v => { v with seals := [{ desc := 0, skein := 1, keyId := 6, base := 64, lines := 1, fence := 9, value := 1, st := st }] }) b

theorem wit_sealArm : let r := Ring.skein 1
    let b := accBlk r armD (.sealArm r armD) (fun _ => []) seald
    runsNow r armD 0x18 (sealOutChecks r armD) (.sealArm r armD) (fun _ => []) seald = true ∧ soArm armD = true ∧
      regionTaken (soKey armD) (dropStale b) = false ∧ ((dropStale b).srv.seals.filter fun s => s.st == .armed).length < 64 := by decide +kernel
theorem wit_sealFire : let r := Ring.skein 2
    let b := accBlk r fireD (.sealFire r fireD) (fun _ => []) (sealAt .armed (at0 armD .effected seald))
    runsNow r fireD 0x18 (sealOutChecks r fireD) (.sealFire r fireD) (fun _ => []) (sealAt .armed (at0 armD .effected seald)) = true ∧
      soArm fireD = false ∧ ((getSkein 1 (dropStale b)).map fun k => (k.preemptible, k.st)) = some (true, .resident) ∧
      ((dropStale b).srv.seals.find? fun s => s.skein == soWord fireD && s.st == .armed && s.base == soBase fireD && s.lines == soLines fireD).isSome = true := by
  decide +kernel
/-- The fired seal, at its fire time. -/
def fired : Block := sealAt (.fired 1 0) (at0 armD .effected (fencedAll seald))
theorem wit_sealFireTime : let c := sampleTime 0x19 0 fired
    ((fired.srv.seals.find? (fireDue 1 64 fired)).map fun t => (t.st, regionBar t c)) = some (.fired 1 0, none) ∧
      ((sealRegion 6 c).map (·.1)) = some 2 ∧ (advanceRegion 2 c).1 = true ∧ regionLines 6 c = 32768 := by decide +kernel

/-! ### Messages -/

/-- The line of hank 3 with its key; IMPORT with transfer key 2, EXPORT and DIGEST of one line. -/
def ra3 : Nat := 5 * 2 ^ 52 + 3 * hankBytes
def impD : Line := dsc [(0, 1, 0x10), (16, 1, 2), (32, 8, 64), (40, 8, ra3)]
def expD : Line := dsc [(0, 1, 0x11), (16, 1, 2), (24, 8, ra3), (32, 8, 64)]
def digD : Line := dsc [(0, 1, 0x12), (17, 1, 1), (24, 8, ra3), (32, 8, 64)]

theorem wit_import : let r := Ring.skein 1
    let s' := dropStale still
    let b := accBlk r impD (.importMsg r impD (zeroBytes 112) []) (rangeUses 40 impD) s'
    runsNow r impD 0x10 (importChecks r impD) (.importMsg r impD (zeroBytes 112) []) (rangeUses 40 impD) s' = true ∧
      messageWaits r impD s' = false ∧ (tkeyOf 1 (fieldAt impD 16 1) b).isSome = true ∧
      leField (zeroBytes 112) 12 4 = 0 ∧ fieldAt impD 18 1 = 0 := by decide +kernel
theorem wit_export : let r := Ring.skein 1
    let s' := dropStale still
    let b := accBlk r expD (.exportMsg r expD []) (rangeUses 24 expD) s'
    runsNow r expD 0x11 (exportChecks r expD) (.exportMsg r expD []) (rangeUses 24 expD) s' = true ∧ messageWaits r expD s' = false ∧
      ((tkeyOf 1 (fieldAt expD 16 1) b).map (·.key)) = some 0x55 := by decide +kernel
theorem wit_digest : let r := Ring.skein 1
    let b := accBlk r digD (.digest r digD []) (rangeUses 24 digD) still
    runsNow r digD 0x12 (digestChecks r digD) (.digest r digD []) (rangeUses 24 digD) still = true ∧
      kindClash 1 0 1 b = false ∧ (readLines [] (descWork digD) (raAddr (fieldAt digD 24 8)) 1 b).2.1 = cOK := by decide +kernel
/-- A message whose four blocks are done: an EXPORT, and an IMPORT whose tag is right or is zero. -/
def doneMsg (toHost : Bool) : AeadMsg :=
  { desc := 0, skein := 1, level := 1, toHost := toHost, key := 0x55, iv := zeroBytes 12, blocks := 4, pos := 4, acc := 3, aad := 16, addr := ra3, moved := 64 }
def messageOpen (toHost : Bool) (d : Line) (c : Instr) : Block :=
  setSrv (fun v => { v with aead := [doneMsg toHost] })
    { still with descs := [{ id := 0, ring := .skein 1, index := 0, raw := d, cmd := c, phase := .running, uses := [], since := 0 }], nextDesc := 1 }
def tagOf : Bytes := gcmFinish 0x55 (zeroBytes 12) 3 16 64
/-- The end of the message: where it is the running one and nothing stops it, whether its tag is right. -/
def endsAs (toHost : Bool) (d : Line) (c : Instr) : Option Bool :=
  let b := dropStale (messageOpen toHost d c)
  match descAt (.skein 1) 0 b, runningMsg b with
  | some x, some m0 =>
    let r := advanceMsg x (m0.blocks - m0.pos) m0 b
    if m0.desc = x.id ∧ r.1.status = cOK ∧ r.1.toHost = toHost then
      some (gcmFinish r.1.key r.1.iv r.1.acc r.1.aad (16 * r.1.blocks) == sliceBytes (messageOf x.cmd).1 (32 + 16 * r.1.blocks) 16)
    else none
  | _, _ => none
theorem wit_messageEnd : (endsAs true expD (.exportMsg (.skein 1) expD [])).isSome = true ∧
    endsAs false impD (.importMsg (.skein 1) impD (zeroBytes 96 ++ tagOf) []) = some true ∧
    endsAs false impD (.importMsg (.skein 1) impD (zeroBytes 112) []) = some false ∧ fieldAt impD 18 1 = 0 := by decide +kernel

/-! ### Skeins -/

/-- A manager's descriptor of an opcode on skein 1, with MODE and a limit. -/
def mgrD (op mode : Nat) : Line := dsc [(0, 1, op), (16, 2, 1), (18, 1, mode)]
def createD (fl zones : Nat) : Line := dsc [(0, 1, 0x40), (16, 2, 3), (18, 1, fl), (20, 2, zones), (22, 2, 4), (24, 4, 8), (28, 2, 8)]
def shareD : Line := dsc [(0, 1, 0x48), (16, 2, 1), (18, 1, 1), (19, 1, 7)]
def inSt (x : SkSt) (slot : Option Nat) : Block := withSk (fun s => { s with st := x, slot := slot }) live
def running0 (r : Ring) (d : Line) (p : Phase) (b : Block) : Block :=
  { b with descs := [{ id := 0, ring := r, index := 0, raw := d, cmd := .nop r d, phase := p, uses := [], since := 0 }], nextDesc := 1 }

theorem wit_skeinCreate : [createD 0 1, createD 1 2].all (fun d =>
    let b := accBlk .mgr d (.skeinCreate .mgr d) (fun _ => []) live
    runsNow .mgr d 0x40 (createChecks d) (.skeinCreate .mgr d) (fun _ => []) live && (getSkein 3 b).isNone && (slotClassSkein b).isNone &&
      (freeSlots b).length == 63 && !createOver d b) = true := by decide +kernel
theorem wit_shareSet : let b := accBlk .mgr shareD (.shareSet .mgr shareD) (fun _ => []) live
    runsNow .mgr shareD 0x48 (shareChecks shareD) (.shareSet .mgr shareD) (fun _ => []) live = true ∧
      ((getSkein 1 b).any fun k => k.st != .destroying && !sharesOver 1 (sharesSet shareD k) b) = true := by decide +kernel
/-- SKEIN_QUIESCE in its three modes, each in the states that it acts on. -/
theorem wit_quiesce : ([(0, SkSt.resident), (0, .quiescing), (0, .quiesced), (1, .quiescing), (1, .quiesced), (2, .quiesced)].all fun p =>
    let d := mgrD 0x41 p.1
    let b := inSt p.2 (some 0)
    let c : Instr := if p.1 = 0 then .skeinQuiesce .mgr d [] else if p.1 = 1 then .skeinResume .mgr d [] else .skeinReset .mgr d []
    runsNow .mgr d 0x41 (quiesceChecks d) c (fun _ => []) b && sqMode d == p.1 &&
      ((getSkein 1 (accBlk .mgr d c (fun _ => []) b)).map (·.st)) == some p.2 && pkgWaits 0 (accBlk .mgr d c (fun _ => []) b) == []) = true := by
  decide +kernel
/-- The leader of a package of three dies: its followers agree before a skein resumes or is reset. -/
def leading (x : SkSt) : Block := let b := inSt x (some 0); { b with regs := { b.regs with pkgDies := 3 } }
theorem wit_agreed : ([(1, SkSt.quiescing), (2, .quiesced)].all fun p =>
    let d := mgrD 0x41 p.1
    let b := leading p.2
    let c : Instr := if p.1 = 1 then .skeinResume .mgr d [] else .skeinReset .mgr d []
    runsNow .mgr d 0x41 (quiesceChecks d) c (fun _ => []) b && pkgWaits (accDesc .mgr d c (fun _ => []) b).id (accBlk .mgr d c (fun _ => []) b) == [1, 2]) =
      true := by decide +kernel
theorem wit_swapAndDestroy : ([SkSt.resident, .quiesced].all fun x =>
      let d := mgrD 0x43 0
      runsNow .mgr d 0x43 (swapOutChecks d) (.skeinSwapOut .mgr d []) (fun _ => []) (inSt x (some 0)) &&
        ((getSkein 1 (accBlk .mgr d (.skeinSwapOut .mgr d []) (fun _ => []) (inSt x (some 0)))).any fun k => k.st == x && !k.slotClass)) = true ∧
    (let d := mgrD 0x44 0
     let b := accBlk .mgr d (.skeinSwapIn .mgr d []) (fun _ => []) (inSt .swapped none)
     runsNow .mgr d 0x44 (swapInChecks d) (.skeinSwapIn .mgr d []) (fun _ => []) (inSt .swapped none) = true ∧
       ((getSkein 1 b).map (·.st)) = some .swapped ∧ (takeSlot 1 b).1 = cOK ∧ pkgWaits 0 (takeSlot 1 b).2 = [] ∧ ladderFree (takeSlot 1 b).2 = true) ∧
    ([SkSt.resident, .swapped].all fun x =>
      let d := mgrD 0x42 0
      runsNow .mgr d 0x42 (destroyChecks d) (.skeinDestroy .mgr d []) (fun _ => []) (inSt x (some 0)) &&
        ((getSkein 1 (accBlk .mgr d (.skeinDestroy .mgr d []) (fun _ => []) (inSt x (some 0)))).any fun k => k.st == x)) = true := by
  decide +kernel

/-- Skein 1 in a state with a drain whose limit is now. -/
def draining (x : SkSt) (k : DrainKind) (d : Line) : Block :=
  running0 .mgr d .running (withSk (fun s => { s with
    st := x
    resetSince := 4900000
    drains := [{ kind := k, desc := some 0, index := 0, opcode := 0x41, deadline := 5000000, late := false, wasQuiesced := false }] }) live)
theorem wit_skeinReset : let b := draining .resetting .quiesce (mgrD 0x41 2)
    ((getSkein 1 b).map (·.st)) = some .resetting ∧ 4900000 + 100000 ≤ b.tick ∧ (resetDesc 1 b).isSome = true ∧
      (resetDesc 1 (setSkSt 1 .quiesced (modSkein 1 (fun s => { s with frozen := none }) b))).isSome = true := by decide +kernel
theorem wit_drains : let b := draining .quiescing .quiesce (mgrD 0x41 0)
    let c := draining .destroying .destroy (mgrD 0x42 0)
    ((getSkein 1 b).map fun k => (k.drains.filter (drainDue k.st b.tick)).map (·.desc)) = some [some 0] ∧
      (let late (d : Drain) : Drain := if drainDue .quiescing b.tick d then { d with late := true, desc := none } else d
       let y := modSkein 1 (fun s => { s with drains := s.drains.map late }) b
       ((findDesc 0 y).any fun x => ((complete x cTimeout 0 y).descs.filter (heldDue 1 (complete x cTimeout 0 y))).isEmpty) = true) ∧
    drained 1 b = true ∧ ((getSkein 1 b).map (·.st)) = some .quiescing ∧ resuming 1 b = false ∧ ((getSkein 1 b).any fun k => acked k.drains b) = true ∧
    drained 1 c = true ∧ ((getSkein 1 c).map (·.st)) = some .destroying ∧ reelHolds 1 c = false ∧ sealRuns 1 c = false ∧
      ((getSkein 1 c).any fun k => k.drains.any fun d => d.kind == .destroy && decide (d.deadline ≤ c.tick)) = true := by decide +kernel

/-- Every slot taken; the blocked skein 1 waits on the swapped skein 100, and skein 2 has made no progress for longer. -/
def allWait : Block :=
  { running0 (.skein 1) waitD (.waiting (some 100) 9 4 4000000 none) live with
    regs := { live.regs with sknSched := BitVec.ofNat 64 (1 + 1000 * 2 ^ 16 + 1000 * 2 ^ 32) }
    skeins := (1, { sk with lastProgress := 9 }) :: ((List.range 63).map fun i => (i + 2, { slot := some (i + 1) })) ++ [(100, { st := .swapped })] }
theorem wit_allBlockedRule : allWait.rule = none ∧ allBlocked allWait = true ∧ ruleChosen allWait = some (4000000, 1, 100) ∧
    (ruleVictim allWait).map (·.1) = some 2 ∧ drained 2 allWait = true := by decide +kernel

/-- An operation of the manager that followers have still to acknowledge: applied here, or waiting to be. -/
def pkgWait (ws : List Nat) (p : Phase) : Block :=
  setFab (fun f => { f with pkgOps := [{ desc := 0, index := 0, drain := none, waits := ws, since := some 4000000, limit := 1000 }] })
    (running0 .mgr (mgrD 0x41 0) p live)
theorem wit_followers : ([Phase.followers cOK 0 false, .agreeing].all fun p =>
      ((pkgWait [1] p).fab.pkgOps.find? fun q => q.index == 0 && q.waits.contains 1).any fun q =>
        q.waits.filter (· != 1) == [] && q.drain.isNone && ((findDesc q.desc (pkgWait [1] p)).any fun x => x.phase == p)) = true ∧
    ((pkgWait [1, 2] .agreeing).fab.pkgOps.any fun q => q.index == 0 && q.waits.contains 1 && q.waits.filter (· != 1) != []) = true ∧
    ((pkgWait [1] .agreeing).fab.pkgOps.find? fun p => p.index == 0 && p.since.any fun t => decide (t + p.limit ≤ 5000000)).isSome = true ∧
    dOpcode (mgrD 0x41 0) ≠ 0x42 := by decide +kernel

/-! ### Evidence, the carder and telemetry -/

def evD : Line := dsc [(0, 1, 0x28)]
def pcD (len : Nat) : Line := dsc [(0, 1, 0x30), (16, 8, ra3), (32, 8, len), (40, 4, if len = 0 then 0 else 5)]
def markD : Line := dsc [(0, 1, 0x38), (16, 8, 7), (24, 1, 1)]
/-- Skein 1 has a standing check of hank 3's first line, due now. -/
def checking : Block := { still with standing := [{ ring := .skein 1, raw := pcD 64, index := 0, hanks := [3], due := 5000000 }] }

theorem wit_evidence : let r := Ring.skein 1
    let b := accBlk r evD (.evidence r evD) (fun _ => []) live
    runsNow r evD 0x28 (fun _ => evidenceChecks evD) (.evidence r evD) (fun _ => []) live = true ∧ trngStopped b = false ∧
      (evSkein 1 b).isSome = true := by decide +kernel
theorem wit_plyCheck : let r := Ring.skein 1
    let b := accBlk r (pcD 64) (.plyCheck r (pcD 64) []) (fun _ => pcHanks (pcD 64)) still
    let w : Secret := { key := 0x99, gen := 0 }
    runsNow r (pcD 64) 0x30 (plyCheckChecks r (pcD 64)) (.plyCheck r (pcD 64) []) (fun _ => pcHanks (pcD 64)) still = true ∧
      pcLen (pcD 64) ≠ 0 ∧ (standingOf r b).length < 16 ∧ skeinWeft 1 b = some w ∧ isOk (compareRanges [] (descWork (pcD 64)) w (pcD 64) b).1 = true ∧
    runsNow r (pcD 0) 0x30 (plyCheckChecks r (pcD 0)) (.standingCheckEnd r (pcD 0)) (fun _ => pcHanks (pcD 0)) checking = true ∧
      pcLen (pcD 0) = 0 ∧ ((accBlk r (pcD 0) (.standingCheckEnd r (pcD 0)) (fun _ => pcHanks (pcD 0)) checking).standing.any
        fun c => c.ring == r && pcA c.raw == pcA (pcD 0)) = true := by decide +kernel
theorem wit_traceMark : runsNow (.skein 1) markD 0x38 (markChecks markD) (.traceMark (.skein 1) markD) (fun _ => []) live = true := by decide +kernel
theorem wit_standingCheckRepeat : asleep checking = false ∧ skeinWeft 1 checking = some { key := 0x99, gen := 0 } ∧
    ((checking.standing.find? fun c => c.ring == .skein 1 && pcA c.raw == (BitVec.ofNat 64 ra3).toNat && decide (c.due ≤ checking.tick)).any
      fun c => isOk (compareRanges [] carderWork { key := 0x99, gen := 0 } c.raw (nextCheck c checking)).1) = true := by decide +kernel
def carding : Block := { live with regs := { live.regs with fltCarder := 0x00050001 } }
theorem wit_carderPass : asleep carding = false ∧ carding.dst.started = true ∧ carding.regs.fltCarder.getLsbD 0 = true ∧
    carding.dst.carderAt.getD 0 + bitField carding.regs.fltCarder 31 16 * 1000000 ≤ carding.tick := by decide +kernel

/-- An operator session on I3C and a mutually authenticated session of host port 0; the life cycle is in a state. -/
def inSess (lc : Nat) (b : Block) : Block :=
  { b with
    regs := { b.regs with lcsState := BitVec.ofNat _ lc }
    host := { b.host with
      sess := [{ id := 1, path := 0, live := true, authd := true, operator := true }, { id := 2, path := 1, live := true, authd := true }]
      paths := [(0, { stage := 3 }), (1, { stage := 3 })] } }
def ops : Block := inSess 3 live
def grp (group op len : Nat) (fs : List (Nat × Nat × Nat)) : Bytes := msg len ([(0, 1, group), (1, 1, op)] ++ fs)

theorem wit_group70 :
    groupServed .operator 0x70 1 0 1 (grp 0x70 1 5 [(4, 1, 7)]) 5 (decide (7 < leField (grp 0x70 1 5 [(4, 1, 7)]) 4 1)) ops = true ∧
    (let m := grp 0x70 2 12 [(4, 1, 1), (8, 4, 12288)]
     groupServed .operator 0x70 2 0 1 m 12 (decide (2 < leField m 4 1) || !restZero m 5 8 || leField m 8 4 % 4096 != 0 ||
       decide (16384 ≤ leField m 8 4)) ops = true) ∧
    (let m := grp 0x70 3 8 [(4, 1, 47), (5, 1, 0x10)]
     groupServed .operator 0x70 3 0 1 m 8 (decide (47 < leField m 4 1)) ops = true ∧ 4 ≤ leField m 4 1 ∧
       probeIndexOk (leField m 5 1) (leField m 6 2) ops = true) ∧
    (let m := grp 0x70 4 6 [(5, 1, 1)]
     groupServed .operator 0x70 4 0 1 m 6 (decide (47 < leField m 4 1) || decide (1 < leField m 5 1)) ops = true) ∧
    groupServed .operator 0x70 5 0 1 (grp 0x70 5 4 []) 4 false ops = true := by decide +kernel

/-- A capture window, open with its size reached, or closed and to be written as a trace image or a hang dump. -/
def windowed (closed dump : Bool) : Block :=
  setTel (fun t => { t with
    dumpErase := some 5000000
    spool := { t.spool with window := some {
      trigger := { kind := 0, stream := 15, owner := 0, quality := 0, stamp := 0, data := 0 }
      source := 3, pre := [], size := 0, since := 0, limit := 0, closed := closed, dump := dump } } })
    { live with regs := { live.regs with telSnap := BitVec.ofNat 64 (1000 + 2 ^ 12), splDump := BitVec.ofNat 64 (2 ^ 12) } }
theorem wit_trace : let b := windowed false false
    asleep b = false ∧ b.dst.started = true ∧ lcDead b = false ∧ bitField b.regs.telSnap 11 0 ≠ 0 ∧
      b.tel.lastSnap + 1000 * bitField b.regs.telSnap 11 0 ≤ b.tick ∧
      (b.tel.spool.window.any fun w => !w.closed && decide (w.size ≤ w.post.length)) = true ∧
      ((windowed true false).tel.spool.window.any fun w => !windowStuck w (windowed true false) && w.closed && !w.dump) = true ∧
      ((windowed true true).tel.spool.window.any fun w => !windowStuck w (windowed true true) && w.dump) = true ∧
      (b.tel.dumpErase.any fun t => decide (t ≤ b.tick)) = true := by decide +kernel

/-! ### Tenants, slot keys, firmware and the life cycle -/

/-- Skein 1 without a TPK and with a pending one; a signed response and an evidence record held. -/
def tenant : Block :=
  let b := withSk (fun s => { s with tpk := none }) ops
  setSrv (fun v => { v with tpks := [(1, { tpk := 0x31, provisioner := 0, th := 0x32, session := requester 1 2, rekey := false, since := 4000000 })] })
    (setHost (fun h => { h with sess := h.sess.map fun s => { s with signed := some 0x33, record := some (zeroBytes 4097) } }) b)
def pqStartM : Bytes := grp 0x10 1 1721 [(4, 2, 1)]
def pqFinishM : Bytes := patchBytes (grp 0x10 2 56 [(4, 2, 1)]) 8 (hmac384 (keyBytes 0x31) (ascii "frexis confirm" ++ toBytes 48 (0x32 : Digest)))

theorem wit_pqStart : let msg := pqStartM
    let n := leField msg 4 2
    groupServed .host 0x10 1 1 2 msg 1721 (decide (1024 ≤ n) || decide (2 ≤ leField msg 6 1) || leField msg 7 1 != 0 ||
        (leField msg 6 1 != 1 && (sliceBytes msg 1673 48).any (· != 0))) tenant = true ∧
      controlBusy n tenant = false ∧ trngStopped tenant = false ∧ ((tpkSkein n tenant).any fun k => pqAuth k msg) = true := by decide +kernel
theorem wit_pqFinish : let msg := pqFinishM
    let n := leField msg 4 2
    groupServed .host 0x10 2 1 2 msg 56 (decide (1024 ≤ n) || leField msg 6 2 != 0) tenant = true ∧ controlBusy n tenant = false ∧
      ((tpkSkein n tenant).any fun k => !k.tpk.isSome) = true ∧ ((amGet n tenant.srv.tpks).any fun t => t.session == requester 1 2 && !t.rekey) = true ∧
      hmac384 (keyBytes 0x31) (ascii "frexis confirm" ++ toBytes 48 (0x32 : Digest)) = sliceBytes msg 8 48 := by decide +kernel
theorem wit_group20 :
    groupServed .either 0x20 1 1 2 (grp 0x20 1 4 []) 4 false tenant = true ∧ ((findSpdm 1 2 tenant).any fun x => x.signed.isSome) = true ∧
    groupServed .either 0x20 2 0 0 (grp 0x20 2 5 [(4, 1, 1)]) 5 (decide (1 < leField (grp 0x20 2 5 [(4, 1, 1)]) 4 1)) tenant = true ∧
    (let m := grp 0x20 3 40 [(4, 2, 1)]
     groupServed .either 0x20 3 1 2 m 40 (decide (1024 ≤ leField m 4 2) || leField m 6 2 != 0) tenant = true ∧ (evSkein 1 tenant).isSome = true) ∧
    (let m := grp 0x20 4 8 [(4, 4, 4096)]
     groupServed .either 0x20 4 1 2 m 8 false tenant = true ∧ (((findSpdm 1 2 tenant).bind (·.record)).any fun r =>
       leField m 4 4 % 4096 == 0 && decide (leField m 4 4 < r.length)) = true) ∧
    ((amGet 1 tenant.srv.tpks).any fun t => decide (t.since + 1000000 ≤ tenant.tick)) = true := by decide +kernel

/-- Skein 2 is the slot class, with a class S key 8. -/
def slotOps : Block :=
  let b := { ops with skeins := ops.skeins ++ [(2, { slot := some 1, slotClass := true, keyQuota := 8 })] }
  setMem (fun m => { m with keys := m.keys ++ [(8, { st := .valid, skein := 2, cls := .E, cur := some gen, region := 3 })] }) b
theorem wit_slotKeys :
    (let m := grp 0x40 1 48 []
     slotServed 1 0 1 m 48 (!restZero m 7 16 || !regionParams (leField m 4 1) (leField m 5 1) (leField m 6 1)) 2 slotOps = true ∧
       isOk (installKey 2 .E 0 0 false 0 slotOps).1 = true) ∧
    ([0, 1].all fun f => let m := grp 0x40 2 48 [(4, 2, 8), (6, 1, f)]
     slotServed 2 0 1 m 48 (!restZero m 7 16 || decide (4096 ≤ leField m 4 2) || decide (4 ≤ leField m 6 1)) 2 slotOps) = true ∧
    checkKey 2 8 slotOps = none ∧
    (let m := grp 0x40 3 6 [(4, 2, 8)]
     slotServed 3 0 1 m 6 (decide (4096 ≤ leField m 4 2)) 2 slotOps = true) ∧
    (let m := grp 0x40 4 48 [(4, 1, 3)]
     slotServed 4 0 1 m 48 (!restZero m 5 16 || (leField m 4 1 != 2 && leField m 4 1 != 3)) 2 slotOps = true) ∧
    ([1, 2].all fun total => let m := grp 0x40 5 40 [(6, 2, 1), (8, 2, total)]
     slotServed 5 0 1 m (16 + 24 * 1) (!restZero m 10 16 || leField m 6 2 = 0 || decide (256 < leField m 6 2) || total = 0 || decide (16384 < total)) 2 slotOps && leField m 4 2 == 0) = true ∧
    (memberList ((grp 0x40 5 40 [(6, 2, 1), (8, 2, 1)]).drop 16) 1).isSome = true := by decide +kernel

/-- Firmware bank A runs as TRIAL or as RUNNING; bank B is in a state. -/
def banks (a other : Nat) : Block :=
  setDistaff (fun d => { d with bankA := { st := a, img := [1, 0, 1, 0] }, bankB := { st := other } })
    { ops with pwr := { ops.pwr with backupGood := true } }
theorem wit_firmware :
    group30Served 1 0 1 (grp 0x30 1 4 []) 4 false false false (banks 4 0) = true ∧ (running (banks 4 0)).st ≠ 3 ∧ lcRuns (banks 4 0) = false ∧
    (let m := grp 0x30 2 17 [(4, 4, 1048575), (8, 2, 1)]
     group30Served 2 0 1 m (16 + 1) (leField m 8 2 = 0 || decide (4096 < leField m 8 2) || !restZero m 10 16) false false (banks 4 1) = true ∧
       (otherBank (banks 4 1)).st = 1 ∧ leField m 4 4 + leField m 8 2 ≤ 1048576) ∧
    group30Served 3 0 1 (grp 0x30 3 4 []) 4 false false false (banks 4 1) = true ∧
    group30Served 4 0 1 (grp 0x30 4 4 []) 4 false false false (banks 4 2) = true ∧ (otherBank (banks 4 2)).st = 2 ∧
      oldWraps (banks 4 2) = false ∧
    group30Served 6 0 1 (grp 0x30 6 4 []) 4 false false false (banks 4 0) = true ∧
    group30Served 0x11 0 1 (grp 0x30 0x11 4 []) 4 false true false (banks 4 0) = true := by decide +kernel
theorem wit_fwConfirm : (running (banks 3 0)).st = 3 ∧ group30Served 5 0 1 (grp 0x30 5 4 []) 4 false false false (banks 3 0) = true ∧
    (banks 3 0).pwr.backupGood = true := by decide +kernel
theorem wit_lifeCycle :
    (let m := grp 0x30 0x10 7460 []
     group30Served 0x10 0 1 m 7460 (!restZero m 40 48 || decide (1 < leField m 6 1)) false false ops = true) ∧
    (let m := grp 0x30 0x12 7548 []
     group30Served 0x12 0 1 m 7548 (leField m 7 1 != 0) false (opCurrent ops).isNone ops = true) := by decide +kernel
/-- An activation in its busy period, and a transition to SCRAP whose skeins have gone. -/
def activating : Block := { ops with regs := { ops.regs with dstStatus := 0x801 } }
def scrapping : Block :=
  setDistaff (fun d => { d with lc := some { target := 5, slot := 4, reply := some (0, 1) } }) { banks 4 0 with skeins := [] }
theorem wit_activation : activating.regs.dstStatus.getLsbD 11 = true ∧ (∀ e ∈ activating.skeins, e.2.st ≠ .resetting) ∧ activating.ladder.owner ≠ 1 ∧
    (scrapping.dst.lc.any fun x => scrapping.skeins == [] && (lcErased x scrapping).pwr.backupGood) = true ∧
    lcWord (5 + 256 * 4) &&& lcWord (5 + 256 * 4) = lcWord (5 + 256 * 4) ∧
    leField (grp 0x30 1 4 []) 0 1 = 0x30 ∧ leField (grp 0x30 1 4 []) 1 1 = 1 ∧ leField (grp 0x30 0x11 4 []) 0 1 = 0x30 ∧ leField (grp 0x30 0x11 4 []) 1 1 = 0x11 := by decide +kernel

/-! ### Fronthaul -/

def sa0 : MacSa := { xpn := false, pn := 1, ssci := 0, salt := zeroBytes 12, activate := 0, key := 0x44 }
/-- Stream 3 protects under transmit SA 1 and receives under SC 1's SA 2; EtherType 0x88F7 passes clear. -/
def fthOps : Block :=
  setHost (fun h => { h with fth := [(3, {
    enable := true, sci := zeroBytes 8, clear := [0x88F7], scis := [(1, zeroBytes 8)], sas := [(1, sa0), (4 * 1 + 2, sa0)], cur := some 1 })] })
    (fencedAll slotOps)
/-- A frame of an EtherType; a MACsec frame of the shortest payload under SA 2. -/
def ethFrame (n ty : Nat) : Bytes := patchBytes (zeroBytes n) 12 (beBytes 2 ty)
def secHdr : Bytes := zeroBytes 12 ++ [0x88, 0xE5, 0x2E, 0] ++ beBytes 4 1 ++ zeroBytes 8
def secFrame : Bytes := secHdr ++ zeroBytes 52 ++ gcmTag 0x44 (macIv sa0 (zeroBytes 8) 1) secHdr (zeroBytes 52)

theorem wit_group50 :
    (let m := grp 0x50 1 24 [(4, 1, 3), (5, 1, 1), (6, 2, 1023)]
     groupServed .operator 0x50 1 0 1 m 24 (fthSetBad m fthOps) fthOps = true) ∧
    (let m := grp 0x50 2 96 [(4, 1, 3), (5, 1, 15), (6, 1, 3)]
     groupServed .operator 0x50 2 0 1 m 96 (saBad m fthOps) fthOps = true) ∧
    (let m := grp 0x50 3 8 [(4, 1, 3), (5, 1, 1), (6, 1, 2)]
     groupServed .operator 0x50 3 0 1 m 8 (retireBad m fthOps) fthOps = true) ∧
    (let m := grp 0x50 4 8 [(4, 1, 3)]
     groupServed .operator 0x50 4 0 1 m 8 (decide (fthOps.row.fthStreams ≤ leField m 4 1) || !restZero m 5 8) fthOps = true) := by decide +kernel
theorem wit_transmit : 3 < fthOps.row.fthStreams ∧ fthClosed fthOps = false ∧ (getFth 3 fthOps).enable = true ∧
    frameLenBad (ethFrame 64 0x88F7).length = false ∧ (getFth 3 fthOps).clear.contains (etherAt (ethFrame 64 0x88F7) 12) = true ∧
    frameLenBad (ethFrame 9216 0x0800).length = false ∧ (getFth 3 fthOps).clear.contains (etherAt (ethFrame 64 0x0800) 12) = false ∧
    (let x := macSwitch fthOps.tim.t (getFth 3 fthOps)
     x.cur = some 1 ∧ ((x.sa 0 1).any fun a => !a.spent) = true) := by decide +kernel
theorem wit_receive : etherAt secFrame 12 = macsecType ∧ ((parseSecTag secFrame).any fun t => t.an == 2 && t.len == 16 && t.pn == 1 &&
      findSc (getFth 3 fthOps) t == some (1, zeroBytes 8)) = true ∧
    frameLenBad (secFrame.length - 16 - 16) = false ∧ (getFth 3 fthOps).sa 1 2 = some sa0 ∧ fullPn sa0 1 = 1 ∧
    gcmTag 0x44 (macIv sa0 (zeroBytes 8) 1) (secFrame.take (12 + 16)) (sliceBytes secFrame 28 52) = sliceBytes secFrame (12 + 16 + 52) 16 ∧
    max sa0.low (sa0.pn - (getFth 3 fthOps).window) ≤ 1 := by decide +kernel

/-! ### Host ports, management and SPDM -/

/-- Stream 0 of port 0 is Secure with a receive set 0 and a transmit set of sub-stream 2; skein 1's TDI is in a state. -/
def ports (t : Tdi) : Block :=
  withSk (fun s => { s with tdi := { st := t, port := 0, stream := 0, nonce := 5, sess := 2 } })
    (setHost (fun h => { h with ports := [(0, {
      linkUp := true, streams := [(0, { secure := true, sets := [(0, { key := 0x66, ctr := 1, started := true }), (10, { key := 0x67, ctr := 1 })] })] })] }) (fencedAll ops))
theorem wit_ide : let b := ports .unlocked
    0 < b.row.hostPorts ∧ b.pwr.st = .active ∧ b.dst.started = true ∧ (getPort 1 b).flit = true ∧
      (getPort 1 (modPort 1 (fun p => { p with flit := false }) b)).flit = false ∧ 1 < b.row.hostPorts ∧
    (getPort 0 b).flit = true ∧ (getStream 0 0 b).secure = true ∧
    amGet (setIndex false 0 false) (getStream 0 0 b).sets = some { key := 0x66, ctr := 1, started := true } ∧
    ((gcmTag 0x66 (ideIv 1) [1] []).take 12).length = 12 := by decide +kernel
theorem wit_functionEvents : let b := ports .run
    b.dst.started = true ∧ (getTdi 1 b).held = true ∧ (getTdi 1 b).port = 0 := by decide +kernel
theorem wit_ideKm : let b := ports .unlocked
    hostServed 1 2 b = true ∧ (getPort 0 b).flit = true ∧ amGet (setIndex true 1 true) (getStream 0 64 b).sets = none ∧
      (amGet (setIndex true 2 false) (getStream 0 0 b).sets).map (·.started) = some false ∧ (getStream 0 64 b).secure = false := by decide +kernel
theorem wit_tdisp : tdiServed 1 2 2 (ports .unlocked) = true ∧ tdiServed 1 2 2 (ports .locked) = true ∧
    lockable 1 1 0 (getTdi 1 (ports .unlocked)) (ports .unlocked) = true ∧ (liveSess 1 2 (ports .unlocked)).isSome = true ∧
    (getTdi 1 (ports .locked)).held = true ∧ (getTdi 1 (ports .locked)).st = .locked ∧ (getTdi 1 (ports .locked)).nonce = 5 := by decide +kernel

def onI3c (da : Option Nat) : Block := setHost (fun h => { h with i3c := { h.i3c with da := da } }) { ops with regs := { ops.regs with i3cSa := 0x50 } }
theorem wit_mctpAndI3c : mctpServed 0 ops = true ∧ mctpServed 2 ops = true ∧ cccServed none (onI3c none) = true ∧
    (onI3c none).host.i3c.da = none ∧ (0x50 : BitVec 7).toNat = (onI3c none).regs.i3cSa ∧ cccServed (some 9) (onI3c (some 9)) = true := by
  decide +kernel

/-- Sessions in their handshake: 3 on I3C, which must authenticate; 4 on host port 0's path, which need not. -/
def shaking : Block :=
  setHost (fun h => { h with
    sess := h.sess ++ [{ id := 3, path := 0, mustAuth := true, encap := 1, encapId := 1 }, { id := 4, path := 1 }] }) ops
def req (code len : Nat) (fs : List (Nat × Nat × Nat)) : Bytes := msg len ([(0, 1, 0x13), (1, 1, code)] ++ fs)
theorem wit_negotiation :
    spdmAsked 0 0 (msg 4 [(0, 1, 0x10), (1, 1, 0x84)]) 0x84 0x10 0 .outside shaking = true ∧
    (let m := req 0xE1 20 [(12, 4, 42), (16, 4, 42)]
     spdmAsked 0 0 m 0xE1 0x13 1 .outside shaking = true ∧ m.length = 20 ∧ leField m 4 1 = 0 ∧ 42 ≤ leField m 12 4 ∧ leField m 12 4 ≤ leField m 16 4) ∧
    (let m := req 0xE3 36 [(2, 1, 1), (4, 2, 36), (8, 4, 0x80), (12, 4, 2), (32, 1, 5)]
     spdmAsked 0 0 m 0xE3 0x13 2 .outside shaking = true ∧ algBad m = false) ∧
    spdmAsked 1 2 (req 0x81 4 []) 0x81 0x13 3 .either shaking = true ∧
    (let m := req 0x82 8 [(6, 2, 0xFFFF)]
     spdmAsked 1 2 m 0x82 0x13 3 .either shaking = true ∧ m.length = 8 ∧ leField m 2 1 = 0 ∧ leField m 4 2 = 0) ∧
    (let m := req 0x83 44 [(3, 1, 255)]
     spdmAsked 0 0 m 0x83 0x13 3 .outside shaking = true ∧ m.length = 44 ∧ leField m 2 1 = 0 ∧ summaryOk (leField m 3 1) = true ∧
       trngStopped shaking = false) := by decide +kernel
theorem wit_chainIsNotEmpty : 0 < (slotChain shaking).length := by simp [slotChain, leBytes, toBytes] <;> omega
theorem wit_reportIsNotEmpty : 0 < (tdiReport 1 (getTdi 1 (ports .locked)) (ports .locked)).length := by simp [tdiReport, leBytes, toBytes] <;> omega
theorem wit_sessions :
    (let m := req 0xE0 45 [(2, 1, 1)]
     spdmAsked 1 2 m 0xE0 0x13 3 .either shaking = true ∧ leField m 2 1 < 8 ∧ m.length = 45 ∧ (leField m 2 1).testBit 0 = true ∧ leField m 36 1 = 0) ∧
    (let m := req 0xE4 138 []
     spdmAsked 1 0 m 0xE4 0x13 3 .outside shaking = true ∧ shaking.lcBusy = false ∧ m.length = 138 + leField m 136 2 ∧ leField m 3 1 = 0 ∧
       summaryOk (leField m 2 1) = true ∧ sessionsFull 1 shaking = false) ∧
    (let m := req 0xE5 52 []
     spdmAsked 1 4 m 0xE5 0x13 3 .handshake shaking = true ∧ ((findSpdm 1 4 shaking).map (·.mustAuth)) = some false ∧ leField m 2 1 = 0) ∧
    spdmAsked 1 2 (req 0xEC 4 [(2, 1, 1)]) 0xEC 0x13 3 .either shaking = true ∧ (findSpdm 1 2 shaking).isSome = true ∧
    spdmAsked 0 3 (req 0xEA 4 []) 0xEA 0x13 3 .handshake shaking = true ∧ ((findSpdm 0 3 shaking).map fun x => (x.mustAuth, x.authd)) = some (true, false) ∧
    (let m := req 0xEB 56 [(2, 1, 1), (4, 1, 0x13), (5, 1, 1), (7, 1, 1)]
     spdmAsked 0 3 m 0xEB 0x13 3 .handshake shaking = true ∧ ((findSpdm 0 3 shaking).map fun x => (x.encap, x.encapId)) = some (1, leField m 2 1) ∧
       leField (m.drop 4) 0 1 = 0x13 ∧ leField (m.drop 4) 1 1 = 1 ∧ (leField (m.drop 4) 3 1).testBit 0 = true ∧ 52 ≤ (m.drop 4).length) := by
  decide +kernel

/-! ### The weft -/

def self0 : OpenF := { kind := 0, gen := 0, index := 7, member := 0, pod := 4, endpoint := 1, channel := 0, bind := 1, device := 0x1D, rand := 0 }
def peerOf (pod : Nat) : OpenF := { self0 with index := 9, member := 1, endpoint := 2, pod := pod, device := 0x2D }
def sessOf (kind pod : Nat) : Session :=
  { st := .live, kind := kind, skein := 1, opener := false, peer := peerOf pod, self := self0, rx := { key := 0xA1 }, tx := { key := 0xA2, num := 1 }
    since := 0, limit := 1000, lastFrame := 4900000, lastRx := 4900000, loss := 16000 }
/-- Session 7 with a member of the same pod, 8 with one of another, and the group session 3970; port 3 is up. -/
def weft : Block :=
  setFab (fun f => { f with up := [3, 28], sessions := [(7, sessOf 0 4), (8, sessOf 0 5), (3970, sessOf 2 4)] })
    (withSk (fun s => { s with members := [(0, ⟨0x1D, 4, 1⟩), (1, ⟨0x2D, 4, 2⟩)], mailbox := some { hank := 3 } }) still)
/-- A frame's header on a session, its address hank 3's first line. -/
def hdr (kind flits si param extra : Nat) : Header :=
  { kind := kind, flits := flits, ns := kind == 7, session := si, param := param, addr := BitVec.ofNat 64 ra3, nonce := 1, extra := extra }
def frame (h : Header) (origin : Nat) : Bytes := sealFrame 0xA1 h origin (zeroBytes (32 * h.flits))
/-- The frame verifies on port 3, with this header's fields. -/
def verifies (h : Header) (origin : Nat) (b : Block) : Bool :=
  (weftVerified h.kind 3 origin (frame h origin) b).any fun r =>
    r.1 == h.session && r.2.2.1.kind == h.kind && r.2.2.1.param == h.param && r.2.2.1.nonce == h.nonce && r.2.2.1.ns == h.ns
def inBar (h : Header) (lines : Nat) (kind : TxnKind) (word : BitVec 32) : Bool :=
  let i := inOf (some h.session) 1 h 0 (takeFrame h.session 3 h weft)
  linesBar { i.1 with lines := lines } kind h.addr.toNat word 0 i.2 == none

theorem wit_weftRead : let h := hdr 1 0 7 4 0
    verifies h 0 weft = true ∧ carries (sessOf 0 4) h = true ∧ 1 ≤ h.param ∧ h.param ≤ 4 ∧ inBar h 4 .read 0 = true := by decide +kernel
theorem wit_weftWrite : let h := hdr 2 2 7 0 0xFF
    verifies h 0 weft = true ∧ carries (sessOf 0 4) h = true ∧ inBar h 1 .write 0 = true := by decide +kernel
theorem wit_weftPly : let h := hdr 3 2 7 2 0
    verifies h 0 weft = true ∧ carries (sessOf 0 4) h = true ∧ ((plyWord 2).fetch = true ↔ h.flits = 1) ∧ (plyWord 2).op = 2 ∧
      inBar h 1 .ply 2 = true := by decide +kernel
/-- A sequenced ADD that is the next of its requester, and one that is not. -/
theorem wit_weftSequenced : let h : Header := { hdr 3 2 7 1 0 with ns := true }
    let i := inOf (some 7) 1 h 0 (takeFrame 7 3 h weft)
    let judge (n : BitVec 64) := hwJudge (requesterId 2 0) 1 1 n false false i.2
    verifies h 0 weft = true ∧ carries (sessOf 0 4) h = true ∧
      (match (judge 1).1 with | .apply => true | _ => false) = true ∧ linesBar { i.1 with lines := 1 } .ply h.addr.toNat 1 0 (judge 1).2 = none ∧
      (match (judge 3).1 with | .reply _ _ => true | _ => false) = true := by decide +kernel
theorem wit_weftResolve : let h := hdr 7 0 7 0 0
    let i := inOf (some 7) 1 h 0 (takeFrame 7 3 h weft)
    verifies h 0 weft = true ∧ carries (sessOf 0 4) h = true ∧
      (match (hwJudge (requesterId 2 0) 1 1 1 false true i.2).1 with | .reply _ _ => true | _ => false) = true := by decide +kernel
theorem wit_weftMcast : let h := hdr 4 2 3970 0 0
    let c := takeFrame 3970 3 h weft
    verifies h 0 weft = true ∧ 3968 ≤ h.session ∧ (findSess 0 1 (peerOf 4).member c).map (·.1) = some 7 ∧ h.param = 0 ∧ inBar h 1 .write 0 = true := by
  decide +kernel
theorem wit_weftMessage : let h := hdr 6 2 8 0 0
    verifies h 0 weft = true ∧ carries (sessOf 0 5) h = true ∧
      (getSkein 1 (takeFrame 8 3 h weft)).bind (·.mailbox) = some { hank := 3 } := by decide +kernel
def combineSess : Block := setFab (fun f => { f with sessions := [(7, sessOf 1 4)] }) weft
theorem wit_weftCombined : let h := hdr 5 2 7 4 1
    verifies h 0 combineSess = true ∧ carries (sessOf 1 4) h = true ∧ inBar h 1 .ply 4 = true := by decide +kernel
theorem wit_weftGroupOpen : let h := hdr 0x23 1 7 0 0
    let p := leBytes 2 4095 ++ zeroBytes 30
    let c := takeFrame 7 3 h weft
    ((weftVerified 0x23 3 0 (sealFrame 0xA1 h 0 p) weft).any fun r => leField r.2.2.2 0 2 == 4095) = true ∧ carries (sessOf 0 4) h = true ∧
      (getSess 4095 c).isNone = true ∧ (c.fab.sessions.filter fun e => e.2.skein == 1).length < 1024 := by decide +kernel
/-- Federation port 28, open to die 1. -/
def fed : Block :=
  setFab (fun f => { f with
    fed := [(28, { isOpen := true, die := 1, rx := { key := 0xA1 }, lastRx := 4900000, loss := 16000 })], binding := [0x2D]
    out := [{ id := 5, skein := 1, slot := 0, die := some 1, peer := 0, kind := 1, addr := 0, lines := 1, param := 1, extra := 0, payload := []
              seqd := false, fetch := false, nonce := some 1, src := none, fence := none, respond := false, since := 4000000
              limit := 1000, loss := 16000 }] })
    { weft with regs := { weft.regs with pkgDies := 2 } }
theorem wit_weftCoherence : let h : Header := { hdr 8 1 0 0 0 with addr := 0 }
    ((fedVerified 8 28 (frame h 0) fed).any fun r => r.2.1.die == fed.regs.dieIndex) = true ∧
      closed fed = false ∧ (zeroBytes 256).length ≤ 256 ∧ fedPortTo 1 fed = some 28 := by decide +kernel

/-- A request of skein 1 outstanding on session 7. -/
def waiting (kind : Nat) (seqd timedOut : Bool) : Block :=
  setFab (fun f => { f with out := [{
    id := 5, skein := 1, slot := 0, die := none, peer := 1, session := some 7, kind := kind, addr := 0, lines := 1, param := 1, extra := 0, payload := []
    seqd := seqd, fetch := false, nonce := some 1, src := some (0, 1), fence := none, respond := true, since := 4000000, limit := 1000, loss := 16000, lastSent := 4000000
    timedOut := timedOut }] }) weft
theorem wit_weftReplies : ([(0x11, 1, 2, 0), (0x12, 2, 0, 0), (0x13, 3, 0, 77)].all fun p =>
    let h := hdr p.1 p.2.2.1 7 0 1
    verifies h p.2.2.2 (waiting p.2.1 false false) &&
      ((takeFrame 7 3 h (waiting p.2.1 false false)).fab.out.find? fun r => r.session == some 7 && repliesTo p.1 r.kind && r.kind != 4 &&
        r.nonce == some 1 && (p.1 != 0x11 || BitVec.ofNat 8 (h.param % 256) != cOK || h.flits == 2 * r.lines)).isSome) = true := by decide +kernel
theorem wit_weftClose : verifies (hdr 0x22 0 7 0 0) 0 weft = true := by decide +kernel
/-- An OPEN from member 1, whose entry is cached with the combine session 8. -/
def opening : Block := setFab (fun f => { f with sessions := [(8, sessOf 1 4)] }) weft
theorem wit_weftOpen : asleep opening = false ∧ opening.fab.up.contains 3 = true ∧ isFedPort 3 = false ∧ 3 < opening.row.weftPorts ∧ openTargets (peerOf 4) opening = [1] ∧ openTaken 1 (peerOf 4) (choose 1 opening).2 = false ∧
    heldSess 1 (choose 1 opening).2 < 1024 ∧
    (let m := readMember [] 1 (peerOf 4).member (choose 1 opening).2
     let r := takeSess (dropOldHalf m.2)
     m.1 = cOK ∧ r.1.isSome = true ∧ (ownFields 0 (r.1.getD 0) 1 r.2).isSome = true) := by decide +kernel
def accepting : Block := setFab (fun f => { f with sessions := [(7, { sessOf 0 4 with st := .opening, opener := true }), (8, sessOf 1 4)] }) weft
theorem wit_weftAccept : asleep accepting = false ∧ accepting.fab.up.contains 3 = true ∧ 3 < accepting.row.weftPorts ∧
    ((getSess 7 accepting).any fun x => x.st == .opening && x.kind == (peerOf 4).kind && acceptListed x (peerOf 4) accepting &&
      (readMember [] x.skein x.peer.member accepting).1 == cOK) = true := by decide +kernel

theorem wit_requestEvents : ([(3, true), (3, false), (4, false)].all fun p =>
      (findOut 5 (waiting p.1 p.2 false)).any fun r => !r.timedOut && decide (r.since + r.limit ≤ 5000000) && r.src.isSome) = true ∧
    ((findOut 5 (waiting 3 true false)).any fun r => r.seqd && r.nonce.isSome && !r.timedOut && decide (r.lastSent + 100 ≤ 5000000)) = true ∧
    ((findOut 5 (waiting 3 true true)).any fun r => r.seqd && r.timedOut && decide (r.lastSent + 100 ≤ 5000000)) = true := by decide +kernel
theorem wit_sessionEvents :
    ((getSess 7 accepting).any fun x => x.st == .opening && x.kind != 2 && decide (x.since + x.limit ≤ accepting.tick)) = true ∧
    (let b := waiting 1 false false
     ((argMin (·.since) (outOn 7 b)).any fun r => decide (lossDue 4900000 16000 r ≤ b.tick)) = true) ∧
    ((getSess 7 weft).any fun x => !sessBusy 7 x weft && x.st == .live && x.kind != 2 && decide (x.lastFrame + 65536 ≤ weft.tick)) = true ∧
    ((getSess 7 (modSess 7 (fun x => { x with closeBy := some 5000000 }) weft)).bind (·.closeBy)) = some 5000000 ∧
    weft.fab.up.contains 4 = false ∧ 4 < weft.row.weftPorts ∧ weft.fab.up.contains 29 = false ∧ isFedPort 29 = true := by decide +kernel
theorem wit_federation : (getFed 28 fed).map (·.isOpen) = some true ∧
    ((argMin (·.since) (fed.fab.out.filter fun r => r.nonce.isSome && (match r.die with
      | some d => fedPortTo d fed == some 28
      | none => false))).any fun r => decide (lossDue 4900000 16000 r ≤ fed.tick)) = true ∧
    bringsUp 1 fed = true ∧ fed.fab.binding.contains 0x2D = true := by decide +kernel

/-! ### Faults, whorls and field tests -/

theorem wit_watchdog : let b := banks 4 5
    b.dst.started = true ∧ asleep b = false ∧ b.fwHalted = false ∧ b.fwRestart = none ∧ ¬b.fwKick + 10000 ≤ b.tick ∧
      { b with fwKick := 4990000 }.fwKick + 10000 ≤ b.tick ∧ b.fwExpiry = none := by decide +kernel
theorem wit_watchdogAgain : let b := { banks 4 5 with fwKick := 4990000, fwExpiry := some 4500000 }
    b.fwKick + 10000 ≤ b.tick ∧ b.tick < 4500000 + 1000000 ∧ 4000000 + 1000000 ≤ b.tick := by decide +kernel
theorem wit_controllerRestart : let b := { banks 4 5 with fwRestart := some 4995000 }
    b.fwRestart.isSome = true ∧ 4995000 + 5000 ≤ b.tick ∧ (otherBank b).st = 5 := by decide +kernel
theorem wit_unitHang : asleep live = false ∧ unitHung 0x12 { live with unitStuck := [(0x12, 4999900)] } = true ∧
    unitHung 0x12 { live with unitStuck := [(0x12, 4999901)] } = false := by decide +kernel

def unit0 : WUnit := { id := 0, entry := 0, keyId := 5, slot := 0, tier := 5, blocks := 4, slotUnit := false }
/-- Spindle 5 has eight units waiting; whorl 70 and spindle 2 are in reset, spindle 3 is being isolated, a sweep runs. -/
def weaving : Block :=
  setWh (fun w => { w with
    queues := [(5, List.replicate 8 unit0)]
    checks := [{ producer := 0, checker := 64, entry := 0, since := 4999990 }]
    running := [{ whorl := 640, unit := unit0, since := 4999980 }, { whorl := 128, unit := unit0, since := 4999980 }]
    stillSince := [(6, 4999980)]
    lastHang := [(640, 4500000)]
    resetWhorls := [{ index := 70, since := 4999950, replayed := [] }]
    resetSpindles := [{ index := 2, since := 4999950, replayed := [] }]
    isolating := [{ index := 3, since := 4999950, replayed := [] }]
    sweeps := [{ kind := 2, whorl := 9, entries := [], replayed := [], incomplete := false, slots := 0 }] }) live
theorem wit_steal : spindleIn 4 weaving = true ∧ queueOf 4 weaving = [] ∧ startersOf 4 weaving ≠ [] ∧
    stealVictim 4 weaving = some 5 := by decide +kernel
theorem wit_respin : (checkOf 0 64 weaving).isSome = true ∧ thirdOk 0 64 4095 weaving = true ∧ thirdOk 0 64 127 weaving = false ∧
    (1 : Block128) ≠ 2 := by decide +kernel
theorem wit_whorlEvents : weaving.wh.sweeps ≠ [] ∧ whorlHung 640 weaving = true ∧ hungBefore 640 weaving = true ∧
    whorlHung 256 (setWh (fun w => { w with running := [{ whorl := 256, unit := unit0, since := 4999980 }] }) weaving) = true ∧
    hungBefore 256 weaving = false ∧ ((weaving.wh.resetWhorls.find? fun u => u.index == 70).any fun u => decide (u.since + 50 ≤ weaving.tick)) = true ∧
    spindleHung 6 weaving = true ∧
    ((weaving.wh.resetSpindles.find? fun u => u.index == 2).any fun u => decide (u.since + 50 ≤ weaving.tick)) = true ∧
    ((weaving.wh.isolating.find? fun u => u.index == 3).any fun u => decide (u.since + 50 ≤ weaving.tick)) = true := by decide +kernel

def ftD : Line := dsc [(0, 1, 0x58), (16, 1, 4), (18, 2, 15)]
/-- A pack stored, a fault record without a list and one whose list lies in a class B extent; a test runs. -/
def testing : Block :=
  let rec1 : BitVec 1024 := 0
  let b := setDistaff (fun d => { d with
    packs := [{ id := 77, manager := true, bytes := [] }], tests := [{ desc := none, scope := 0, index := 3, pack := 0, fault := 6, begun := true }] }) ops
  setMem (fun m => { m with extents := [{ owner := .fault 9, base := 40 * hankBytes, lines := 0, count := 1 }] })
    { b with faults := [(8, rec1), (9, putAt 1024 40 4 1)] }
theorem wit_fieldTest : runsNow .mgr ftD 0x58 (fieldTestChecks ftD) (.fieldTest .mgr ftD) (fun _ => []) live = true ∧
    (testing.dst.tests.any fun t => t.begun && t.todo == []) = true := by decide +kernel
theorem wit_group60 :
    (let m := grp 0x60 1 17 [(4, 4, 262143), (8, 2, 1)]
     groupServed .operator 0x60 1 0 1 m 17 (leField m 8 2 = 0 || decide (4096 < leField m 8 2) || decide (262144 < leField m 4 4 + leField m 8 2) || !restZero m 10 16) testing = true) ∧
    groupServed .operator 0x60 2 0 1 (grp 0x60 2 5 [(4, 1, 1)]) 5 (decide (1 < leField (grp 0x60 2 5 [(4, 1, 1)]) 4 1)) testing = true ∧
    groupServed .operator 0x60 3 0 1 (grp 0x60 3 8 [(4, 4, 77)]) 8 false testing = true ∧ (testing.dst.packs.any fun p => p.id == 77) = true ∧
    (let m := grp 0x60 4 12 [(4, 1, 4), (6, 2, 15), (8, 4, 77)]
     groupServed .operator 0x60 4 0 1 m 12 (decide (5 < leField m 4 1) || leField m 5 1 != 0) testing = true ∧
       testIndexOk (leField m 4 1) (leField m 6 2) testing = true ∧ packOk (leField m 8 4) false testing = true) ∧
    groupServed .operator 0x60 5 0 1 (grp 0x60 5 8 [(4, 4, 8)]) 8 false testing = true ∧ (faultHeld 8 testing).isSome = true ∧
    (let m := grp 0x60 6 12 [(4, 4, 9), (8, 4, 4096)]
     groupServed .operator 0x60 6 0 1 m 12 (leField m 8 4 % 4096 != 0) testing = true) ∧
    ((faultHeld 8 testing).map (fieldAt · 40 4)) = some 0 ∧ ((faultHeld 9 testing).map (fieldAt · 40 4)) = some 1 ∧
    ((findExtent (.fault 9) testing).any fun e => isOk (readExtent [] e testing).1) = true ∧
    (let m := grp 0x60 7 6 [(4, 1, 15), (5, 1, 1)]
     groupServed .operator 0x60 7 0 1 m 6 (decide (testing.row.stackCount ≤ leField m 4 1) || decide (1 < leField m 5 1)) testing = true) ∧
    groupServed .operator 0x60 8 0 1 (grp 0x60 8 4 []) 4 false testing = true := by decide +kernel

/-! ### Start, power, time and debug -/

def startIn : StartIn :=
  { dieIndex := 0, pkgDies := 1, i3cSa := 0x50, mainGood := true, backupGood := true, otp := [], weak := [], races := [], trngFails := 0, badWhorls := [] }
def pwr (st : PState) (f : Power → Power) : Block := setPwr (fun p => f { p with st := st }) live
theorem wit_start : startsNow startIn State.reset.blk = true ∧ startsNow startIn (pwr .off id) = true := by decide +kernel
theorem wit_blockReset : let b := setDistaff (fun d => { d with resetDue := some (5000000, 4) }) live
    b.dst.resetDue = some (5000000, 4) ∧ 5000000 ≤ b.tick ∧ b.dst.started = true ∧ b.pwr.st ≠ .off := by decide +kernel
theorem wit_supplies : live.pwr.mainGood = true ∧ live.pwr.backupGood = true ∧ live.pwr.coreOn = true ∧ live.pwr.st ≠ .off ∧
    (pwr .active fun p => { p with mainGood := false, onBackup := true }).pwr.mainGood = false ∧
    (pwr .active fun p => { p with mainGood := false, onBackup := true }).pwr.onBackup = true ∧ (pwr .rest id).pwr.st ≠ .active := by decide +kernel
/-- The manager's ring has nothing unfetched, nor skein 1's. -/
def quietB : Block := withSk (fun s => { s with ring := {} }) { live with mgr := {} }
theorem wit_requestPower : ([1, 2].all fun v => let q := tgt 0x500 false v 0x0F
    !closed quietB && isReg q 0x500 false && (writeValue q quietB).any (fun w => bitField w 1 0 == v.toNat) && writesHonoured 0x500 quietB) = true ∧
    refuser false quietB = none ∧ refuser true { quietB with skeins := [], mem := { quietB.mem with keys := [], hanks := [], regions := [] } } = none := by
  decide +kernel
theorem wit_wake : (pwr .active fun p => { p with entry := some 1 }).pwr.entry = some 1 ∧ (pwr .rest id).pwr.st = .rest ∧ (pwr .off id).pwr.st = .off ∧
    WakeSource.i3c ≠ .doorbell none ∧
    (setHost (fun h => { h with i3c := { h.i3c with da := some 9 } }) (pwr .rest id)).host.i3c.da.isSome = true := by decide +kernel
def alarmed (st : PState) : Block := setTim (fun t => { t with t := 9 }) { pwr st id with regs := { live.regs with timAlarm := 9 } }
theorem wit_alarm : alarmDue (alarmed .active) = true ∧ (alarmed .active).pwr.st = .active ∧ (alarmed .active).pwr.entry = none ∧
    alarmDue (alarmed .rest) = true ∧ (alarmed .rest).pwr.st ≠ .active := by decide +kernel

/-- TOD in use, with or without the PPS edge; locked; a strobe accepted 19 ticks ago. -/
def timed (ctrl : BitVec 32) (q : Nat) : Block :=
  setTim (fun t => { t with quality := q, lastStrobe := some 4999981, strobeFrom := 4000000 })
    { live with regs := { live.regs with timCtrl := ctrl, timStrobe := 0x1F40014 } }
theorem wit_time : (timed 1 0).tim.substitute = false ∧ (setTim (fun t => { t with substitute := true }) live).tim.substitute = true ∧
    (timed 3 0).regs.timCtrl.getLsbD 0 = true ∧ (timed 3 0).regs.timCtrl.getLsbD 1 = true ∧ nearSecond 1000000000 (timed 3 0) = true ∧
    (timed 1 0).regs.timCtrl.getLsbD 1 = false ∧ (timed 1 0).tim.quality ≠ 3 ∧ (timed 1 3).tim.quality = 3 ∧ (timed 1 3).tim.busAt + 2 ≤ (timed 1 3).tick ∧
    strobeEarly (timed 1 0) = true ∧ strobeEarly { timed 1 0 with tick := 5000001 } = false ∧
    bitField (timed 1 0).regs.timStrobe 31 16 ≠ 0 ∧ (timed 1 0).tim.strobeMissing = false ∧
    (timed 1 0).tim.strobeFrom + 2 * bitField (timed 1 0).regs.timStrobe 31 16 ≤ (timed 1 0).tick := by decide +kernel
/-- Debug, telemetry and scan open; with the firmware halted. -/
def opened (h : Bool) : Block := { live with regs := { live.regs with lockState := 0xFF }, fwHalted := h }
theorem wit_debug : (opened true).regs.lockState.getLsbD 7 = true ∧ (opened true).regs.lcsGate.getLsbD 1 = false ∧ closed (opened true) = false ∧
    (opened true).fwHalted = true ∧ (opened true).regs.lockState.getLsbD 4 = true ∧ (opened true).regs.lcsGate.getLsbD 0 = false ∧
    (opened true).regs.lockState.getLsbD 5 = true ∧ (opened true).regs.lcsGate.getLsbD 2 = false ∧ (opened true).dst.scan = false ∧
    (setDistaff (fun d => { d with scan := true }) live).dst.scan = true := by decide +kernel

/-! ### Properties of the whole machine -/

theorem wit_queue : (∃ t, step { st live with pending := [.tickLost, .idcode] } = .next t) ∧
    State.queueWf { st live with pending := [.tickLost, .idcode] } = true := ⟨⟨_, rfl⟩, by decide +kernel⟩
theorem wit_attention : (getRing (.skein 1) live).isSome = true ∧ (getRing .mgr live).isSome = true := by decide +kernel
/-- Fence 9 of skein 1 holds 5, and fence 10 is in error. -/
def fenced : Block := setFence (some 1) 10 { error := true, code := cTimeout } (setFence (some 1) 9 { value := 5 } live)
theorem wit_signal : frozen (some 1) fenced = false ∧ (getSkein 1 fenced).isSome = true ∧ (getFence (some 1) 10 fenced).error = true ∧
    (getFence (some 1) 9 fenced).error = false ∧ 0xFFFFFFFFFFFFFFFE ≤ 0xFFFFFFFFFFFFFFFE ∧ 4 < (getFence (some 1) 9 fenced).value.toNat ∧
    (getFence (some 1) 9 fenced).value.toNat ≤ 5 ∧ ringOwner (.skein 1) = some 1 ∧
    dSig (dsc [(1, 1, 1), (2, 2, 9), (8, 8, 5)]) = true ∧ dSigFence (dsc [(1, 1, 1), (2, 2, 9), (8, 8, 5)]) = 9 ∧
    dSigValue (dsc [(1, 1, 1), (2, 2, 9), (8, 8, 5)]) = 5 := by decide +kernel
theorem wit_storeFrame : 0x718 % 8 = 0 ∧ 0x210 % 8 = 0 ∧ 0x210 ≠ 0x718 := by decide
/-- A line of hank 3 and its MAC line lie in different places. -/
theorem wit_storedLines : dataPlace (addrTk (3 * hankBytes) live) (3 * hankBytes) live ≠ (macPlace (3 * hankBytes) live).1 ∧
    dataPlace (addrTk (70 * hankBytes) live) (70 * hankBytes) live ≠ (eMacPlace (70 * hankBytes) live).1 ∧ live.mem.wf = true := by decide +kernel
theorem wit_twist : 8 ∣ 1024 ∧ 2047 / 1024 = 1 ∧ (twistLine 0x1234 8 2047).2 / (1024 / 8) = 1 := by decide +kernel
theorem wit_frame : let h := hdr 1 8 4095 (2 ^ 32 - 1) (2 ^ 64 - 1)
    h.kind < 64 ∧ h.die < 4 ∧ h.flits ≤ 8 ∧ h.rgen < 4 ∧ h.session < 65536 ∧ h.param < 2 ^ 32 ∧ h.nonce < 2 ^ 64 ∧ h.extra < 2 ^ 64 ∧
      (zeroBytes 256).length = 32 * h.flits ∧ ([] : Bytes) ≠ (zeroBytes 16) := by decide +kernel
theorem wit_internalCode : (0 : Nat) < 265 ∧ 265 < 266 := by decide
theorem wit_exactSums : [FV.fin false 3, FV.fin true 1].Perm [FV.fin true 1, FV.fin false 3] ∧
    (0 : Int).natAbs + sumNat ([FV.fin false 3, FV.fin true 1].map FV.mag) < 2 ^ 287 := ⟨List.Perm.swap _ _ _, by decide +kernel⟩
theorem wit_epochs : (amGet 2 live.mem.regions).map (·.epoch) = some 1 ∧ (claimE 1 6 (70 * hankBytes) live).1 = cOK := by decide +kernel
theorem wit_unverified : isFedPort 3 = false ∧ ([1, 2, 3, 4, 5, 6, 7, 0x11, 0x12, 0x13, 0x22, 0x23].all fun k =>
    (weftVerified k 3 0 [] weft).isNone) = true := by decide +kernel
/-- Skein 1 asks for a line of a free hank. -/
theorem wit_refused : let q := { warp 0 0 with addr := BitVec.ofNat 64 (5 * 2 ^ 52 + 9 * hankBytes) }
    closed live = false ∧ slotSkein q.skeinTag.toNat live = some (1, sk) ∧ q.peerV = false ∧
      (frontEnd 1 (reqKeyId q) (reqAddr q) live).isSome = true ∧ reqMalformed q 0 = false ∧ reqMalformed q 1 = false ∧
      (getHank (reqAddr q / hankBytes) live).st ≠ .allocated := by decide +kernel

/-! ### Worked examples of the spec -/

/-- The class S and class E input blocks of the examples of R71 and R109. -/
theorem test_blkS : blkS 0x2A 0x3400000001000 5 0 1 2 = 0x000000000000002A3400000001002822 := by decide +kernel
theorem test_blkE : blkE 500 0x8000000040 3 1 = 0x00000000000001F40008000000040341 := by decide +kernel
/-- AES-256 of FIPS 197's example, and SHA-384 of "abc" (FIPS 180-4). -/
theorem test_aes : aesBytes (ofBytes 256 ((List.range 32).map (BitVec.ofNat 8))) ((List.range 16).map fun i => BitVec.ofNat 8 (17 * i)) =
    [0x8E, 0xA2, 0xB7, 0xCA, 0x51, 0x67, 0x45, 0xBF, 0xEA, 0xFC, 0x49, 0x90, 0x4B, 0x49, 0x60, 0x89] := by decide +kernel
theorem test_sha : (sha384Bytes [0x61, 0x62, 0x63]).take 8 = [0xCB, 0x00, 0x75, 0x3F, 0x45, 0xA3, 0x5E, 0x8B] := by decide +kernel
/-- The bfloat16 sums of the ply unit's example: direct mode in two orders, and exact mode. -/
def bf16 (a x : Nat) : Nat := ((plyReduce (plyWord 0x401) (fun _ => 0) 3 (BitVec.ofNat 512 a) (BitVec.ofNat 512 x)).1).toNat
theorem test_bf16 : bf16 (bf16 (bf16 0 0x3F80) 0x3B80) 0x3A80 = 0x3F80 ∧ bf16 (bf16 (bf16 0 0x3B80) 0x3A80) 0x3F80 = 0x3F81 := by decide +kernel
def exactSum (rnd r : Nat) : Nat :=
  let add (as : List Acc) (x : Nat) : List Acc := (accAdd (· == 0) as [((ffmt 4).map (·.decode x)).getD .nan]).1
  ((accLine 4 rnd (fun _ => r) (add (add (add (accOpen 4 0) 0x3F80) 0x3B80) 0x3A80)).1).toNat
theorem test_exact : exactSum 0 0 = 0x3F81 ∧ exactSum 1 0x6C31 = 0x3F81 ∧ exactSum 1 0x1F00 = 0x3F80 := by decide +kernel
/-- The microscaling example: 300, −5.5 and seven subnormal ulps; then 500 saturates. -/
def mxOf (x : Nat) : Option (Nat × List Nat × Nat) :=
  (ffmt 7).map fun g => let r := mxBlock g 0 (fun _ => 0) 0 [.fin false (x * 2 ^ 136), .fin true (11 * 2 ^ 135), .fin false (7 * 2 ^ 127)]
    (r.1, r.2.1, r.2.2)
theorem test_mx : mxOf 300 = some (0x7F, [0x79, 0xCB, 0x07], 0) ∧ (mxOf 500).map (fun r => (r.2.1.headD 0, r.2.2)) = some (0x7E, 1) := by decide +kernel
/-- The header bytes of the weft example. -/
theorem test_header : ({ kind := 3, flits := 2, ns := true, session := 677, param := 0x421, addr := 0x0150000200000040, nonce := 7 } : Header).bytes =
    [3, 0x42, 0xA5, 2, 0x21, 4, 0, 0, 0x40, 0, 0, 0, 2, 0, 0x50, 1, 7, 0, 0, 0, 0, 0, 0, 0] ++ zeroBytes 8 := by decide +kernel
/-- Zone 1 of the example of R143 holds 109,969 hanks. -/
theorem test_zoneHanks : sliceHanks (1024 * GiB) (Config.Row.full.upKiB * 1024) (4 * GiB) 224 (zoneOf (BitVec.ofNat 64 (0xFFFF + 0x0F00 * 2 ^ 16))) = 109969 := by
  decide +kernel
/-- CFG_ID of the bring-up procedure. -/
theorem test_cfgId : regRead 0x000 State.reset.blk = 0x00006F2A00010104 := by decide +kernel

/-! ### Ill-formed commands -/

def badEvs : MemEvs := [{ key := 7, flip := 1, ue := false, ce := false }, { key := 7, flip := 2, ue := false, ce := false }]
def badOpen : OpenF := { self0 with gen := 16 }
theorem test_illFormed : ([
    Instr.nop (.skein 1024) 0, .hankAlloc (.skein 1024) 0, .digest (.skein 0) 0 badEvs, .wake (.doorbell (some 1024)), .keyLadderGrant badEvs,
    .skewInterval (List.replicate 257 0), .warpRead { warp 0 0 with port := 16 } [], .plyAdd (warp 2 1) badEvs, .sqTail (tgt 2 false 0 0x0F),
    .registerWrite (tgt 0 false 0 0x07), .cqHead { tgt 0 false 0 0x0F with func := 1025 }, .windowHankAlloc { wreq 8 with addr := 32 },
    .bucketSelectorWrite { wreq 8 with size8 := true, addr := 4 }, .weftOpen 30 self0, .weftOpen 3 badOpen, .weftAccept 3 7 badOpen 0,
    .weftRead 3 [] badEvs, .linkUp 30, .eccSweep [{ word := .key 5, flips := [3, 3] }], .start { startIn with otp := [(256, 1)] },
    .start { startIn with races := [[]] }, .getVersion 3 0 [], .keyProg 3 0 0 0 false false 0 0, .policySet 3 0 [],
    .lcTransition 0 0 [] 0 badEvs, .ideTlpReceive 0 0 0 false [] [] [0] true true, .cfgAccess 2 0 0 true 0 0, .hostLinkDown 2,
    .federationBringup 1 0 true 0 0 [(1024, none)] []].all fun c => !c.wf) = true := by decide +kernel
theorem test_wellFormed : ([Instr.nop (.skein 1023) 0, .wake (.doorbell (some 1023)), .sqTail (tgt 0xF004 false 0 0xF0), .registerWrite (tgt 0x400 false 0 0xFF),
    .warpRead { warp 0 0 with port := 15 } [], .windowHankAlloc (wreq 8), .weftOpen 29 self0, .start startIn, .getVersion 2 0 [], .hostLinkDown 1,
    .skewInterval (List.replicate 256 0)].all fun c => c.wf) = true := by decide +kernel

/-! ### Single steps -/

/-- The front command runs, and the others wait (R15 has nothing to say of the queue: it is the model's own). -/
theorem test_step : (match step { st live with pending := [.idcode, .bypass] } with
    | .next t => t.pending == [Instr.bypass] && t.blk.out.length == 1
    | _ => false) = true := by decide +kernel
/-- A FENCE_SIGNAL raises fence 9 to 5, and its completion record is written with status OK. -/
theorem test_signal : (match exec (.fenceSignal (.skein 1) sigD) (st live) with
    | .next t => (getFence (some 1) 9 t.blk).value == 5 && (t.blk.out.any fun o => match o with
      | .record (.skein 1) _ _ r => r.status == cOK
      | _ => false)
    | _ => false) = true := by decide +kernel

/-! ### Witnesses that evaluate the ciphers -/

theorem wit_blob : okEq (openBlob sk sBlob) 0x88 = true ∧ sk.tpk = some 0x77 := by decide +kernel
theorem wit_sealLines : let r := sealLines [] { tier := 3 } 6 [7] none 1 0 (advanceRegion 2 (sampleTime 0x19 0 fired)).2
  r.1 = 1 ∧ r.2.1 = cOK := by decide +kernel
/-- The seal moved, its region's record line to be written. -/
def moving : Block := sealAt (.moving 1 5 0) (at0 armD .effected (fencedAll seald))
def sealRecLine : Line := sealRecord { desc := 0, skein := 1, keyId := 6, base := 64, lines := 1, fence := 9, value := 1 } 1 1 5 0
theorem wit_sealOutEnd : ((moving.srv.seals.find? (movingAt 1 64)).map (·.st)) = some (.moving 1 5 0) ∧ (sealRegion 6 moving).isSome = true ∧ regionBar { desc := 0, skein := 1, keyId := 6, base := 64, lines := 1, fence := 9, value := 1 } moving = none ∧
    (putLine [] { tier := 3 } (regionLine 6 0 moving) sealRecLine fullMask moving).1 = cOK := by decide +kernel
/-- The region holding a seal of one line, written. -/
def sealInD : Line := dsc [(0, 1, 0x19), (16, 2, 6), (24, 8, 64)]
def sealHeld : Block :=
  let b := setMem (fun m => { m with regions := amMod 2 (fun r => { r with seald := true }) m.regions }) (fencedAll seald)
  setSrv (fun v => { v with resumes := [{ region := 2, lines := 1, fence := 9, value := 1 }] })
    (putLine [] { tier := 3 } (regionLine 6 0 b) sealRecLine fullMask (putLine [] { tier := 3 } (regionLine 6 1 b) 7 fullMask b).2).2
theorem wit_sealIn : let b := accBlk (.skein 1) sealInD (.sealIn (.skein 1) sealInD none []) (fun _ => []) sealHeld
    let y := consumeSeal 2 b
    let c := (getLine [] (sealWork sealInD) (regionLine 6 0 y) y).2
    runsNow (.skein 1) sealInD 0x19 (sealInChecks (.skein 1) sealInD) (.sealIn (.skein 1) sealInD none []) (fun _ => []) sealHeld = true ∧
      checkKey 1 6 b = none ∧ (sealRegion 6 b).isSome = true ∧ (b.srv.resumes.find? (fun y => y.region == 2)).isSome = true ∧
      regionLines 6 y ≠ 0 ∧ okEq (getLine [] (sealWork sealInD) (regionLine 6 0 y) y).1 sealRecLine = true ∧
      recordAgrees 1 6 ((amGet 2 b.mem.regions).getD { keyId := 0, skein := 0, adv := 0, strobeDiv := 0, macEn := true })
        (genNum ((getKey 6 c).bind (·.cur))) sealRecLine c = true ∧ scratchBad 64 1 = false ∧
      (unsealLines [] (sealWork sealInD) 6 64 none 1 0 c).1 = 1 ∧ (unsealLines [] (sealWork sealInD) 6 64 none 1 0 c).2.1 = cOK := by decide +kernel

end Sys2Proof.Tests
end

section
/-! The identification register and the IDCODE carry one part code (R5, R507). -/

namespace Sys2Proof.Machine

/-- The slot at offset 0 reads the constant CFG_ID, whatever the block's state and row (R507). -/
@[simp] theorem regRead_cfgId (b : Block) : regRead 0x000 b = cfgId := by
  simp only [regRead, if_true]

/-- The fields of IDCODE do not overflow its 32 bits, whatever JEDEC code the integrator supplies (R496). -/
theorem idcode_toNat : idcode.toNat = 4 * 2 ^ 28 + 0x6F2A * 2 ^ 12 + Config.jedec.toNat * 2 + 1 := by
  have hj : Config.jedec.toNat < 2 ^ 11 := Config.jedec.isLt
  rw [idcode, BitVec.toNat_ofNat]
  exact Nat.mod_eq_of_lt (by omega)

/-- IDCODE's bits [27:12] are the part code: the JEDEC code and the final 1 stay below bit 12. -/
theorem idcode_partCode : bitField idcode 27 12 = 0x6F2A := by
  have hj : Config.jedec.toNat < 2 ^ 11 := Config.jedec.isLt
  rw [bitField, idcode_toNat, Nat.shiftRight_eq_div_pow]
  omega

/-- CFG_ID field by field, its two reserved fields 0 (R5, R507). -/
theorem cfgId_fields :
    bitField cfgId 7 0 = 4 ∧ bitField cfgId 15 8 = 1 ∧ bitField cfgId 23 16 = 1 ∧ bitField cfgId 31 24 = 0 ∧
      bitField cfgId 47 32 = 0x6F2A ∧ bitField cfgId 63 48 = 0 := by
  decide

/-- Settles O43: the slot reads the constant CFG_ID in every block, so also in the one that a register write leaves, and the
IDCODE's part code is CFG_ID's. -/
theorem revisionIsFixed : Obligations.RevisionIsFixed := by
  intro b id
  have hid : id = cfgId := regRead_cfgId b
  have hwrite (off : Nat) (v : BitVec 64) : regRead 0x000 (regStore off v b) = id :=
    (regRead_cfgId (regStore off v b)).trans hid.symm
  obtain ⟨hminor, hmajor, hversion, hrsv, hpart, hrsvHigh⟩ := hid ▸ cfgId_fields
  exact ⟨hminor, hmajor, hversion, hrsv, hpart, hrsvHigh, idcode_partCode.trans hpart.symm, hwrite⟩

end Sys2Proof.Machine
end

section
/-! The twist permutes the lines of each window within the window's footprint (R145, R146). Each Feistel round is undone by the
round that reads its key from the half it left alone, so the four rounds permute the 1,024 line numbers of a window. -/

namespace Sys2Proof.Machine

/-- What round `i` of the keyed permutation mixes into one half, read from the other half `r` (R145). -/
def twistMix (tk : BitVec 64) (w i r : Nat) : Nat :=
  (mix (tk ^^^ BitVec.ofNat 64 (w <<< 8) ^^^ BitVec.ofNat 64 (i <<< 5) ^^^ BitVec.ofNat 64 r)).toNat % 32

/-- The rounds of `twistRounds` undone, the last one first. -/
def untwistRounds (tk : BitVec 64) (w : Nat) : Nat → Nat → Nat → Nat → Nat × Nat
  | 0, _, l, r => (l, r)
  | n + 1, i, l, r =>
    let p := untwistRounds tk w n (i + 1) l r
    (p.2 ^^^ twistMix tk w i p.1, p.1)

/-- The place within its window's footprint of line `x` of window `w` (R145). -/
def twistIndex (tk : BitVec 64) (w x : Nat) : Nat :=
  let p := twistRounds tk w 4 0 (x / 32) (x % 32)
  p.1 * 32 + p.2

/-- The line of window `w` at place `y` of the window's footprint. -/
def untwistIndex (tk : BitVec 64) (w y : Nat) : Nat :=
  let p := untwistRounds tk w 4 0 (y / 32) (y % 32)
  p.1 * 32 + p.2

section Rounds

variable (tk : BitVec 64) (w : Nat)

@[simp] theorem twistRounds_zero (i l r : Nat) : twistRounds tk w 0 i l r = (l, r) := rfl

@[simp] theorem twistRounds_succ (n i l r : Nat) :
    twistRounds tk w (n + 1) i l r = twistRounds tk w n (i + 1) r (l ^^^ twistMix tk w i r) := rfl

@[simp] theorem untwistRounds_zero (i l r : Nat) : untwistRounds tk w 0 i l r = (l, r) := rfl

@[simp] theorem untwistRounds_succ (n i l r : Nat) :
    untwistRounds tk w (n + 1) i l r =
      ((untwistRounds tk w n (i + 1) l r).2 ^^^ twistMix tk w i (untwistRounds tk w n (i + 1) l r).1,
        (untwistRounds tk w n (i + 1) l r).1) := rfl

/-- Mixing keeps a half within its five bits. -/
theorem xor_twistMix_lt {l : Nat} (hl : l < 32) (i r : Nat) : l ^^^ twistMix tk w i r < 32 :=
  Nat.xor_lt_two_pow (n := 5) hl (Nat.mod_lt _ (by decide))

theorem twistRounds_lt (n i : Nat) {l r : Nat} (hl : l < 32) (hr : r < 32) :
    (twistRounds tk w n i l r).1 < 32 ∧ (twistRounds tk w n i l r).2 < 32 := by
  induction n generalizing i l r with
  | zero => exact ⟨hl, hr⟩
  | succ n ih => exact ih (i + 1) hr (xor_twistMix_lt tk w hl i r)

theorem untwistRounds_lt (n i : Nat) {l r : Nat} (hl : l < 32) (hr : r < 32) :
    (untwistRounds tk w n i l r).1 < 32 ∧ (untwistRounds tk w n i l r).2 < 32 := by
  induction n generalizing i with
  | zero => exact ⟨hl, hr⟩
  | succ n ih =>
    obtain ⟨hleft, hright⟩ := ih (i + 1)
    exact ⟨xor_twistMix_lt tk w hright i _, hleft⟩

theorem untwistRounds_twistRounds (n i l r : Nat) :
    untwistRounds tk w n i (twistRounds tk w n i l r).1 (twistRounds tk w n i l r).2 = (l, r) := by
  induction n generalizing i l r with
  | zero => rfl
  | succ n ih => rw [twistRounds_succ, untwistRounds_succ, ih, Nat.xor_assoc, Nat.xor_self, Nat.xor_zero]

theorem twistRounds_untwistRounds (n i l r : Nat) :
    twistRounds tk w n i (untwistRounds tk w n i l r).1 (untwistRounds tk w n i l r).2 = (l, r) := by
  induction n generalizing i with
  | zero => rfl
  | succ n ih => rw [untwistRounds_succ, twistRounds_succ, Nat.xor_assoc, Nat.xor_self, Nat.xor_zero, ih]

end Rounds

section Index

/-- A number of two halves of five bits is taken apart into them. -/
theorem halves_of_pair {l r : Nat} (hr : r < 32) : (l * 32 + r) / 32 = l ∧ (l * 32 + r) % 32 = r := by
  omega

variable (tk : BitVec 64) (w : Nat)

theorem twistIndex_lt {x : Nat} (hx : x < 1024) : twistIndex tk w x < 1024 := by
  obtain ⟨hleft, hright⟩ := twistRounds_lt tk w 4 0 (l := x / 32) (r := x % 32) (by omega) (by omega)
  rw [twistIndex]
  omega

theorem untwistIndex_lt {y : Nat} (hy : y < 1024) : untwistIndex tk w y < 1024 := by
  obtain ⟨hleft, hright⟩ := untwistRounds_lt tk w 4 0 (l := y / 32) (r := y % 32) (by omega) (by omega)
  rw [untwistIndex]
  omega

theorem untwistIndex_twistIndex {x : Nat} (hx : x < 1024) : untwistIndex tk w (twistIndex tk w x) = x := by
  obtain ⟨-, hright⟩ := twistRounds_lt tk w 4 0 (l := x / 32) (r := x % 32) (by omega) (by omega)
  obtain ⟨hdiv, hmod⟩ := halves_of_pair (l := (twistRounds tk w 4 0 (x / 32) (x % 32)).1) hright
  rw [untwistIndex, twistIndex, hdiv, hmod, untwistRounds_twistRounds]
  exact Nat.div_add_mod' x 32

theorem twistIndex_untwistIndex {y : Nat} (hy : y < 1024) : twistIndex tk w (untwistIndex tk w y) = y := by
  obtain ⟨-, hright⟩ := untwistRounds_lt tk w 4 0 (l := y / 32) (r := y % 32) (by omega) (by omega)
  obtain ⟨hdiv, hmod⟩ := halves_of_pair (l := (untwistRounds tk w 4 0 (y / 32) (y % 32)).1) hright
  rw [twistIndex, untwistIndex, hdiv, hmod, twistRounds_untwistRounds]
  exact Nat.div_add_mod' y 32

/-- The keyed permutation and its inverse name the same pairs of a line and a place. -/
theorem twistIndex_eq_iff {x y : Nat} (hx : x < 1024) (hy : y < 1024) :
    twistIndex tk w x = y ↔ x = untwistIndex tk w y :=
  ⟨fun h => h ▸ (untwistIndex_twistIndex tk w hx).symm, fun h => h ▸ twistIndex_untwistIndex tk w hy⟩

end Index

section Line

variable (tk : BitVec 64) {k w : Nat}

theorem twistLine_eq {n : Nat} (hn : n / 1024 = w) :
    twistLine tk k n =
      (twistIndex tk w (n % 1024) % k, w * (1024 / k) + twistIndex tk w (n % 1024) / k) := by
  subst hn
  rfl

/-- Lane `j` and line index `ll` of a window's footprint, taken together as one place below 1,024. -/
theorem footprintPlace_lt (hk : k ∣ 1024) {j : Nat} (hj : j < k) (ll : Nat) : j + k * (ll % (1024 / k)) < 1024 := by
  have hshare : 0 < 1024 / k := Nat.div_pos (Nat.le_of_dvd (by decide) hk) (by omega)
  calc j + k * (ll % (1024 / k)) < k * (ll % (1024 / k) + 1) := by rw [Nat.mul_add]; omega
    _ ≤ k * (1024 / k) := Nat.mul_le_mul_left k (Nat.mod_lt ll hshare)
    _ = 1024 := Nat.mul_div_cancel' hk

theorem twistLine_mem_footprint (hk : k ∣ 1024) {n : Nat} (hn : n / 1024 = w) :
    (twistLine tk k n).1 < k ∧ (twistLine tk k n).2 / (1024 / k) = w := by
  have hpos : 0 < k := Nat.pos_of_dvd_of_pos hk (by decide)
  have hy : twistIndex tk w (n % 1024) / k < 1024 / k :=
    Nat.div_lt_div_of_lt_of_dvd hk (twistIndex_lt tk w (Nat.mod_lt n (by decide)))
  rw [twistLine_eq tk hn]
  refine ⟨Nat.mod_lt _ hpos, ?_⟩
  rw [Nat.mul_comm, Nat.mul_add_div (Nat.zero_lt_of_lt hy), Nat.div_eq_of_lt hy, Nat.add_zero]

/-- Exactly one line of a window takes a given place of the window's footprint. -/
theorem twistLine_eq_iff (hk : k ∣ 1024) {j ll m : Nat} (hj : j < k) (hll : ll / (1024 / k) = w) (hm : m / 1024 = w) :
    twistLine tk k m = (j, ll) ↔ m = w * 1024 + untwistIndex tk w (j + k * (ll % (1024 / k))) := by
  have hm' : m % 1024 < 1024 := Nat.mod_lt m (by decide)
  have hll' : w * (1024 / k) + ll % (1024 / k) = ll := hll ▸ Nat.div_add_mod' ll (1024 / k)
  calc twistLine tk k m = (j, ll)
      ↔ twistIndex tk w (m % 1024) / k = ll % (1024 / k) ∧ twistIndex tk w (m % 1024) % k = j := by
        rw [twistLine_eq tk hm, Prod.mk.injEq]; omega
    _ ↔ j + k * (ll % (1024 / k)) = twistIndex tk w (m % 1024) := by
        rw [Nat.div_mod_unique (by omega), and_iff_left hj]
    _ ↔ m % 1024 = untwistIndex tk w (j + k * (ll % (1024 / k))) := by
        rw [eq_comm, twistIndex_eq_iff tk w hm' (footprintPlace_lt hk hj ll)]
    _ ↔ m = w * 1024 + untwistIndex tk w (j + k * (ll % (1024 / k))) := by omega

end Line

/-- Settles O53: the line that the inverse permutation names is the one at a given place of the footprint. -/
theorem twistFootprint : Obligations.TwistFootprint := by
  intro tk k w hk
  refine ⟨fun n hn => twistLine_mem_footprint tk hk hn, fun j ll hj hll => ?_⟩
  have hx := untwistIndex_lt tk w (footprintPlace_lt hk hj ll)
  have hwin : (w * 1024 + untwistIndex tk w (j + k * (ll % (1024 / k)))) / 1024 = w := by omega
  exact ⟨_, ⟨hwin, (twistLine_eq_iff tk hk hj hll hwin).2 rfl⟩, fun m hm h => (twistLine_eq_iff tk hk hj hll hm).1 h⟩

end Sys2Proof.Machine
end

section
/-! What is read after a change of one entry of a keyed list, and of one skein. -/

namespace Sys2Proof.Machine

/-- A key that a change names reads as changed, where it is listed. -/
@[simp] theorem amGet_amMod_same {α : Type} (k : Nat) (f : α → α) (m : List (Nat × α)) :
    amGet k (amMod k f m) = (amGet k m).map f := by
  induction m with
  | nil => rfl
  | cons e m ih =>
    obtain ⟨j, v⟩ := e
    rw [amMod, List.map_cons, ← amMod]
    by_cases hj : k = j
    · subst hj; simp [amGet]
    · simp [amGet, hj, Ne.symm hj, ih]

/-- A change of one key leaves what every other reads as. -/
theorem amGet_amMod_other {α : Type} {k j : Nat} (h : j ≠ k) (f : α → α) (m : List (Nat × α)) :
    amGet j (amMod k f m) = amGet j m := by
  induction m with
  | nil => rfl
  | cons e m ih =>
    obtain ⟨i, v⟩ := e
    rw [amMod, List.map_cons, ← amMod]
    by_cases hi : i = k
    · subst hi; simp [amGet, h, ih]
    · simp [amGet, hi, ih]

@[simp] theorem getSkein_modSkein_same (n : Nat) (f : Skein → Skein) (b : Block) :
    getSkein n (modSkein n f b) = (getSkein n b).map f :=
  amGet_amMod_same n f b.skeins

theorem getSkein_modSkein_other {n m : Nat} (h : m ≠ n) (f : Skein → Skein) (b : Block) :
    getSkein m (modSkein n f b) = getSkein m b :=
  amGet_amMod_other h f b.skeins

end Sys2Proof.Machine
end

section
/-! ATTN compares two numbers of its view, which a block reset and a new skein put at 0 (R379). -/

namespace Sys2Proof.Machine

/-- A ring that is served has a view, which reads as it was changed to. -/
theorem getView_modView_same {r : Ring} {b : Block} (h : (getRing r b).isSome = true) (f : View → View) :
    getView r (modView r f b) = f (getView r b) := by
  cases r with
  | mgr => rfl
  | skein n =>
    obtain ⟨s, hs⟩ : ∃ s, getSkein n b = some s := by simpa [getRing, Option.isSome_iff_exists] using h
    simp [getView, modView, hs]

/-- The fields below ATTN stay below bit 15, so it is the comparison alone (R377). -/
theorem View.status_attn (v : View) : v.status.getLsbD 15 = (v.aseq != v.acked) := by
  have hseq : v.aseq.toNat < 2 ^ 8 := v.aseq.isLt
  have hclass : v.aclass % 8 < 8 := Nat.mod_lt _ (by decide)
  have hlocal : b2n v.skeinLocal ≤ 1 := by cases v.skeinLocal <;> decide
  rw [View.status, BitVec.getLsbD_ofNat, Nat.testBit_eq_decide_div_mod_eq]
  cases v.aseq != v.acked
  · show decide ((0 * 32768 + _ + _ + _) / 2 ^ 15 % 2 = 1) = false
    exact decide_eq_false (by omega)
  · show decide ((1 * 32768 + _ + _ + _) / 2 ^ 15 % 2 = 1) = true
    exact decide_eq_true (by omega)

/-- A block reset leaves the manager's view as it is at reset (R379, R408). -/
theorem resetBlock_mgrView (cause : Nat) (b : Block) : (resetBlock cause b).mgrView = {} := rfl

/-- A new skein's view is as at reset (R270, R379). -/
theorem newSkein_view (d : Line) (slot : Nat) (b : Block) : (newSkein d slot b).view = {} := rfl

/-- Settles O44: ATTN is the comparison of ASEQ with the number acknowledged, and ATTN_ACK sets the latter alone. -/
theorem attentionBit : Obligations.AttentionBit := by
  refine ⟨View.status_attn, fun cause b => ?_, fun d slot b => ?_, fun v r b h => ?_⟩
  · rw [resetBlock_mgrView]; exact ⟨rfl, rfl⟩
  · rw [newSkein_view]; exact ⟨rfl, rfl⟩
  · rw [getView_modView_same h, View.status_attn]

end Sys2Proof.Machine
end

section
/-! Telemetry, the whorl array, the host ports and the records change neither the descriptors that are accepted nor the late waits:
what a release works on is changed by completions alone. -/

namespace Sys2Proof.Machine

/-- What the releases work on: the accepted descriptors and the late waits (R385 to R387). -/
def openWork (b : Block) : List Desc × List LateWait := (b.descs, b.lates)

/-- A run over a list keeps the open work where each of its steps does. -/
theorem openWork_foldl {α : Type} {f : Block → α → Block} (h : ∀ b a, openWork (f b a) = openWork b) (l : List α) (b : Block) :
    openWork (l.foldl f b) = openWork b := by
  induction l generalizing b with
  | nil => rfl
  | cons a l ih => rw [List.foldl_cons, ih, h]

/-! ### Plain updates -/

section Updates

variable (b : Block)

@[simp] theorem openWork_setTel (f : Telemetry → Telemetry) : openWork (setTel f b) = openWork b := rfl
@[simp] theorem openWork_setSpool (f : Spool → Spool) : openWork (setSpool f b) = openWork b := rfl
@[simp] theorem openWork_setMem (f : Mem → Mem) : openWork (setMem f b) = openWork b := rfl
@[simp] theorem openWork_modSkein (n : Nat) (f : Skein → Skein) : openWork (modSkein n f b) = openWork b := rfl
@[simp] theorem openWork_bumpSk (n off k : Nat) : openWork (bumpSk n off k b) = openWork b := rfl
@[simp] theorem openWork_bumpGlob (off k : Nat) : openWork (bumpGlob off k b) = openWork b := rfl
@[simp] theorem openWork_progress (n : Nat) : openWork (progress n b) = openWork b := rfl
@[simp] theorem openWork_bumpBucket (n layer operator off k : Nat) : openWork (bumpBucket n layer operator off k b) = openWork b := rfl
@[simp] theorem openWork_emit (o : Output) : openWork (emit o b) = openWork b := rfl
@[simp] theorem openWork_onArray (f : Block → Block) : openWork (onArray f b) = openWork b := rfl
@[simp] theorem openWork_modStream (h i : Nat) (f : IdeStream → IdeStream) : openWork (modStream h i f b) = openWork b := rfl
@[simp] theorem openWork_tdiFail (n : Nat) : openWork (tdiFail n b) = openWork b := rfl
@[simp] theorem openWork_setHank (h : Nat) (x : Hank) : openWork (setHank h x b) = openWork b := rfl
@[simp] theorem openWork_histPut (r : SpoolRec) : openWork (histPut r b) = openWork b := rfl
@[simp] theorem openWork_missTrigger : openWork (missTrigger b) = openWork b := rfl

@[simp] theorem openWork_modRing (r : Ring) (f : RingPair → RingPair) : openWork (modRing r f b) = openWork b := by
  cases r <;> rfl

@[simp] theorem openWork_modView (r : Ring) (f : View → View) : openWork (modView r f b) = openWork b := by
  cases r <;> rfl

@[simp] theorem openWork_setFence (o : Option Nat) (i : Nat) (f : Fence) : openWork (setFence o i f b) = openWork b := by
  cases o <;> rfl

@[simp] theorem openWork_modFence (o : Option Nat) (i : Nat) (g : Fence → Fence) : openWork (modFence o i g b) = openWork b :=
  openWork_setFence b o i _

end Updates

/-! ### Telemetry -/

section Telemetry

variable (b : Block)

@[simp] theorem openWork_flushGaps (p : Nat → Bool) : openWork (flushGaps p b) = openWork b := by
  rw [flushGaps]; split <;> simp

@[simp] theorem openWork_postAdd (r : SpoolRec) (w : Window) : openWork (postAdd r w b) = openWork b := by
  simp only [postAdd]; split <;> simp

@[simp] theorem openWork_postSkip (r : SpoolRec) (left : Nat) (w : Window) : openWork (postSkip r left w b) = openWork b := by
  simp only [postSkip]; split <;> simp

@[simp] theorem openWork_postPut (r : SpoolRec) (w : Window) : openWork (postPut r w b) = openWork b := by
  rw [postPut]; split <;> simp

@[simp] theorem openWork_histRate (ok : Bool) (r : SpoolRec) : openWork (histRate ok r b) = openWork b := by
  rw [histRate]
  split
  · simp [openWork_foldl (fun b l => openWork_histPut b _)]
  · simp

@[simp] theorem openWork_spoolPut (kind stream owner : Nat) (data : BitVec 128) :
    openWork (spoolPut kind stream owner data b) = openWork b := by
  simp only [spoolPut, setWindow]
  repeat' split
  all_goals simp

@[simp] theorem openWork_spoolEvent (stream owner cause aclass object : Nat) :
    openWork (spoolEvent stream owner cause aclass object b) = openWork b :=
  openWork_spoolPut b _ _ _ _

@[simp] theorem openWork_spoolFree (kind stream owner x y : Nat) : openWork (spoolFree kind stream owner x y b) = openWork b :=
  openWork_spoolPut b _ _ _ _

@[simp] theorem openWork_unpin : openWork (unpin b) = openWork b := by
  rw [unpin]; split <;> simp

@[simp] theorem openWork_spoolTrigger (source : Nat) : openWork (spoolTrigger source b) = openWork b := by
  simp only [spoolTrigger]
  repeat' split
  all_goals simp

@[simp] theorem openWork_sampleLevel (probe index v : Nat) : openWork (sampleLevel probe index v b) = openWork b := rfl

@[simp] theorem openWork_sampleTime (probe index : Nat) : openWork (sampleTime probe index b) = openWork b := by
  rw [sampleTime]; split <;> simp

end Telemetry

/-! ### Units of the whorl array, and transfers of the host ports -/

section Transfers

variable (b : Block)

@[simp] theorem openWork_submitUnit (slotUnit forced : Bool) (entry : BitVec 64) (keyId slot tier blocks : Nat) :
    openWork (submitUnit slotUnit forced entry keyId slot tier blocks b) = openWork b := by
  simp only [submitUnit, openWork_bumpGlob, openWork_onArray]
  split <;> split <;> simp

@[simp] theorem openWork_submit (slotUnit : Bool) (entry : BitVec 64) (keyId slot tier blocks : Nat) :
    openWork (submit slotUnit entry keyId slot tier blocks b) = openWork b :=
  openWork_submitUnit b _ _ _ _ _ _ _

@[simp] theorem openWork_submitLink (slotUnit : Bool) (entry : BitVec 64) (slot tier blocks : Nat) :
    openWork (submitLink slotUnit entry slot tier blocks b) = openWork b := by
  simp only [submitLink]
  rw [openWork_foldl fun b i => openWork_submit b _ _ _ _ _ _]
  split <;> simp

@[simp] theorem openWork_streamInsecure (h i : Nat) : openWork (streamInsecure h i b).2 = openWork b := by
  simp [streamInsecure, openWork_foldl (fun b n => openWork_tdiFail b n)]

@[simp] theorem openWork_ideSend (h i sub slot : Nat) (hdr data : Bytes) : openWork (ideSend h i sub slot hdr data b) = openWork b := by
  rw [ideSend]
  split
  · rfl
  · dsimp only; split <;> simp

@[simp] theorem openWork_countHost (n : Option Nat) (tx : Bool) (bytes : Nat) : openWork (countHost n tx bytes b) = openWork b := by
  cases n <;> simp [countHost]

@[simp] theorem openWork_hostTlp (n : Option Nat) (p : DmaPath) (read : Bool) (addr len : Nat) (data : Bytes) :
    openWork (hostTlp n p read addr len data b) = openWork b :=
  openWork_ideSend b _ _ _ _ _ _

end Transfers

/-! ### Records and events -/

section Records

variable (r : Ring) (b : Block)

@[simp] theorem openWork_putRecord (q : QRec) (forced : Bool) : openWork (putRecord r q forced b) = openWork b := by
  rw [putRecord]; split <;> simp

@[simp] theorem openWork_postUnsol (q : QRec) : openWork (postUnsol r q b).1 = openWork b := by
  rw [postUnsol]
  repeat' split
  all_goals simp

@[simp] theorem openWork_enterView (e : Event) : openWork (enterView r e b).1 = openWork b := by
  simp [enterView]

@[simp] theorem openWork_triggerOn (cls : Nat) : openWork (triggerOn cls b) = openWork b := by
  rw [triggerOn]; split <;> simp

@[simp] theorem openWork_enterOvf (e : Event) : openWork (enterOvf r e b) = openWork b := by
  simp only [enterOvf]
  split
  · cases r <;> simp
  · simp

@[simp] theorem openWork_postRecord (q : QRec) : openWork (postRecord r q b) = openWork b := by
  simp only [postRecord]
  split
  · cases r <;> simp
  · simp

end Records

/-! ### Fences, hanks and completion records -/

section Completions

variable (b : Block)

@[simp] theorem openWork_signalFence (o : Option Nat) (i v : Nat) : openWork (signalFence o i v b).2 = openWork b := by
  rw [signalFence]
  split
  · rfl
  · cases o
    · simp
    · dsimp only; repeat' split
      all_goals simp

@[simp] theorem openWork_errorFence (o : Option Nat) (i : Nat) (c : BitVec 8) : openWork (errorFence o i c b) = openWork b := by
  rw [errorFence]; split <;> simp

@[simp] theorem openWork_unrefFence (o : Option Nat) (i : Nat) : openWork (unrefFence o i b) = openWork b :=
  openWork_modFence b o i _

@[simp] theorem openWork_dropNamed (x : Desc) : openWork (dropNamed x b) = openWork b :=
  openWork_foldl (fun b (f : Option Nat × Nat) => openWork_unrefFence b f.1 f.2) _ b

@[simp] theorem openWork_settleHank (h : Nat) : openWork (settleHank h b) = openWork b := by
  simp only [settleHank]
  repeat' split
  all_goals simp

@[simp] theorem openWork_dropHanks (hs : List Nat) : openWork (dropHanks hs b) = openWork b :=
  openWork_foldl (fun b h => by rw [openWork_settleHank, openWork_setHank]) hs b

@[simp] theorem openWork_applySig (r : Ring) (d : Line) (st : BitVec 8) : openWork (applySig r d st b) = openWork b := by
  rw [applySig]
  repeat' split
  all_goals simp

@[simp] theorem openWork_writeCompletion (r : Ring) (index : BitVec 16) (d : Line) (st : BitVec 8) (res : BitVec 160) (forced : Bool) :
    openWork (writeCompletion r index d st res forced b) = openWork b := by
  rw [writeCompletion]
  split
  · simp
  · cases r
    · dsimp only; split <;> simp
    · dsimp only; split <;> split <;> simp

end Completions

end Sys2Proof.Machine
end

section
/-! The releases of a command end by themselves: each completes a descriptor that waits or reports one late wait, and none makes a
descriptor wait anew (R385 to R387). So the bound that the model puts on them is never reached, and none is left over. -/

namespace Sys2Proof.Machine

/-- Phases that a release ends, or that a later one may end. -/
def Phase.mayRelease : Phase → Bool
  | .waiting _ _ _ _ _ => true
  | .chained _ => true
  | .chainDone _ => true
  | _ => false

/-- The number of releases that a block can still bring. -/
def releasesLeft (b : Block) : Nat := b.descs.countP (·.phase.mayRelease) + b.lates.length

theorem descs_of_openWork {b c : Block} (h : openWork c = openWork b) : c.descs = b.descs :=
  congrArg Prod.fst h

theorem releasesLeft_congr {b c : Block} (h : openWork c = openWork b) : releasesLeft c = releasesLeft b := by
  obtain ⟨hd, hl⟩ := Prod.mk.inj h
  rw [releasesLeft, releasesLeft, hd, hl]

theorem releasesLeft_le (b : Block) : releasesLeft b ≤ b.descs.length + b.lates.length :=
  Nat.add_le_add_right List.countP_le_length _

/-- A test that is stricter, and refuses one element that the other accepts, accepts fewer. -/
theorem countP_lt_countP_of_imp {α : Type} {p q : α → Bool} {l : List α} (himp : ∀ a ∈ l, p a = true → q a = true) {x : α}
    (hx : x ∈ l) (hq : q x = true) (hp : p x = false) : l.countP p < l.countP q := by
  induction l with
  | nil => exact absurd hx List.not_mem_nil
  | cons a l ih =>
    have hle : l.countP p ≤ l.countP q := List.countP_mono_left fun c hc => himp c (List.mem_cons_of_mem a hc)
    rw [List.countP_cons, List.countP_cons]
    rcases List.mem_cons.mp hx with rfl | hx
    · rw [if_pos hq, if_neg (by simp [hp])]
      omega
    · have hlt := ih (fun c hc => himp c (List.mem_cons_of_mem a hc)) hx
      have ha : (if p a = true then 1 else 0) ≤ if q a = true then 1 else 0 := by
        by_cases hpa : p a = true
        · exact Nat.le_of_eq ((if_pos hpa).trans (if_pos (himp a (List.mem_cons_self ..) hpa)).symm)
        · rw [if_neg hpa]; exact Nat.zero_le _
      omega

/-! ### Completions -/

/-- A descriptor that goes takes its release with it. -/
theorem releasesLeft_dropDesc_lt {x : Desc} {b : Block} (hx : x ∈ b.descs) (hr : x.phase.mayRelease = true) :
    releasesLeft (dropDesc x.id b) < releasesLeft b := by
  rw [releasesLeft, releasesLeft, dropDesc_descs, dropDesc_lates, List.countP_filter]
  refine Nat.add_lt_add_right (countP_lt_countP_of_imp (fun y _ hy => ?_) hx hr ?_) _
  · exact (Bool.and_eq_true_iff.mp hy).1
  · simp

/-- What is left open once a descriptor goes follows from what was open before. -/
theorem openWork_dropDesc (id : Nat) (b : Block) :
    openWork (dropDesc id b) = ((openWork b).1.filter fun x => x.id != id, (openWork b).2) := rfl

/-- A descriptor whose record waits for its TDI is released no more (R249). -/
theorem releasesLeft_parked_lt {x : Desc} {b : Block} (st : BitVec 8) (res : BitVec 160) (hx : x ∈ b.descs)
    (hr : x.phase.mayRelease = true) : releasesLeft (setPhase x.id (.parked st res) b) < releasesLeft b := by
  rw [releasesLeft, releasesLeft, setPhase_descs, setPhase_lates, List.countP_map]
  refine Nat.add_lt_add_right (countP_lt_countP_of_imp (fun y _ hy => ?_) hx hr ?_) _
  · by_cases hid : y.id = x.id
    · simp [hid, Phase.mayRelease] at hy
    · simpa [hid] using hy
  · simp [Phase.mayRelease]

/-- The outcome that a FENCE_WAIT leaves to the descriptors chained to it lets them go later (R386). -/
theorem releasesLeft_noteWait (r : Ring) (id : Nat) (st : BitVec 8) (b : Block) : releasesLeft (noteWait r id st b) = releasesLeft b := by
  have hphase (x : Desc) :
      (if x.phase = .chained id then { x with phase := Phase.chainDone st } else x).phase.mayRelease = x.phase.mayRelease := by
    split
    · rename_i h; rw [h]; rfl
    · rfl
  have hring : ∀ f, releasesLeft (modRing r f b) = releasesLeft b := fun f => releasesLeft_congr (openWork_modRing b r f)
  rw [← hring]
  simp only [noteWait, releasesLeft, List.countP_map]
  congr 2
  exact funext hphase

/-- A completion of a descriptor that a release may end is one of the releases that were left. -/
theorem releasesLeft_completeF_lt {x : Desc} {b : Block} (st : BitVec 8) (res : BitVec 160) (forced : Bool) (hx : x ∈ b.descs)
    (hr : x.phase.mayRelease = true) : releasesLeft (completeF x st res forced b) < releasesLeft b := by
  have hfound : (findDesc x.id b).isNone = false := by
    simp only [findDesc, Option.isNone_eq_false_iff, List.find?_isSome]
    exact ⟨x, hx, by simp⟩
  rw [completeF, hfound, if_neg (by decide)]
  split
  · have hc : openWork (if x.phase.isParked then b else dropNamed x b) = openWork b := by split <;> simp
    exact releasesLeft_congr hc ▸ releasesLeft_parked_lt st res (descs_of_openWork hc ▸ hx) hr
  · refine lt_of_eq_of_lt ?_ (releasesLeft_dropDesc_lt hx hr)
    dsimp only
    split
    · rw [releasesLeft_noteWait]
      exact releasesLeft_congr (by simp [apply_ite openWork, openWork_dropDesc])
    · exact releasesLeft_congr (by simp [apply_ite openWork, openWork_dropDesc])

/-! ### One release -/

/-- Each release is one of those that were left. -/
theorem releasesLeft_settleOne_lt {b c : Block} (h : settleOne b = some c) : releasesLeft c < releasesLeft b := by
  rw [settleOne] at h
  split at h
  · rename_i x hfind
    have hx := List.mem_of_find?_eq_some hfind
    split at h
    · rename_i hphase
      cases h
      exact releasesLeft_completeF_lt _ _ _ hx (by rw [hphase]; rfl)
    · rename_i st hphase
      cases h
      have hc : openWork (if st = cFenceReg && dSig x.raw then errorFence (ringOwner x.ring) (dSigFence x.raw) st b else b) =
          openWork b := by split <;> simp
      rw [← releasesLeft_congr hc]
      exact releasesLeft_completeF_lt _ _ _ (descs_of_openWork hc ▸ hx) (by rw [hphase]; rfl)
    · cases h
  · split at h
    · rename_i l hfind
      have hl := List.mem_of_find?_eq_some hfind
      cases h
      have hpos : 0 < b.lates.length := List.length_pos_of_mem hl
      rw [releasesLeft_congr (openWork_postRecord ..)]
      simp only [releasesLeft, List.length_erase_of_mem hl]
      omega
    · cases h

@[simp] theorem getFence_promote (o : Option Nat) (i : Nat) (b : Block) : getFence o i (promote b) = getFence o i b := rfl

/-- Where no release is left to do, the descriptors that CHAIN let go become ready, and nothing else was let go. -/
theorem released_promote {b : Block} (h : settleOne b = none) : Released (promote b) := by
  rw [settleOne] at h
  split at h
  · rename_i x hfind
    have hdone := List.find?_some hfind
    split at h
    · cases h
    · cases h
    · exact absurd hdone (by simp_all)
  · rename_i hdescs
    split at h
    · cases h
    · rename_i hlates
      refine ⟨fun x hx => ?_, fun l hl => by simpa using List.find?_eq_none.mp hlates l hl⟩
      obtain ⟨y, hy, rfl⟩ := List.mem_map.mp hx
      have hwait := List.find?_eq_none.mp hdescs y hy
      cases hphase : y.phase with
      | waiting => simpa [hphase] using hwait
      | chainDone st =>
        have hok : st = cOK := by simpa [hphase] using hwait
        simp [hok]
      | _ => simp [hphase]

/-! ### All releases -/

/-- As many rounds as there are releases left end with none. -/
theorem settleOne_settleN {k : Nat} {b : Block} (h : releasesLeft b < k) : settleOne (settleN k b) = none := by
  induction k generalizing b with
  | zero => exact absurd h (Nat.not_lt_zero _)
  | succ k ih =>
    rw [settleN]
    split
    · rename_i c hc
      exact ih (Nat.lt_of_lt_of_le (releasesLeft_settleOne_lt hc) (Nat.le_of_lt_succ h))
    · assumption

/-- After the releases of a command nothing is left to let go: its bound covers all of them. -/
theorem released_settle (b : Block) : Released (settle b) := by
  have hle := releasesLeft_le b
  exact released_promote (settleOne_settleN (by omega))

end Sys2Proof.Machine
end

section
/-! A signal raises a fence, refuses a regression, and never reaches the top two values (R382). -/

namespace Sys2Proof.Machine

/-! ### A signal of one fence -/

namespace Fence

variable {f : Fence} {v : Nat}

theorem signal_of_error (h : f.error = true) : f.signal v = (f.code, f) := if_pos h

theorem signal_of_exhausted (h : f.error = false) (hv : fenceTop ≤ v) :
    f.signal v = (cFenceExh, { f with error := true, code := cFenceExh }) := by
  rw [signal, h, if_neg (by decide), if_pos hv]

theorem signal_of_regression (h : f.error = false) (hv : v < fenceTop) (hlt : v < f.value.toNat) :
    f.signal v = (cFenceReg, f) := by
  rw [signal, h, if_neg (by decide), if_neg (Nat.not_le.mpr hv), if_pos hlt]

theorem signal_of_le (h : f.error = false) (hv : v < fenceTop) (hle : f.value.toNat ≤ v) :
    f.signal v = (cOK, { f with value := BitVec.ofNat 64 v }) := by
  rw [signal, h, if_neg (by decide), if_neg (Nat.not_le.mpr hv), if_neg (Nat.not_lt.mpr hle)]

/-- A value below the top two fits a fence whole. -/
theorem toNat_value_of_lt (hv : v < fenceTop) : (BitVec.ofNat 64 v).toNat = v := by
  have htop : fenceTop < 2 ^ 64 := by decide
  rw [BitVec.toNat_ofNat]
  exact Nat.mod_eq_of_lt (Nat.lt_trans hv htop)

end Fence

/-! ### A signal of a fence in its set -/

/-- A change of a skein that keeps its fences keeps every fence. -/
theorem getFence_modSkein (f : Skein → Skein) (hf : ∀ s, (f s).fences = s.fences) (o : Option Nat) (i n : Nat) (b : Block) :
    getFence o i (modSkein n f b) = getFence o i b := by
  cases o with
  | none => rfl
  | some m =>
    by_cases hm : m = n
    · subst hm; simp [getFence, Function.comp_def, hf]
    · rw [getFence, getSkein_modSkein_other hm, getFence]

@[simp] theorem getFence_bumpSk (o : Option Nat) (i n off k : Nat) (b : Block) : getFence o i (bumpSk n off k b) = getFence o i b :=
  getFence_modSkein _ (by intro s; rfl) o i n b

@[simp] theorem getFence_progress (o : Option Nat) (i n : Nat) (b : Block) : getFence o i (progress n b) = getFence o i b :=
  getFence_modSkein _ (by intro s; rfl) o i n b

section Signal

variable {o : Option Nat} {b : Block} (hfrozen : frozen o b = false) (i v : Nat)

include hfrozen

/-- A signal of a set that is not frozen answers what its fence answers. -/
theorem signalFence_code : (signalFence o i v b).1 = ((getFence o i b).signal v).1 := by
  rw [signalFence, if_neg (by simp [hfrozen])]
  cases o <;> rfl

/-- A signal of a set that is not frozen leaves its fence as the fence's own signal does. -/
theorem getFence_signalFence_same (hdef : ∀ n, o = some n → (getSkein n b).isSome = true) :
    getFence o i (signalFence o i v b).2 = ((getFence o i b).signal v).2 := by
  have hset := getFence_setFence_same i ((getFence o i b).signal v).2 b hdef
  rw [signalFence, if_neg (by simp [hfrozen])]
  cases o with
  | none => exact hset
  | some n =>
    dsimp only
    split
    · rw [getFence_bumpSk]; exact hset
    · split
      · rw [getFence_progress]; exact hset
      · exact hset

end Signal

/-- A regression is counted in the skein's window, at offset 120 (R382, R458). -/
theorem ctrs_signalFence_of_regression {n i v : Nat} {b : Block} {s : Skein} (hfrozen : frozen (some n) b = false)
    (hs : getSkein n b = some s) (hreg : ((getFence (some n) i b).signal v).1 = cFenceReg) :
    (getSkein n (signalFence (some n) i v b).2).map (·.ctrs) = some (bumpAt 120 1 s.ctrs) := by
  rw [signalFence, if_neg (by simp [hfrozen])]
  dsimp only
  rw [if_pos hreg]
  simp [bumpSk, setFence, hs]

/-- A descriptor's work that succeeded completes with the code of its own signal (R382). -/
theorem finalStatus_signal {g : Ring} {d : Line} {b : Block} (hsig : dSig d = true) :
    finalStatus g d cOK b = ((getFence (ringOwner g) (dSigFence d) b).signal (dSigValue d)).1 :=
  if_pos (by simp [hsig])

/-- Settles O45: a fence of a set that is not frozen changes by `Fence.signal` alone, whose four cases are the rule's; after the
releases nothing is left to let go. -/
theorem signalRule : Obligations.SignalRule := by
  intro o i v b hfrozen hdef f r
  have hcode : r.1 = (f.signal v).1 := signalFence_code hfrozen i v
  have hfence : getFence o i r.2 = (f.signal v).2 := getFence_signalFence_same hfrozen i v hdef
  refine ⟨fun herr => ?_, fun hok htop => ?_, fun hok hv hlt => ?_, fun hok hv hle => ?_, fun t => rfl, ?_, released_settle r.2,
    fun w herr => ?_⟩
  · rw [hcode, hfence, Fence.signal_of_error herr]; exact ⟨rfl, rfl⟩
  · rw [hcode, hfence, Fence.signal_of_exhausted hok htop]; exact ⟨rfl, rfl⟩
  · have hreg := Fence.signal_of_regression hok hv hlt
    rw [hcode, hfence, hreg]
    refine ⟨rfl, rfl, fun n s ho hs => ?_⟩
    subst ho
    exact ctrs_signalFence_of_regression hfrozen hs (congrArg Prod.fst hreg)
  · rw [hcode, hfence, Fence.signal_of_le hok hv hle]
    exact ⟨rfl, rfl, Fence.toNat_value_of_lt hv⟩
  · rintro g d rfl hsig rfl rfl
    rw [finalStatus_signal hsig, hcode]
  · rw [getFence_signalFence_same hfrozen i w hdef, Fence.signal_of_error herr]
    exact herr

end Sys2Proof.Machine
end

section
/-! Every command and every idle step acts on the block alone, so a run takes the queue in order and never stops. -/

namespace Sys2Proof.Machine

/-- Settles O2: each arm of the dispatch acts on the block alone, whatever the queue. -/
theorem commandsLeaveTheQueue : Obligations.CommandsLeaveTheQueue := by
  intro c s
  cases c <;> rfl

/-- Settles O1. -/
theorem stepTakesFront : Obligations.StepTakesFront := fun _ _ _ => rfl

/-- A step of a queue that has a command takes it, and leaves the rest. -/
theorem step_cons (c : Instr) (cs : List Instr) (b : Block) :
    step { pending := c :: cs, blk := b } = .next { pending := cs, blk := effect c b } :=
  commandsLeaveTheQueue c { pending := cs, blk := b }

/-- Settles O4, by induction on the waiting commands. -/
theorem runServesTheQueueInOrder : Obligations.RunServesTheQueueInOrder := by
  intro cs rest b
  induction cs generalizing b with
  | nil => rfl
  | cons c cs ih =>
    have hstep : core.step { pending := c :: (cs ++ rest), blk := b } = .next { pending := cs ++ rest, blk := effect c b } :=
      step_cons c (cs ++ rest) b
    simpa [Host.Core.run, hstep] using ih (effect c b)

/-! ### The idle step -/

/-- What runs in a step leaves the queue as it is, and stops nothing. -/
def KeepsQueue (run : State → Out) : Prop := ∀ s, ∃ b : Block, run s = onto s b

theorem keepsQueue_onBlock (f : Block → Block) : KeepsQueue (onBlock f) := fun s => ⟨f s.blk, rfl⟩

/-- A meaning that is one command's. -/
theorem keepsQueue_of_exec (c : Instr) {run : State → Out} (h : ∀ s, run s = exec c s) : KeepsQueue run :=
  fun s => ⟨effect c s.blk, (h s).trans (commandsLeaveTheQueue c s)⟩

/-- Whatever is chosen leaves the queue as it is. -/
def AllKeepQueue (o : Option (State → Out)) : Prop := ∀ run ∈ o, KeepsQueue run

theorem allKeepQueue_none : AllKeepQueue none := fun _ h => nomatch h

theorem allKeepQueue_some {run : State → Out} (h : KeepsQueue run) : AllKeepQueue (some run) := fun _ hrun => Option.some.inj hrun ▸ h

theorem allKeepQueue_map {α : Type} {run : α → State → Out} (h : ∀ x, KeepsQueue (run x)) (o : Option α) :
    AllKeepQueue (o.map run) := by
  intro r hr
  obtain ⟨x, -, rfl⟩ := Option.map_eq_some_iff.mp hr
  exact h x

theorem allKeepQueue_orElse {o : Option (State → Out)} {p : Unit → Option (State → Out)} (ho : AllKeepQueue o)
    (hp : AllKeepQueue (p ())) : AllKeepQueue (o.orElse p) := by
  cases o with
  | none => exact hp
  | some run => exact ho

theorem allKeepQueue_ite {P : Prop} [Decidable P] {o p : Option (State → Out)} (ho : AllKeepQueue o) (hp : AllKeepQueue p) :
    AllKeepQueue (if P then o else p) := by
  split
  · exact ho
  · exact hp

/-- A timeout of the distaff, the whorls or a unit is a command's. -/
theorem allKeepQueue_dueFault (b : Block) : AllKeepQueue (dueFault b) := by
  unfold dueFault
  refine allKeepQueue_ite (allKeepQueue_some (keepsQueue_of_exec .blockResetEdge fun _ => rfl)) ?_
  refine allKeepQueue_ite (allKeepQueue_some (keepsQueue_of_exec .controllerRestartTimeout fun _ => rfl)) ?_
  refine allKeepQueue_orElse (allKeepQueue_map (fun r => keepsQueue_of_exec (.whorlHang (BitVec.ofNat 12 r.whorl)) fun _ => by rfl) _) ?_
  refine allKeepQueue_orElse (allKeepQueue_map (fun u => keepsQueue_of_exec (.whorlResetTimeout (BitVec.ofNat 12 u.index)) fun _ => by rfl) _) ?_
  refine allKeepQueue_orElse (allKeepQueue_map (fun e => keepsQueue_of_exec (.spindleHang (BitVec.ofNat 6 e.1)) fun _ => by rfl) _) ?_
  refine allKeepQueue_orElse (allKeepQueue_map (fun u => keepsQueue_of_exec (.spindleResetTimeout (BitVec.ofNat 6 u.index)) fun _ => by rfl) _) ?_
  exact allKeepQueue_map (fun e => keepsQueue_of_exec (.unitHang (BitVec.ofNat 8 e.1)) fun _ => by rfl) _

/-- A limit of a descriptor or a skein is a command's. -/
theorem allKeepQueue_dueSkein (b : Block) : AllKeepQueue (dueSkein b) := by
  unfold dueSkein
  refine allKeepQueue_orElse (allKeepQueue_map (fun x => keepsQueue_of_exec (.fenceWaitTimeout x.ring x.index) fun _ => by rfl) _) ?_
  refine allKeepQueue_orElse (allKeepQueue_map (fun e => keepsQueue_of_exec (.quiesceLimitExpiry (BitVec.ofNat 10 e.1)) fun _ => by rfl) _) ?_
  refine allKeepQueue_orElse (allKeepQueue_map (fun e => keepsQueue_of_exec (.drainLimitExpiry (BitVec.ofNat 10 e.1) []) fun _ => by rfl) _) ?_
  refine allKeepQueue_orElse (allKeepQueue_map (fun e => keepsQueue_of_exec (.skeinResetTimeout (BitVec.ofNat 10 e.1) []) fun _ => by rfl) _) ?_
  refine allKeepQueue_orElse (allKeepQueue_map (fun p => keepsQueue_of_exec (.packageOpTimeout p.index []) fun _ => by rfl) _) ?_
  exact allKeepQueue_map (fun e => keepsQueue_of_exec (.tpkPendingExpiry (BitVec.ofNat 10 e.1)) fun _ => by rfl) _

/-- A timeout of a link or of a request to a peer is a command's. -/
theorem allKeepQueue_dueLink (b : Block) : AllKeepQueue (dueLink b) := by
  unfold dueLink
  refine allKeepQueue_orElse (allKeepQueue_map (fun r => keepsQueue_of_exec (.requestTimeout (BitVec.ofNat 64 r.id)) fun _ => by rfl) _) ?_
  refine allKeepQueue_orElse (allKeepQueue_map (fun e => keepsQueue_of_exec (.openTimeout (BitVec.ofNat 12 e.1)) fun _ => by rfl) _) ?_
  refine allKeepQueue_orElse (allKeepQueue_map (fun e => keepsQueue_of_exec (.sessionLoss (BitVec.ofNat 12 e.1)) fun _ => by rfl) _) ?_
  refine allKeepQueue_orElse (allKeepQueue_map (fun e => keepsQueue_of_exec (.sessionIdle (BitVec.ofNat 12 e.1)) fun _ => by rfl) _) ?_
  refine allKeepQueue_orElse (allKeepQueue_map (fun e => keepsQueue_of_exec (.secretClose (BitVec.ofNat 12 e.1)) fun _ => by rfl) _) ?_
  exact allKeepQueue_map (fun e => keepsQueue_of_exec (.federationPortLoss (BitVec.ofNat 8 e.1)) fun _ => by rfl) _

/-- A limit of time, memory or telemetry is a command's. -/
theorem allKeepQueue_dueTime (b : Block) : AllKeepQueue (dueTime b) := by
  unfold dueTime
  refine allKeepQueue_ite (allKeepQueue_some (keepsQueue_of_exec .ppsLost fun _ => rfl)) ?_
  refine allKeepQueue_ite (allKeepQueue_some (keepsQueue_of_exec .strobeMissing fun _ => rfl)) ?_
  refine allKeepQueue_ite (allKeepQueue_some (keepsQueue_of_exec .spoolWindowClose fun _ => rfl)) ?_
  refine allKeepQueue_ite (allKeepQueue_some (keepsQueue_of_exec .dumpSlotErase fun _ => rfl)) ?_
  refine allKeepQueue_ite (allKeepQueue_some (keepsQueue_of_exec .drbgReseed fun _ => rfl)) ?_
  exact allKeepQueue_map (fun e => keepsQueue_of_exec (.absorberWindowClose (BitVec.ofNat 52 e.line) []) fun _ => by rfl) _

theorem allKeepQueue_overdue (b : Block) : AllKeepQueue (overdue b) :=
  allKeepQueue_ite allKeepQueue_none <| allKeepQueue_orElse (allKeepQueue_dueFault _) <|
    allKeepQueue_orElse (allKeepQueue_dueSkein _) <| allKeepQueue_orElse (allKeepQueue_dueLink _) (allKeepQueue_dueTime _)

/-- A held management command that is served leaves the queue as it is. -/
theorem serveAt_keepsQueue {i : Nat} {s : State} {o : Out} (h : serveAt i s = some o) : ∃ b : Block, o = onto s b := by
  unfold serveAt at h
  split at h
  · cases h
  · next c _ =>
    simp only [commandsLeaveTheQueue c.cmd, onto] at h
    split at h
    · exact ⟨_, (Option.some.inj h).symm⟩
    · cases h

theorem keepsQueue_idle : KeepsQueue idle := by
  intro s
  unfold idle
  split
  · next o ho =>
    split at ho
    · cases ho
    · obtain ⟨i, -, hi⟩ := List.exists_of_findSome?_eq_some ho
      exact serveAt_keepsQueue hi
  · split
    · next run hrun => exact allKeepQueue_overdue _ run hrun s
    · exact keepsQueue_onBlock idleBlock s

theorem keepsQueue_step_nil (b : Block) : ∃ c : Block, step { pending := [], blk := b } = .next { pending := [], blk := c } :=
  keepsQueue_idle { pending := [], blk := b }

/-- Settles O3. -/
theorem idleStepsComplete : Obligations.IdleStepsComplete := keepsQueue_step_nil

/-- Settles O5: a step takes the first command, if there is one, and adds none. -/
theorem queueStaysWellFormed : Obligations.QueueStaysWellFormed := by
  rintro ⟨queue, b⟩ t ht
  have htail : t.pending = queue.tail := by
    cases queue with
    | nil =>
      obtain ⟨c, hc⟩ := idleStepsComplete b
      cases ht.symm.trans hc
      rfl
    | cons c cs =>
      cases ht.symm.trans (step_cons c cs b)
      rfl
  refine ⟨htail, fun hwf => ?_⟩
  simp only [State.queueWf, List.all_eq_true] at hwf ⊢
  exact fun c hc => hwf c (List.mem_of_mem_tail (htail ▸ hc))

/-- Settles O6. -/
theorem resetIsWellFormed : Obligations.ResetIsWellFormed := ⟨rfl, rfl, rfl⟩

/-- Settles O7: each register is read from the literal state after reset. -/
theorem resetRegisters : Obligations.ResetRegisters := by
  unfold Obligations.ResetRegisters
  refine ⟨?_, ?_, ?_, ?_, ?_, ?_, ?_, ?_, ?_, ?_, ?_, ?_, ?_, ?_⟩ <;> decide

/-- Settles O46, by the law that `released_settle` states. -/
theorem settleReleasesEveryWaiter : Obligations.SettleReleasesEveryWaiter := released_settle

end Sys2Proof.Machine
end

section
/-! What records and attention events change, said once for every property that they keep: telemetry, ring pairs, views, counters, what
is presented at the ports, units of the whorl array, streams of the host ports and the TDIs bound to them (R242, R248, R373, R378). -/

namespace Sys2Proof.Machine

/-- A property of the block that every plain update of records and attention events keeps. -/
structure KeptByEvents (P : Block → Prop) : Prop where
  tel : ∀ f {b}, P b → P (setTel f b)
  ring : ∀ r f {b}, P b → P (modRing r f b)
  view : ∀ r f {b}, P b → P (modView r f b)
  ctrs : ∀ n off k {b}, P b → P (bumpSk n off k b)
  glob : ∀ off k {b}, P b → P (bumpGlob off k b)
  missed : ∀ {b}, P b → P (missTrigger b)
  emit : ∀ o {b}, P b → P (emit o b)
  array : ∀ f {b}, P b → P (onArray f b)
  unitId : ∀ {b}, P b → P (setMem (fun m => { m with nextId := m.nextId + 1 }) b)
  stream : ∀ h i f {b}, P b → P (modStream h i f b)
  tdi : ∀ n {b}, P b → P (tdiFail n b)

theorem ite_keeps {P : Block → Prop} {p : Prop} [Decidable p] {b c : Block} (hb : P b) (hc : P c) : P (if p then b else c) := by
  split
  · exact hb
  · exact hc

/-- A run over a list keeps what each of its steps keeps. -/
theorem foldl_keeps {α : Type} {P : Block → Prop} {f : Block → α → Block} (h : ∀ a b, P b → P (f b a)) (l : List α) {b : Block}
    (hb : P b) : P (l.foldl f b) := by
  induction l generalizing b with
  | nil => exact hb
  | cons a l ih => exact ih (h a _ hb)

namespace KeptByEvents

variable {P : Block → Prop} (h : KeptByEvents P) {b : Block}
include h

/-! ### Telemetry -/

theorem spool (f : Spool → Spool) (hb : P b) : P (setSpool f b) := h.tel _ hb

theorem window (f : Window → Window) (hb : P b) : P (setWindow f b) := h.spool _ hb

theorem histPut (r : SpoolRec) (hb : P b) : P (histPut r b) := by
  unfold Machine.histPut
  exact h.spool _ hb

theorem flushGaps (p : Nat → Bool) (hb : P b) : P (flushGaps p b) := by
  unfold Machine.flushGaps
  split
  · exact hb
  · exact h.spool _ hb

theorem postAdd (r : SpoolRec) (w : Window) (hb : P b) : P (postAdd r w b) := by
  simp only [Machine.postAdd]
  split
  · exact h.flushGaps _ (h.spool _ hb)
  · exact h.spool _ hb

theorem postSkip (r : SpoolRec) (left : Nat) (w : Window) (hb : P b) : P (postSkip r left w b) := by
  simp only [Machine.postSkip]
  split
  · exact h.flushGaps _ (h.spool _ hb)
  · exact h.spool _ hb

theorem postPut (r : SpoolRec) (w : Window) (hb : P b) : P (postPut r w b) := by
  rw [Machine.postPut]
  split
  · exact h.postAdd _ _ hb
  · exact h.postSkip _ _ _ hb

theorem histRate (ok : Bool) (r : SpoolRec) (hb : P b) : P (histRate ok r b) := by
  unfold Machine.histRate
  split
  · refine h.histPut _ (h.spool _ (foldl_keeps ?_ _ hb))
    exact fun _ _ => h.histPut _
  · exact h.spool _ hb

theorem spoolPut (kind stream owner : Nat) (data : BitVec 128) (hb : P b) : P (spoolPut kind stream owner data b) := by
  simp only [Machine.spoolPut]
  split
  · exact hb
  · split
    · split
      · exact h.histRate _ _ (h.spool _ hb)
      · refine ite_keeps ?_ ?_
        · exact h.postPut _ _ (h.spool _ hb)
        · exact h.window _ (h.spool _ hb)
    · exact h.histRate _ _ (h.spool _ hb)

theorem spoolEvent (stream owner cause aclass object : Nat) (hb : P b) : P (spoolEvent stream owner cause aclass object b) :=
  h.spoolPut _ _ _ _ hb

theorem spoolFree (kind stream owner x y : Nat) (hb : P b) : P (spoolFree kind stream owner x y b) := h.spoolPut _ _ _ _ hb

theorem unpin (hb : P b) : P (unpin b) := by
  unfold Machine.unpin
  split
  · exact hb
  · exact h.spool _ hb

theorem spoolTrigger (source : Nat) (hb : P b) : P (spoolTrigger source b) := by
  have hfreed : P (match b.tel.spool.window with | some w => if windowStuck w b then Machine.unpin b else b | none => b) := by
    split
    · split
      · exact h.unpin hb
      · exact hb
    · exact hb
  simp only [Machine.spoolTrigger]
  split
  · split
    · exact h.histPut _ (h.missed hfreed)
    · exact h.postAdd _ _ (h.missed hfreed)
  · exact h.spool _ hfreed

theorem sampleLevel (probe index v : Nat) (hb : P b) : P (sampleLevel probe index v b) := h.tel _ hb

theorem sampleTime (probe index : Nat) (hb : P b) : P (sampleTime probe index b) := by
  unfold Machine.sampleTime
  split
  · exact h.sampleLevel _ _ _ (h.tel _ hb)
  · exact hb

/-! ### Units of the whorl array, and transfers of the host ports -/

theorem submitUnit (slotUnit forced : Bool) (entry : BitVec 64) (keyId slot tier blocks : Nat) (hb : P b) :
    P (submitUnit slotUnit forced entry keyId slot tier blocks b) := by
  have hlevel : ∀ {c}, P c → P (match targetSpindle slotUnit keyId slot c with
      | some sp => Machine.sampleLevel 0x12 sp (queueOf sp c).length c
      | none => c) := by
    intro c hc
    split
    · exact h.sampleLevel _ _ _ hc
    · exact hc
  simp only [Machine.submitUnit]
  refine h.glob _ _ (h.array _ ?_)
  split
  · exact h.sampleTime _ _ (hlevel (h.unitId hb))
  · exact hlevel (h.unitId hb)

theorem submit (slotUnit : Bool) (entry : BitVec 64) (keyId slot tier blocks : Nat) (hb : P b) :
    P (submit slotUnit entry keyId slot tier blocks b) := h.submitUnit _ _ _ _ _ _ _ hb

theorem submitLink (slotUnit : Bool) (entry : BitVec 64) (slot tier blocks : Nat) (hb : P b) :
    P (submitLink slotUnit entry slot tier blocks b) := by
  simp only [Machine.submitLink]
  refine foldl_keeps ?_ _ ?_
  · exact fun _ _ => h.submit _ _ _ _ _ _
  · split
    · exact h.ctrs _ _ _ hb
    · exact hb

theorem streamInsecure (i j : Nat) (hb : P b) : P (streamInsecure i j b).2 :=
  foldl_keeps (fun n _ => h.tdi n) _ (h.stream _ _ _ hb)

theorem ideSend (i j sub slot : Nat) (hdr data : Bytes) (hb : P b) : P (ideSend i j sub slot hdr data b) := by
  unfold Machine.ideSend
  split
  · exact hb
  · have hsent := fun o e t k => h.emit o (h.submitLink false e slot t k hb)
    dsimp only
    split
    · exact h.streamInsecure _ _ (hsent _ _ _ _)
    · exact h.stream _ _ _ (hsent _ _ _ _)

theorem countHost (n : Option Nat) (tx : Bool) (bytes : Nat) (hb : P b) : P (countHost n tx bytes b) := by
  cases n with
  | none => exact h.glob _ _ hb
  | some n => exact h.ctrs _ _ _ (h.glob _ _ hb)

theorem hostTlp (n : Option Nat) (p : DmaPath) (read : Bool) (addr len : Nat) (data : Bytes) (hb : P b) :
    P (hostTlp n p read addr len data b) := h.ideSend _ _ _ _ _ _ hb

theorem readHost (n : Option Nat) (addr len : Nat) (hb : P b) : P (readHost n addr len b) := by
  unfold Machine.readHost
  split
  · exact hb
  · exact h.hostTlp _ _ _ _ _ _ (h.countHost _ _ _ (h.emit _ hb))

/-! ### Records and attention events -/

theorem putRecord (r : Ring) (q : QRec) (forced : Bool) (hb : P b) : P (putRecord r q forced b) := by
  unfold Machine.putRecord
  split
  · exact hb
  · exact h.emit _ (h.ring _ _ (h.hostTlp _ _ _ _ _ _ (h.countHost _ _ _ hb)))

theorem postUnsol (r : Ring) (q : QRec) (hb : P b) : P (postUnsol r q b).1 := by
  unfold Machine.postUnsol
  split
  · exact hb
  · split
    · exact hb
    · split
      · dsimp only; exact h.ring _ _ hb
      · split
        · exact h.putRecord _ _ _ hb
        · split <;> (dsimp only; exact h.ring _ _ hb)

theorem flushQueued (k : Nat) (r : Ring) (hb : P b) : P (flushQueued k r b) := by
  induction k generalizing b with
  | zero => exact hb
  | succ k ih =>
    unfold Machine.flushQueued
    split
    · exact hb
    · split
      · exact hb
      · split
        · exact hb
        · exact ih (h.putRecord _ _ _ (h.ring _ _ hb))

theorem enterView (r : Ring) (e : Event) (hb : P b) : P (enterView r e b).1 :=
  h.postUnsol _ _ (h.spoolEvent _ _ _ _ _ (h.view _ _ hb))

theorem triggerOn (cls : Nat) (hb : P b) : P (triggerOn cls b) := by
  unfold Machine.triggerOn
  split
  · exact h.spoolTrigger _ hb
  · exact hb

theorem enterOvf (r : Ring) (e : Event) (hb : P b) : P (enterOvf r e b) := by
  have hentered := h.enterView r e hb
  simp only [Machine.enterOvf]
  split
  · cases r with
    | mgr => exact h.triggerOn _ (h.enterView _ _ hentered)
    | skein n => exact h.triggerOn _ (h.enterView _ _ (h.enterView _ _ hentered))
  · exact hentered

theorem postRecord (r : Ring) (q : QRec) (hb : P b) : P (postRecord r q b) := by
  have hposted := h.postUnsol r q hb
  simp only [Machine.postRecord]
  split
  · cases r with
    | mgr => exact h.triggerOn _ (h.enterOvf _ _ hposted)
    | skein n => exact h.triggerOn _ (h.enterOvf _ _ (h.enterOvf _ _ hposted))
  · exact hposted

theorem raiseViews (e : Event) (hb : P b) : P (raiseViews e b) := by
  refine h.triggerOn _ ?_
  split
  · exact h.enterOvf _ _ hb
  · split
    · dsimp only
      split
      · exact h.enterOvf _ _ (h.enterOvf _ _ hb)
      · exact h.enterOvf _ _ hb
    · refine foldl_keeps ?_ _ (h.enterOvf _ _ hb)
      exact fun _ _ => h.enterOvf _ _

end KeptByEvents

/-! ### Completions and releases -/

/-- A property that the plain updates of completions and releases keep too: those of descriptors, fences, holds of hanks, and the
counts of progress (R367, R382 to R390). -/
structure KeptByReplies (P : Block → Prop) : Prop extends KeptByEvents P where
  descs : ∀ ds {b}, P b → P { b with descs := ds }
  lates : ∀ ls {b}, P b → P { b with lates := ls }
  signal : ∀ o i v {b}, P b → P (signalFence o i v b).2
  error : ∀ o i c {b}, P b → P (errorFence o i c b)
  unref : ∀ o i {b}, P b → P (unrefFence o i b)
  hank : ∀ k x {b}, x.skein = (getHank k b).skein → x.cls = (getHank k b).cls → x.keyId = (getHank k b).keyId →
    x.step = (getHank k b).step → P b → P (setHank k x b)
  zorder : ∀ {b}, P b → P (setMem (fun m => { m with zorder := m.zorder + 1 }) b)
  completed : ∀ n {b}, P b → P (modSkein n (fun s => { s with counts := { s.counts with completed := s.counts.completed + 1 } }) b)
  progress : ∀ n {b}, P b → P (progress n b)
  bucket : ∀ n layer operator off k {b}, P b → P (bumpBucket n layer operator off k b)

namespace KeptByReplies

variable {P : Block → Prop} (h : KeptByReplies P) {b : Block}
include h

theorem settleHank (k : Nat) (hb : P b) : P (settleHank k b) := by
  have hmark := h.zorder hb
  simp only [Machine.settleHank]
  split
  · exact hb
  · split
    · split
      · exact h.hank _ _ rfl rfl rfl rfl hmark
      · split <;> exact h.hank _ _ rfl rfl rfl rfl hmark
    · exact hb

theorem dropHanks (ks : List Nat) (hb : P b) : P (dropHanks ks b) := by
  refine foldl_keeps ?_ ks hb
  exact fun k _ hc => h.settleHank k (h.hank k _ rfl rfl rfl rfl hc)

theorem dropNamed (x : Desc) (hb : P b) : P (dropNamed x b) := by
  refine foldl_keeps ?_ _ hb
  exact fun f _ => h.unref f.1 f.2

theorem applySig (r : Ring) (d : Line) (st : BitVec 8) (hb : P b) : P (applySig r d st b) := by
  unfold Machine.applySig
  split
  · exact hb
  · split
    · exact h.signal _ _ _ hb
    · exact h.error _ _ _ hb

theorem writeCompletion (r : Ring) (index : BitVec 16) (d : Line) (st : BitVec 8) (res : BitVec 160) (forced : Bool) (hb : P b) :
    P (writeCompletion r index d st res forced b) := by
  unfold Machine.writeCompletion
  split
  · exact h.completed _ (h.ring _ _ hb)
  · have hrecord := fun f q x y => h.spoolFree 1 7 (ownerOf (ringOwner r)) x y (h.putRecord r q forced (h.ring r f hb))
    have hsig : ∀ {c}, P c → P (if st = cOK && finalStatus r d st b = cFenceReg then
        (signalFence (ringOwner r) (dSigFence d) (dSigValue d) c).2 else Machine.applySig r d (finalStatus r d st b) c) := by
      intro c hc
      split
      · exact h.signal _ _ _ hc
      · exact h.applySig _ _ _ hc
    cases r with
    | mgr => exact hsig (hrecord _ _ _ _)
    | skein n =>
      refine h.progress _ (h.bucket _ _ _ _ _ (h.ctrs _ _ _ ?_))
      split
      · exact h.ctrs _ _ _ (hsig (hrecord _ _ _ _))
      · exact hsig (hrecord _ _ _ _)

theorem noteWait (r : Ring) (id : Nat) (st : BitVec 8) (hb : P b) : P (noteWait r id st b) := h.descs _ (h.ring _ _ hb)

theorem setPhase (id : Nat) (p : Phase) (hb : P b) : P (setPhase id p b) := h.descs _ hb

theorem dropDesc (id : Nat) (hb : P b) : P (dropDesc id b) := h.descs _ hb

theorem completeF (x : Desc) (st : BitVec 8) (res : BitVec 160) (forced : Bool) (hb : P b) : P (completeF x st res forced b) := by
  have hnamed : ∀ {c}, P c → P (if x.phase.isParked then c else Machine.dropNamed x c) := by
    intro c hc
    split
    · exact hc
    · exact h.dropNamed _ hc
  have hrefs : ∀ {c}, P c → P (if dSig x.raw then unrefFence (ringOwner x.ring) (dSigFence x.raw) c else c) := by
    intro c hc
    split
    · exact h.unref _ _ hc
    · exact hc
  unfold Machine.completeF
  split
  · exact hb
  · split
    · exact h.setPhase _ _ (hnamed hb)
    · have hdone := fun p i => h.writeCompletion x.ring x.index x.raw st res forced
        (hnamed (hrefs (h.dropHanks x.uses (h.dropDesc x.id (h.sampleTime p i hb)))))
      dsimp only
      split
      · exact h.noteWait _ _ _ (hdone _ _)
      · exact hdone _ _

/-- One release keeps the property. -/
theorem settleOne {c : Block} (hc : settleOne b = some c) (hb : P b) : P c := by
  rw [Machine.settleOne] at hc
  split at hc
  · split at hc
    · cases hc
      exact h.completeF _ _ _ _ hb
    · cases hc
      refine h.completeF _ _ _ _ ?_
      split
      · exact h.error _ _ _ hb
      · exact hb
    · cases hc
  · split at hc
    · cases hc
      exact h.postRecord _ _ (h.lates _ hb)
    · cases hc

theorem settleN (k : Nat) (hb : P b) : P (settleN k b) := by
  induction k generalizing b with
  | zero => exact hb
  | succ k ih =>
    unfold Machine.settleN
    split
    · next c hc => exact ih (h.settleOne hc hb)
    · exact hb

theorem settle (hb : P b) : P (settle b) := h.descs _ (h.settleN _ hb)

end KeptByReplies

end Sys2Proof.Machine
end

section
/-! What completions, releases and attention events leave alone, and that they never lower a fence (R367, R382, R383). -/

namespace Sys2Proof.Machine

/-! ### The rest of the block -/

/-- The block `c` differs from `b` in what replies change alone. -/
def RestAs (b c : Block) : Prop := beyondReplies c = beyondReplies b ∧ ∀ h, hankOwner h c = hankOwner h b

/-- A change of a skein that keeps all but its replies' part keeps the rest of the block. -/
theorem beyondReplies_modSkein {f : Skein → Skein} (hf : ∀ s, skeinRest (f s) = skeinRest s) (n : Nat) (b : Block) :
    beyondReplies (modSkein n f b) = beyondReplies b := by
  have hskeins : (amMod n f b.skeins).map (fun e => (e.1, skeinRest e.2)) = b.skeins.map fun e => (e.1, skeinRest e.2) := by
    simp only [amMod, List.map_map]
    refine List.map_congr_left fun e _ => ?_
    by_cases he : e.1 = n <;> simp [he, hf]
  simp [beyondReplies, modSkein, hskeins]

section
variable {b c : Block} (hc : RestAs b c)
include hc

theorem RestAs.modSkein {f : Skein → Skein} (hf : ∀ s, skeinRest (f s) = skeinRest s) (n : Nat) : RestAs b (modSkein n f c) :=
  ⟨(beyondReplies_modSkein hf n c).trans hc.1, hc.2⟩

theorem RestAs.modRing (r : Ring) (f : RingPair → RingPair) : RestAs b (modRing r f c) := by
  cases r with
  | mgr => exact hc
  | skein n => exact hc.modSkein (fun _ => by rfl) n

theorem RestAs.modView (r : Ring) (f : View → View) : RestAs b (modView r f c) := by
  cases r with
  | mgr => exact hc
  | skein n => exact hc.modSkein (fun _ => by rfl) n

theorem RestAs.setFence (o : Option Nat) (i : Nat) (f : Fence) : RestAs b (setFence o i f c) := by
  cases o with
  | none => exact hc
  | some n => exact hc.modSkein (fun _ => by rfl) n

theorem RestAs.bumpSk (n off k : Nat) : RestAs b (bumpSk n off k c) := hc.modSkein (fun _ => by rfl) n

theorem RestAs.progress (n : Nat) : RestAs b (progress n c) := hc.modSkein (fun _ => by rfl) n

theorem RestAs.signalFence (o : Option Nat) (i v : Nat) : RestAs b (signalFence o i v c).2 := by
  unfold Machine.signalFence
  split
  · exact hc
  · have hset := hc.setFence o i
    cases o with
    | none => exact hset _
    | some n =>
      dsimp only
      split
      · exact (hset _).bumpSk n 120 1
      · split
        · exact (hset _).progress n
        · exact hset _

theorem RestAs.errorFence (o : Option Nat) (i : Nat) (st : BitVec 8) : RestAs b (errorFence o i st c) := by
  unfold Machine.errorFence
  split
  · exact hc
  · exact hc.setFence _ _ _

/-- A hank that keeps its owner, class, key and step. -/
theorem RestAs.setHank {k : Nat} {x : Hank} (hs : x.skein = (getHank k c).skein) (hcls : x.cls = (getHank k c).cls)
    (hkey : x.keyId = (getHank k c).keyId) (hstep : x.step = (getHank k c).step) : RestAs b (setHank k x c) := by
  refine ⟨hc.1, fun h => ?_⟩
  rw [← hc.2]
  by_cases hk : h = k
  · subst hk
    simp [hankOwner, getHank, Machine.setHank] at hs hcls hkey hstep ⊢
    simp [hs, hcls, hkey, hstep]
  · simp [hankOwner, getHank, Machine.setHank, amGetD_amPut_other _ hk]

end

theorem skeinRest_tdi (s : Skein) : skeinRest (if s.tdi.held then { s with tdi := { s.tdi with st := .error } } else s) = skeinRest s := by
  split <;> rfl

theorem skeinRest_bucket (layer operator off k : Nat) (s : Skein) : skeinRest (match bucketOf s layer operator with
    | none => s
    | some i => { s with buckets := bumpAt (64 * i + off) k s.buckets }) = skeinRest s := by
  split <;> rfl

/-- Every reply leaves the rest of the block. -/
theorem keptByReplies_restAs (b : Block) : KeptByReplies (RestAs b) where
  tel _ _ h := h
  ring r f _ h := h.modRing r f
  view r f _ h := h.modView r f
  ctrs n off k _ h := h.bumpSk n off k
  glob _ _ _ h := h
  missed h := h
  emit _ _ h := h
  array _ _ h := h
  unitId h := h
  stream _ _ _ _ h := h
  tdi n _ h := h.modSkein skeinRest_tdi n
  descs _ _ h := h
  lates _ _ h := h
  signal o i v _ h := h.signalFence o i v
  error o i st _ h := h.errorFence o i st
  unref _ _ _ h := h.setFence _ _ _
  hank _ _ _ hs hcls hkey hstep h := h.setHank hs hcls hkey hstep
  zorder h := h
  completed n _ h := h.modSkein (fun _ => by rfl) n
  progress n _ h := h.progress n
  bucket n layer operator off k _ h := h.modSkein (skeinRest_bucket layer operator off k) n

theorem RestAs.refl (b : Block) : RestAs b b := ⟨rfl, fun _ => rfl⟩

/-- Settles O48, by the frame of each reply. -/
theorem repliesLeaveTheRest : Obligations.RepliesLeaveTheRest := fun b =>
  have h := keptByReplies_restAs b
  ⟨h.settle (.refl b), fun x st res forced => h.completeF x st res forced (.refl b), fun e => h.raiseViews e (.refl b)⟩

/-! ### Fences -/

/-- What a fence may become: its VALUE never lower, and in error exactly as it was in error (R382, R383). -/
def Fence.Risen (f g : Fence) : Prop :=
  f.value.toNat ≤ g.value.toNat ∧ (f.error = true → g.error = true ∧ g.code = f.code ∧ g.value = f.value)

theorem Fence.Risen.refl (f : Fence) : f.Risen f := ⟨Nat.le_refl _, fun h => ⟨h, rfl, rfl⟩⟩

theorem Fence.Risen.trans {f g k : Fence} (hfg : f.Risen g) (hgk : g.Risen k) : f.Risen k := by
  refine ⟨Nat.le_trans hfg.1 hgk.1, fun h => ?_⟩
  obtain ⟨herr, hcode, hval⟩ := hfg.2 h
  obtain ⟨herr', hcode', hval'⟩ := hgk.2 herr
  exact ⟨herr', hcode'.trans hcode, hval'.trans hval⟩

theorem Fence.risen_signal (f : Fence) (v : Nat) : f.Risen (f.signal v).2 := by
  unfold Fence.signal
  split
  · exact .refl f
  · next herr =>
    split
    · exact ⟨Nat.le_refl _, fun h => absurd h herr⟩
    · split
      · exact .refl f
      · next htop hlt =>
        refine ⟨?_, fun h => absurd h herr⟩
        have hv : v < 2 ^ 64 := by unfold fenceTop at htop; omega
        simp only [BitVec.toNat_ofNat, Nat.mod_eq_of_lt hv]
        omega

/-- What a fence of a set reads as after a change of one: the change where it is this one, and else what it was. -/
theorem getFence_setFence_cases (o : Option Nat) (i : Nat) (p : Option Nat) (j : Nat) (f : Fence) (b : Block) :
    getFence o i (setFence p j f b) = getFence o i b ∨ (p = o ∧ j = i ∧ getFence o i (setFence p j f b) = f) := by
  by_cases hij : i = j
  · subst hij
    cases p with
    | none =>
      cases o with
      | none => exact .inr ⟨rfl, rfl, by simp [getFence, setFence]⟩
      | some n => exact .inl rfl
    | some m =>
      cases o with
      | none => exact .inl rfl
      | some n =>
        by_cases hn : n = m
        · subst hn
          cases hs : getSkein n b with
          | none => exact .inl (by simp [getFence, setFence, hs])
          | some s => exact .inr ⟨rfl, rfl, by simp [getFence, setFence, hs]⟩
        · exact .inl (by simp [getFence, setFence, getSkein_modSkein_other hn])
  · left
    cases p with
    | none =>
      cases o with
      | none => simp [getFence, setFence, amGetD_amPut_other _ hij]
      | some n => rfl
    | some m =>
      cases o with
      | none => rfl
      | some n =>
        by_cases hn : n = m
        · subst hn
          cases hs : getSkein n b with
          | none => simp [getFence, setFence, hs]
          | some s => simp [getFence, setFence, hs, amGetD_amPut_other _ hij]
        · simp [getFence, setFence, getSkein_modSkein_other hn]

/-- A change of one fence that lets it rise lets every fence rise. -/
theorem risen_setFence (o : Option Nat) (i : Nat) {p : Option Nat} {j : Nat} {f : Fence} {b : Block} (hf : (getFence p j b).Risen f) :
    (getFence o i b).Risen (getFence o i (setFence p j f b)) := by
  rcases getFence_setFence_cases o i p j f b with h | ⟨rfl, rfl, h⟩
  · rw [h]; exact .refl _
  · rw [h]; exact hf

@[simp] theorem getFence_modRing (o : Option Nat) (i : Nat) (r : Ring) (f : RingPair → RingPair) (b : Block) :
    getFence o i (modRing r f b) = getFence o i b := by
  cases r with
  | mgr => cases o <;> rfl
  | skein n => exact getFence_modSkein _ (fun _ => by rfl) o i n b

@[simp] theorem getFence_modView (o : Option Nat) (i : Nat) (r : Ring) (f : View → View) (b : Block) :
    getFence o i (modView r f b) = getFence o i b := by
  cases r with
  | mgr => cases o <;> rfl
  | skein n => exact getFence_modSkein _ (fun _ => by rfl) o i n b

@[simp] theorem getFence_tdiFail (o : Option Nat) (i n : Nat) (b : Block) : getFence o i (tdiFail n b) = getFence o i b :=
  getFence_modSkein _ (fun s => by split <;> rfl) o i n b

@[simp] theorem getFence_bumpBucket (o : Option Nat) (i n layer operator off k : Nat) (b : Block) :
    getFence o i (bumpBucket n layer operator off k b) = getFence o i b :=
  getFence_modSkein _ (fun s => by split <;> rfl) o i n b

theorem risen_signalFence (o : Option Nat) (i : Nat) (p : Option Nat) (j v : Nat) (b : Block) :
    (getFence o i b).Risen (getFence o i (signalFence p j v b).2) := by
  unfold signalFence
  split
  · exact .refl _
  · have hset : (getFence o i b).Risen (getFence o i (setFence p j ((getFence p j b).signal v).2 b)) :=
      risen_setFence o i (Fence.risen_signal _ v)
    cases p with
    | none => exact hset
    | some n =>
      dsimp only
      split
      · rw [getFence_bumpSk]; exact hset
      · split
        · rw [getFence_progress]; exact hset
        · exact hset

theorem risen_errorFence (o : Option Nat) (i : Nat) (p : Option Nat) (j : Nat) (st : BitVec 8) (b : Block) :
    (getFence o i b).Risen (getFence o i (errorFence p j st b)) := by
  unfold errorFence
  split
  · exact .refl _
  · refine risen_setFence o i ?_
    dsimp only
    split
    · exact .refl _
    · next herr => exact ⟨Nat.le_refl _, fun h => absurd h herr⟩

/-- Every reply lets a fence rise alone. -/
theorem keptByReplies_risen (o : Option Nat) (i : Nat) (f : Fence) : KeptByReplies (fun c => f.Risen (getFence o i c)) where
  tel _ _ h := by cases o <;> exact h
  ring r g c h := by rw [getFence_modRing]; exact h
  view r g c h := by rw [getFence_modView]; exact h
  ctrs n off k c h := by rw [getFence_bumpSk]; exact h
  glob _ _ _ h := by cases o <;> exact h
  missed h := by cases o <;> exact h
  emit _ _ h := by cases o <;> exact h
  array _ _ h := by cases o <;> exact h
  unitId h := by cases o <;> exact h
  stream _ _ _ _ h := by cases o <;> exact h
  tdi n c h := by rw [getFence_tdiFail]; exact h
  descs _ _ h := by cases o <;> exact h
  lates _ _ h := by cases o <;> exact h
  signal p j v c h := h.trans (risen_signalFence o i p j v c)
  error p j st c h := h.trans (risen_errorFence o i p j st c)
  unref p j c h := h.trans (risen_setFence o i ⟨Nat.le_refl _, fun h => ⟨h, rfl, rfl⟩⟩)
  hank _ _ _ _ _ _ _ h := by cases o <;> exact h
  zorder h := by cases o <;> exact h
  completed n c h := by rw [getFence_modSkein _ fun _ => by rfl]; exact h
  progress n c h := by rw [getFence_progress]; exact h
  bucket n layer operator off k c h := by rw [getFence_bumpBucket]; exact h

/-- Settles O47. -/
theorem fencesNeverFall : Obligations.FencesNeverFall := fun o i b =>
  have h := keptByReplies_risen o i (getFence o i b)
  ⟨h.settle (.refl _), fun x st res forced => h.completeF x st res forced (.refl _)⟩

end Sys2Proof.Machine
end

section
/-! The frames of the ring commands and of the events of time (R364 to R389, R441 to R448). -/

namespace Sys2Proof.Machine

theorem RestAs.lineIn {b c : Block} (h : RestAs b c) (p : Nat) : lineIn p c = lineIn p b := by
  have hcells : c.mem.cells = b.mem.cells := congrArg (fun a => a.mem.cells) h.1
  rw [Machine.lineIn, Machine.lineIn, hcells]

/-- The effect of a command that settles. -/
theorem effect_of_onSettled {c : Instr} {f : Block → Block} (h : ∀ s, exec c s = onSettled f s) (b : Block) :
    effect c b = settle (f b) := by
  simp [effect, h, onSettled, onBlock]

/-- The effect of a command that releases nothing. -/
theorem effect_of_onBlock {c : Instr} {f : Block → Block} (h : ∀ s, exec c s = onBlock f s) (b : Block) : effect c b = f b := by
  simp [effect, h, onBlock]

/-! ### Fetching and accepting a descriptor -/

section
variable {b c : Block} (hc : RestAs b c)
include hc

theorem RestAs.settle : RestAs b (settle c) := (keptByReplies_restAs b).settle hc

theorem RestAs.completeF (x : Desc) (st : BitVec 8) (res : BitVec 160) (forced : Bool) : RestAs b (completeF x st res forced c) :=
  (keptByReplies_restAs b).completeF x st res forced hc

theorem RestAs.complete (x : Desc) (st : BitVec 8) (res : BitVec 160) : RestAs b (complete x st res c) := hc.completeF x st res false

theorem RestAs.raiseViews (e : Event) : RestAs b (raiseViews e c) := (keptByReplies_restAs b).raiseViews e hc

theorem RestAs.fetched (r : Ring) : RestAs b (fetched r c) := (keptByReplies_restAs b).readHost _ _ _ (hc.modRing r _)

theorem RestAs.refFence (o : Option Nat) (i : Nat) : RestAs b (refFence o c i) := hc.setFence o i _

theorem RestAs.useHanks (ks : List Nat) : RestAs b (useHanks ks c) := by
  refine foldl_keeps ?_ ks hc
  exact fun _ _ h => h.setHank rfl rfl rfl rfl

theorem RestAs.takeRefs (x : Desc) : RestAs b (takeRefs x c) := by
  have hnext : RestAs b { c with nextDesc := c.nextDesc + 1 } := hc
  have hsig : RestAs b (if dSig x.raw then Machine.refFence (ringOwner x.ring) { c with nextDesc := c.nextDesc + 1 } (dSigFence x.raw)
      else { c with nextDesc := c.nextDesc + 1 }) := by
    split
    · exact hnext.refFence _ _
    · exact hnext
  have hnamed : ∀ {c}, RestAs b c → RestAs b ((namedFences x.ring x.raw).foldl (fun b f => Machine.refFence f.1 b f.2) c) := by
    intro c hc
    refine foldl_keeps ?_ _ hc
    exact fun f _ h => h.refFence f.1 f.2
  simp only [Machine.takeRefs]
  split
  · exact ((hnamed hsig).useHanks _).modRing _ _
  · exact (hnamed hsig).useHanks _

theorem RestAs.addDesc (x : Desc) (ph : Phase) : RestAs b (addDesc x ph c) := hc

theorem RestAs.setPhase (id : Nat) (ph : Phase) : RestAs b (setPhase id ph c) := hc

theorem RestAs.writeCompletion (r : Ring) (index : BitVec 16) (d : Line) (st : BitVec 8) (res : BitVec 160) (forced : Bool) :
    RestAs b (writeCompletion r index d st res forced c) := (keptByReplies_restAs b).writeCompletion r index d st res forced hc

theorem RestAs.startOrHold {start : Desc → Block → Block} (hstart : ∀ x {c}, RestAs b c → RestAs b (start x c)) (x : Desc) :
    RestAs b (startOrHold x start c) := by
  unfold Machine.startOrHold
  split
  · exact hc.addDesc x _
  · exact hstart x (hc.addDesc x _)

/-- Fetching a descriptor leaves the rest of the block, where starting it does. -/
theorem RestAs.fetch {start : Desc → Block → Block} (hstart : ∀ x {c}, RestAs b c → RestAs b (start x c)) (r : Ring) (d : Line)
    (op : Nat) (cmd : Instr) (k : Block → Checks) (uses : Block → List Nat) : RestAs b (fetch r d op cmd k uses start c) := by
  have hfetched := hc.fetched r
  simp only [Machine.fetch]
  split
  · exact hc
  split
  · exact hc
  split
  · split
    · exact (hfetched.writeCompletion _ _ _ _ _ _).modRing _ _
    · exact hfetched.writeCompletion _ _ _ _ _ _
  · have htaken := fun x => hfetched.takeRefs x
    split
    · split
      · exact (htaken _).addDesc _ _
      · split
        · exact (htaken _).startOrHold hstart _
        · exact (htaken _).addDesc _ _
      · exact (htaken _).startOrHold hstart _
    · exact (htaken _).startOrHold hstart _

/-! ### Starting NOP and the fence descriptors -/

theorem RestAs.abortLates (o : Option Nat) (i : Option Nat) : RestAs b (abortLates o i c) := by
  refine foldl_keeps ?_ _ ((keptByReplies_restAs b).lates _ hc)
  exact fun l _ h => (keptByReplies_restAs b).postRecord _ _ h

theorem RestAs.startNop (x : Desc) : RestAs b (startNop x c) := hc.complete _ _ _

theorem RestAs.startFenceOp (x : Desc) : RestAs b (startFenceOp x c) := by
  unfold Machine.startFenceOp
  split
  · exact (hc.signalFence _ _ _).complete _ _ _
  · split
    · unfold startFenceReset
      dsimp only
      split
      · exact hc.complete _ _ _
      · exact ((hc.abortLates _ _).setFence _ _ _).complete _ _ _
    · exact (hc.setFence _ _ _).complete _ _ _

theorem RestAs.startFenceWait (x : Desc) : RestAs b (startFenceWait x c) := by
  unfold Machine.startFenceWait
  dsimp only
  split
  · exact hc.complete _ _ _
  · exact hc.setPhase _ _

theorem RestAs.doFenceWaitTimeout (r : Ring) (i : BitVec 16) : RestAs b (doFenceWaitTimeout r i c) := by
  unfold Machine.doFenceWaitTimeout
  split
  · exact hc
  · split
    · split
      · exact (keptByReplies_restAs b).lates _ (hc.complete _ _ _)
      · exact hc
    · exact hc

/-! ### Doorbells -/

theorem RestAs.answerTgt (data : BitVec 64) (ur : Bool) (r : Ring) : RestAs b (answerTgt data ur r c) := hc

theorem RestAs.badBell (r : Ring) : RestAs b (badBell r c) := by
  cases r <;> exact (hc.modRing _ _).raiseViews _

theorem RestAs.applyTail (r : Ring) (v : BitVec 32) : RestAs b (applyTail r v c) := by
  unfold Machine.applyTail
  split
  · exact hc
  · split
    · exact hc.modRing _ _
    · exact hc.badBell r

theorem RestAs.applyHead (r : Ring) (v : BitVec 32) : RestAs b (applyHead r v c) := by
  unfold Machine.applyHead
  split
  · exact hc
  · split
    · exact (keptByReplies_restAs b).flushQueued _ _ (hc.modRing _ _)
    · exact hc.badBell r

theorem RestAs.refusePage (r : Ring) (raise : Bool) : RestAs b (refusePage r raise c) := by
  unfold Machine.refusePage
  refine RestAs.answerTgt ?_ _ _ _
  split
  · cases r with
    | mgr => exact hc
    | skein n => exact hc.raiseViews _
  · exact hc

/-- A doorbell leaves the rest of the block, where its value does. -/
theorem RestAs.bell {live : Ring → BitVec 32 → Block → Block} {hold : BitVec 32 → Skein → Skein}
    (hlive : ∀ r v {c}, RestAs b c → RestAs b (live r v c)) (hhold : ∀ v s, skeinRest (hold v s) = skeinRest s) (q : Tgt) (off : Nat) :
    RestAs b (bell q off live hold c) := by
  unfold Machine.bell
  split
  · exact hc
  next r _ _ =>
  split
  · exact hc
  split
  · exact hc.refusePage _ _
  split
  · exact hc.answerTgt _ _ _
  · refine RestAs.answerTgt ?_ _ _ _
    cases r with
    | mgr => exact hlive _ _ hc
    | skein n =>
      dsimp only
      split
      · exact hc
      split
      · exact hc
      split
      · exact hc.modSkein (hhold _) n
      · exact hlive _ _ hc

end

/-- A NOP, a fence descriptor or a wait's timeout leaves the rest of the block. -/
theorem restAs_effect_fence (r : Ring) (d : Line) (i : BitVec 16) (b : Block) :
    ∀ c ∈ [Instr.nop r d, .fenceSignal r d, .fenceReset r d, .fenceGrant r d, .fenceWait r d, .fenceWaitTimeout r i],
      RestAs b (effect c b) := by
  have hb := RestAs.refl b
  simp only [List.forall_mem_cons, List.not_mem_nil, false_implies, implies_true, and_true]
  refine ⟨?_, ?_, ?_, ?_, ?_, ?_⟩
  · rw [effect_of_onSettled (f := doNop r d) fun _ => rfl]
    exact (hb.fetch (fun x _ h => h.startNop x) _ _ _ _ _ _).settle
  · rw [effect_of_onSettled (f := doFenceSignal r d) fun _ => rfl]
    exact (hb.fetch (fun x _ h => h.startFenceOp x) _ _ _ _ _ _).settle
  · rw [effect_of_onSettled (f := doFenceReset r d) fun _ => rfl]
    exact (hb.fetch (fun x _ h => h.startFenceOp x) _ _ _ _ _ _).settle
  · rw [effect_of_onSettled (f := doFenceGrant r d) fun _ => rfl]
    exact (hb.fetch (fun x _ h => h.startFenceOp x) _ _ _ _ _ _).settle
  · rw [effect_of_onSettled (f := doFenceWait r d) fun _ => rfl]
    exact (hb.fetch (fun x _ h => h.startFenceWait x) _ _ _ _ _ _).settle
  · rw [effect_of_onSettled (f := doFenceWaitTimeout r i) fun _ => rfl]
    exact (hb.doFenceWaitTimeout r i).settle

/-- The effect of an access that is served. -/
theorem effect_of_onAccess {c : Instr} {f : Block → Block} (h : ∀ s, exec c s = onAccess c f s) {b : Block} (hb : closed b = false) :
    effect c b = settle (f b) := by
  simp [effect, h, onAccess_open (s := { pending := [], blk := b }) hb, onto]

theorem exec_sqTail (q : Tgt) (s : State) : exec (.sqTail q) s = onAccess (.sqTail q) (doSqTail q) s := by rw [exec, execSqTail]
theorem exec_cqHead (q : Tgt) (s : State) : exec (.cqHead q) s = onAccess (.cqHead q) (doCqHead q) s := by rw [exec, execCqHead]
theorem exec_attnAck (q : Tgt) (s : State) : exec (.attnAck q) s = onAccess (.attnAck q) (doAttnAck q) s := by rw [exec, execAttnAck]

/-- A doorbell leaves the rest of the block. -/
theorem restAs_effect_bell (q : Tgt) {b : Block} (hopen : closed b = false) :
    ∀ c ∈ [Instr.sqTail q, .cqHead q, .attnAck q], RestAs b (effect c b) := by
  have hb := RestAs.refl b
  simp only [List.forall_mem_cons, List.not_mem_nil, false_implies, implies_true, and_true]
  refine ⟨?_, ?_, ?_⟩
  · rw [effect_of_onAccess (exec_sqTail q) hopen, doSqTail]
    refine (hb.bell ?_ (fun _ _ => by rfl) q _).settle
    exact fun r v _ h => h.applyTail r v
  · rw [effect_of_onAccess (exec_cqHead q) hopen, doCqHead]
    refine (hb.bell ?_ (fun _ _ => by rfl) q _).settle
    exact fun r v _ h => h.applyHead r v
  · rw [effect_of_onAccess (exec_attnAck q) hopen, doAttnAck]
    refine (hb.bell ?_ (fun _ _ => by rfl) q _).settle
    exact fun r _ _ h => h.modView r _

/-- Settles O49. -/
theorem ringCommandsLeaveTheRest : Obligations.RingCommandsLeaveTheRest := by
  intro r d i q b
  have frame : ∀ {c}, RestAs b c → beyondReplies c = beyondReplies b ∧ (∀ h, hankOwner h c = hankOwner h b) ∧
      ∀ p, lineIn p c = lineIn p b := fun h => ⟨h.1, h.2, h.lineIn⟩
  exact ⟨fun c hc => frame (restAs_effect_fence r d i b c hc), fun hopen c hc => frame (restAs_effect_bell q hopen c hc)⟩

/-! ### Events of time -/

/-- The block `c` differs from `b` in the fields of time, in an event held for a later wake, and in what attention events change. -/
def TimeAs (b c : Block) : Prop :=
  beyondReplies { c with tim := b.tim, pwr := { c.pwr with heldEv := b.pwr.heldEv } } = beyondReplies b ∧
    { c.mem with nextId := b.mem.nextId } = b.mem ∧ c.descs = b.descs ∧ ∀ o i, getFence o i c = getFence o i b

theorem TimeAs.refl (b : Block) : TimeAs b b := ⟨rfl, rfl, rfl, fun _ _ => rfl⟩

/-- A change of a skein's ring pair, view, counters or TDI. -/
theorem TimeAs.modSkein {b c : Block} (h : TimeAs b c) {f : Skein → Skein} (hf : ∀ s, skeinRest (f s) = skeinRest s)
    (hfences : ∀ s, (f s).fences = s.fences) (n : Nat) : TimeAs b (modSkein n f c) := by
  obtain ⟨hrest, hmem, hdescs, hfence⟩ := h
  exact ⟨(beyondReplies_modSkein hf n { c with tim := b.tim, pwr := { c.pwr with heldEv := b.pwr.heldEv } }).trans hrest, hmem, hdescs,
    fun o i => (getFence_modSkein f hfences o i n c).trans (hfence o i)⟩

/-- Every attention event leaves all but the fields of time. -/
theorem keptByEvents_timeAs (b : Block) : KeptByEvents (TimeAs b) where
  tel _ _ h := h
  ring r f _ h := by
    cases r with
    | mgr => exact h
    | skein n => exact h.modSkein (fun _ => by rfl) (fun _ => by rfl) n
  view r f _ h := by
    cases r with
    | mgr => exact h
    | skein n => exact h.modSkein (fun _ => by rfl) (fun _ => by rfl) n
  ctrs n off k _ h := h.modSkein (fun _ => by rfl) (fun _ => by rfl) n
  glob _ _ _ h := h
  missed h := h
  emit _ _ h := h
  array _ _ h := h
  unitId h := h
  stream _ _ _ _ h := h
  tdi n _ h := h.modSkein skeinRest_tdi (fun s => by split <;> rfl) n

section
variable {b c : Block} (hc : TimeAs b c)
include hc

theorem TimeAs.setTim (f : Tim → Tim) : TimeAs b (setTim f c) := hc

theorem TimeAs.bumpHealth (off k : Nat) : TimeAs b (bumpHealth off k c) := hc

theorem TimeAs.spoolFree (kind stream owner x y : Nat) : TimeAs b (spoolFree kind stream owner x y c) :=
  (keptByEvents_timeAs b).spoolFree _ _ _ _ _ hc

theorem TimeAs.raiseBlock (cls object : Nat) : TimeAs b (raiseBlock cls object c) := by
  unfold Machine.raiseBlock
  split
  · exact hc
  · exact (keptByEvents_timeAs b).raiseViews _ hc

theorem TimeAs.setQuality (q : Nat) : TimeAs b (setQuality q c) := by
  unfold Machine.setQuality
  split
  · exact hc
  · exact ((hc.setTim fun t => { t with quality := q }).spoolFree _ _ _ _ _).raiseBlock _ _

theorem TimeAs.takeLock (v : BitVec 64) : TimeAs b (takeLock v c) := by
  unfold Machine.takeLock
  refine TimeAs.setQuality (TimeAs.setTim (ite_keeps ?_ ?_) _) _
  · exact hc
  · exact (((hc.setTim _).spoolFree _ _ _ _ _).bumpHealth _ _).raiseBlock _ _

theorem TimeAs.doTickLost : TimeAs b (doTickLost c) := by
  unfold Machine.doTickLost
  split
  · exact hc
  · exact (hc.setTim _).setQuality _

theorem TimeAs.doTickRegained : TimeAs b (doTickRegained c) := by
  unfold Machine.doTickRegained
  split
  · exact hc
  · exact (hc.setTim _).setQuality _

theorem TimeAs.doPpsEdge (bus : Option (BitVec 64)) : TimeAs b (doPpsEdge bus c) := by
  unfold Machine.doPpsEdge
  split
  · exact hc.setQuality _
  split
  · exact hc
  · dsimp only
    split
    · exact ((hc.setTim _).setTim _).takeLock _
    · exact ((hc.setTim _).setTim _).setQuality _

theorem TimeAs.doBusLost : TimeAs b (doBusLost c) := by
  unfold Machine.doBusLost
  split
  · exact hc.setQuality _
  · exact hc

theorem TimeAs.doBusSample (v : BitVec 64) : TimeAs b (doBusSample v c) := by
  unfold Machine.doBusSample
  split
  · exact hc.setQuality _
  split
  · exact hc.setTim _
  · exact (hc.setTim _).takeLock _

theorem TimeAs.doStrobeMissing : TimeAs b (doStrobeMissing c) := by
  unfold Machine.doStrobeMissing
  dsimp only
  split
  · exact hc
  · exact ((hc.setTim _).spoolFree _ _ _ _ _).raiseBlock _ _

theorem TimeAs.doDbgRead (w : DbgRead) : TimeAs b (doDbgRead w c) := by
  unfold Machine.doDbgRead
  split
  · exact hc
  · exact hc

end

/-- Settles O50. -/
theorem timeEventsLeaveTheRest : Obligations.TimeEventsLeaveTheRest := by
  intro bus v w b
  have hb := TimeAs.refl b
  simp only [List.forall_mem_cons, List.not_mem_nil, false_implies, implies_true, and_true]
  refine ⟨?_, ?_, ?_, ?_, ?_, ?_, ?_, ?_, ?_, ?_⟩
  · rw [effect_of_onBlock (f := doTickLost) fun _ => rfl]
    exact hb.doTickLost
  · rw [effect_of_onBlock (f := doTickRegained) fun _ => rfl]
    exact hb.doTickRegained
  · rw [effect_of_onBlock (f := doPpsEdge bus) fun _ => rfl]
    exact hb.doPpsEdge bus
  · rw [effect_of_onBlock (f := doBusLost) fun _ => rfl]
    exact hb.doBusLost
  · rw [effect_of_onBlock (f := doPpsLost) fun _ => rfl]
    exact hb.setQuality _
  · rw [effect_of_onBlock (f := doBusSample v) fun _ => rfl]
    exact hb.doBusSample v
  · rw [effect_of_onBlock (f := doStrobeMissing) fun _ => rfl]
    exact hb.doStrobeMissing
  · rw [effect_of_onBlock (f := doIdcode) fun _ => rfl]
    exact hb
  · rw [effect_of_onBlock (f := doBypass) fun _ => rfl]
    exact hb
  · rw [effect_of_onBlock (f := doDbgRead w) fun _ => rfl]
    exact hb.doDbgRead w

end Sys2Proof.Machine
end

section
/-! The frame of the register store (R13, R506): a field write is idempotent, because the fields of a register lie apart. -/

namespace Sys2Proof.Machine

/-! ### Fields of a word -/

theorem testBit_bitField {w : Nat} (x : BitVec w) (hi lo j : Nat) :
    (bitField x hi lo).testBit j = (decide (j < hi + 1 - lo) && x.getLsbD (lo + j)) := by
  simp [bitField, Nat.testBit_shiftRight, BitVec.getLsbD]

theorem bitField_lt {w : Nat} (x : BitVec w) (hi lo : Nat) : bitField x hi lo < 2 ^ (hi + 1 - lo) := Nat.mod_lt _ (Nat.two_pow_pos _)

/-- A word splits at a field. -/
theorem toNat_split {w : Nat} (x : BitVec w) (hi lo : Nat) :
    x.toNat = 2 ^ lo * (2 ^ (hi + 1 - lo) * (x.toNat / 2 ^ lo / 2 ^ (hi + 1 - lo)) + bitField x hi lo) + x.toNat % 2 ^ lo := by
  rw [bitField, Nat.shiftRight_eq_div_pow, Nat.div_add_mod, Nat.div_add_mod]

/-- A field of a word reads as it was set, and every other bit as before. -/
theorem getLsbD_setBits {w : Nat} (x : BitVec w) {hi lo : Nat} (hlo : lo ≤ hi) (hw : hi < w) (v i : Nat) :
    (setBits x hi lo v).getLsbD i = if lo ≤ i ∧ i ≤ hi then v.testBit (i - lo) else x.getLsbD i := by
  obtain ⟨k, hk⟩ : ∃ k, k = hi + 1 - lo := ⟨_, rfl⟩
  obtain ⟨a, ha⟩ : ∃ a, a = x.toNat / 2 ^ lo / 2 ^ k := ⟨_, rfl⟩
  have hsplit := toNat_split x hi lo
  rw [← hk, ← ha] at hsplit
  have hset : x.toNat - (bitField x hi lo <<< lo) + ((v % 2 ^ k) <<< lo) = 2 ^ lo * (2 ^ k * a + v % 2 ^ k) + x.toNat % 2 ^ lo := by
    simp only [Nat.shiftLeft_eq, Nat.mul_add, Nat.mul_comm _ (2 ^ lo)] at hsplit ⊢
    omega
  have hmod := Nat.mod_lt x.toNat (Nat.two_pow_pos lo)
  have hbit (m : Nat) (hm : m < 2 ^ k) : (2 ^ lo * (2 ^ k * a + m) + x.toNat % 2 ^ lo).testBit i =
      if i < lo then (x.toNat % 2 ^ lo).testBit i else if i - lo < k then m.testBit (i - lo) else a.testBit (i - lo - k) := by
    rw [Nat.testBit_two_pow_mul_add _ hmod, Nat.testBit_two_pow_mul_add _ hm]
  have hold : x.getLsbD i = _ := (congrArg (Nat.testBit · i) hsplit).trans (hbit _ (hk ▸ bitField_lt x hi lo))
  rw [setBits, ← hk, hset, BitVec.getLsbD_ofNat, hbit _ (Nat.mod_lt _ (Nat.two_pow_pos k)), hold]
  by_cases hi' : i < w
  · by_cases h1 : i < lo
    · simp [h1, hi', Nat.not_le.mpr h1]
    · by_cases h2 : i ≤ hi
      · have h3 : i - lo < k := by omega
        simp [h1, h2, h3, hi', Nat.le_of_not_lt h1]
      · have h3 : ¬ i - lo < k := by omega
        simp [h1, h2, h3, hi']
  · have h2 : ¬ i ≤ hi := by omega
    rw [← hold, BitVec.getLsbD_of_ge x i (Nat.le_of_not_lt hi')]
    simp [h2, hi']

/-- A field reads as it was set. -/
theorem bitField_setBits_same {w : Nat} (x : BitVec w) {hi lo v : Nat} (hlo : lo ≤ hi) (hw : hi < w) (hv : v < 2 ^ (hi + 1 - lo)) :
    bitField (setBits x hi lo v) hi lo = v := by
  refine Nat.eq_of_testBit_eq fun j => ?_
  rw [testBit_bitField, getLsbD_setBits x hlo hw]
  by_cases hj : j < hi + 1 - lo
  · have : lo + j ≤ hi := by omega
    simp [hj, this]
  · have hlt : v < 2 ^ j := Nat.lt_of_lt_of_le hv (Nat.pow_le_pow_right (by decide) (by omega))
    simp [hj, Nat.testBit_lt_two_pow hlt]

/-- A field set elsewhere leaves this one. -/
theorem bitField_setBits_other {w : Nat} (x : BitVec w) {hi lo hi' lo' : Nat} (hlo : lo' ≤ hi') (hw : hi' < w)
    (hapart : hi < lo' ∨ hi' < lo) (v : Nat) : bitField (setBits x hi' lo' v) hi lo = bitField x hi lo := by
  refine Nat.eq_of_testBit_eq fun j => ?_
  rw [testBit_bitField, testBit_bitField, getLsbD_setBits x hlo hw]
  by_cases hj : j < hi + 1 - lo
  · have : ¬ (lo' ≤ lo + j ∧ lo + j ≤ hi') := by omega
    simp [this]
  · simp [hj]

/-! ### Field writes -/

/-- Fields of a word of width `w`, listed upwards and apart from each other. -/
def fieldsApart (w : Nat) : List RField → Bool
  | [] => true
  | f :: fs => decide (f.lo ≤ f.hi ∧ f.hi < w) && (fs.all fun g => decide (f.hi < g.lo)) && fieldsApart w fs

/-- What a write leaves in a field: what was written, or the field's own value where that is reserved. -/
def RField.written {w : Nat} (old new : BitVec w) (f : RField) : Nat :=
  if f.ok (bitField new f.hi f.lo) then bitField new f.hi f.lo else bitField old f.hi f.lo

theorem RField.written_lt {w : Nat} (old new : BitVec w) (f : RField) : f.written old new < 2 ^ (f.hi + 1 - f.lo) := by
  unfold RField.written
  split <;> exact bitField_lt _ _ _

theorem writeFields_eq {w : Nat} (old new : BitVec w) (fs : List RField) :
    writeFields old new fs = fs.foldl (fun acc f => setBits acc f.hi f.lo (f.written old new)) 0 := rfl

/-- Fields set above a field leave it. -/
theorem bitField_foldl_setBits_other {w : Nat} {hi lo : Nat} {fs : List RField} (hfs : fieldsApart w fs = true)
    (habove : ∀ f ∈ fs, hi < f.lo) (v : RField → Nat) (acc : BitVec w) :
    bitField (fs.foldl (fun acc f => setBits acc f.hi f.lo (v f)) acc) hi lo = bitField acc hi lo := by
  induction fs generalizing acc with
  | nil => rfl
  | cons f fs ih =>
    simp only [fieldsApart, Bool.and_eq_true, decide_eq_true_eq] at hfs
    obtain ⟨⟨⟨hlo, hw⟩, -⟩, hrest⟩ := hfs
    rw [List.foldl_cons, ih hrest fun g hg => habove g (List.mem_cons_of_mem _ hg),
      bitField_setBits_other acc hlo hw (.inl (habove f (List.mem_cons_self ..)))]

/-- Each field reads as it was written. -/
theorem bitField_writeFields {w : Nat} {fs : List RField} (hfs : fieldsApart w fs = true) (old new : BitVec w) {f : RField} (hf : f ∈ fs) :
    bitField (writeFields old new fs) f.hi f.lo = f.written old new := by
  rw [writeFields_eq]
  generalize (0 : BitVec w) = acc
  induction fs generalizing acc with
  | nil => exact absurd hf List.not_mem_nil
  | cons g fs ih =>
    simp only [fieldsApart, Bool.and_eq_true, decide_eq_true_eq, List.all_eq_true] at hfs
    obtain ⟨⟨⟨hlo, hw⟩, hfirst⟩, hrest⟩ := hfs
    rw [List.foldl_cons]
    rcases List.mem_cons.mp hf with rfl | hf
    · rw [bitField_foldl_setBits_other hrest hfirst, bitField_setBits_same acc hlo hw (f.written_lt old new)]
    · exact ih hrest hf _

/-- Two folds agree where their steps agree on every element. -/
theorem foldl_congr_mem {α β : Type} {f g : α → β → α} {xs : List β} {a : α} (h : ∀ a, ∀ x ∈ xs, f a x = g a x) :
    xs.foldl f a = xs.foldl g a := by
  induction xs generalizing a with
  | nil => rfl
  | cons x xs ih =>
    rw [List.foldl_cons, List.foldl_cons, h a x (List.mem_cons_self ..)]
    exact ih fun a y hy => h a y (List.mem_cons_of_mem _ hy)

/-- Writing the same value again changes nothing. -/
theorem writeFields_writeFields {w : Nat} {fs : List RField} (hfs : fieldsApart w fs = true) (old new : BitVec w) :
    writeFields (writeFields old new fs) new fs = writeFields old new fs := by
  have hsame : ∀ f ∈ fs, f.written (writeFields old new fs) new = f.written old new := by
    intro f hf
    rw [RField.written, bitField_writeFields hfs old new hf, RField.written]
    split <;> rfl
  rw [writeFields_eq (writeFields old new fs) new]
  exact (foldl_congr_mem fun acc f hf => by rw [hsame f hf]).trans (writeFields_eq old new fs).symm

theorem fieldsApart_zoneFields (row : Config.Row) : fieldsApart 64 (zoneFields row) = true := by
  cases row <;> rfl

/-- SPL_CTRL keeps PRE and POST apart from its other fields, so that it too is written to one end (R468). -/
theorem splWrite_splWrite (old new : BitVec 64) : splWrite (splWrite old new) new = splWrite old new := by
  have hfields : ∀ x y : BitVec 64, writeFields x new [fld 31 0, fld 47 40, fld 48 48, fld 49 49, fld 63 50] =
      writeFields y new [fld 31 0, fld 47 40, fld 48 48, fld 49 49, fld 63 50] := fun _ _ => rfl
  have hpre : ∀ (x : BitVec 64) p q, p < 2 ^ 4 → bitField (setBits (setBits x 35 32 p) 39 36 q) 35 32 = p := fun x p q hp => by
    rw [bitField_setBits_other _ (by decide) (by decide) (by decide), bitField_setBits_same x (by decide) (by decide) hp]
  have hpost : ∀ (x : BitVec 64) p q, q < 2 ^ 4 → bitField (setBits (setBits x 35 32 p) 39 36 q) 39 36 = q := fun x p q hq =>
    bitField_setBits_same _ (by decide) (by decide) hq
  simp only [splWrite]
  split
  · rw [hpre _ _ _ (bitField_lt old 35 32), hpost _ _ _ (bitField_lt old 39 36), hfields _ old]
  · rw [hfields _ old]

/-! ### The register store -/

@[simp] theorem amSet_amSet_same {α : Type} (k : Nat) (v : α) (m : List (Nat × α)) : amSet k v (amSet k v m) = amSet k v m := by
  induction m with
  | nil => simp [amSet]
  | cons e m ih =>
    obtain ⟨j, w⟩ := e
    simp only [amSet]
    split
    · simp [amSet]
    · split
      · simp [amSet]
      · simp [amSet, *]

@[simp] theorem amDel_amDel_same {α : Type} (k : Nat) (m : List (Nat × α)) : amDel k (amDel k m) = amDel k m := by
  induction m with
  | nil => rfl
  | cons e m ih =>
    obtain ⟨j, w⟩ := e
    simp only [amDel]
    split
    · exact ih
    · simp [amDel, *]

/-- Writing the same value at a key again changes nothing. -/
@[simp] theorem amPut_amPut_same {α : Type} [DecidableEq α] (d : α) (k : Nat) (v : α) (m : List (Nat × α)) :
    amPut d k v (amPut d k v m) = amPut d k v m := by
  unfold amPut
  split <;> simp

/-- The slots of single registers that a register write stores. -/
def storedSlots : List Nat :=
  [0x200, 0x208, 0x218, 0x390, 0x398, 0x3A0, 0x400, 0x408, 0x410, 0x418, 0x420, 0x428, 0x600, 0x700, 0x708, 0x710]

/-- A slot of TWS_ZONE0 to 15 (R139). -/
def isZoneSlot (off : Nat) : Prop := 0x300 ≤ off ∧ off < 0x380

theorem regStore_of_not_stored {off : Nat} (hoff : off ∉ storedSlots) (hzone : ¬ isZoneSlot off) (v : BitVec 64) (b : Block) :
    regStore off v b = b := by
  simp only [storedSlots, List.mem_cons, List.not_mem_nil, or_false, not_or] at hoff
  simp only [regStore, hoff, if_false]
  exact if_neg hzone

/-- The block with one more value of TWS_ZONE, stored under its index. -/
def storeZone (z : Nat) (v : BitVec 64) (b : Block) : Block :=
  { b with regs := { b.regs with twsZone := amPut 0 z (writeFields (amGetD 0 z b.regs.twsZone) v (zoneFields b.row)) b.regs.twsZone } }

theorem regStore_zone {off : Nat} (hzone : isZoneSlot off) (v : BitVec 64) (b : Block) :
    regStore off v b = if b.regs.lockZones then b else storeZone ((off - 0x300) / 8) v b := by
  obtain ⟨hlo, hhi⟩ := hzone
  have h200 : off ≠ 0x200 := by omega
  have h208 : off ≠ 0x208 := by omega
  have h218 : off ≠ 0x218 := by omega
  simp only [regStore, h200, h208, h218, hlo, hhi, and_self, if_true, if_false, storeZone]

/-- A register write changes the manager's ring fields or the set-up registers alone. -/
theorem regStore_frame (off : Nat) (v : BitVec 64) (b : Block) : ∃ m r, regStore off v b = { b with mgr := m, regs := r } := by
  by_cases hzone : isZoneSlot off
  · rw [regStore_zone hzone]
    split
    · exact ⟨_, _, rfl⟩
    · exact ⟨_, _, rfl⟩
  by_cases hoff : off ∈ storedSlots
  · generalize hc : regStore off v b = c
    simp only [storedSlots, List.mem_cons, List.not_mem_nil, or_false] at hoff
    rcases hoff with rfl | rfl | rfl | rfl | rfl | rfl | rfl | rfl | rfl | rfl | rfl | rfl | rfl | rfl | rfl | rfl
    all_goals simp [regStore] at hc
    all_goals try split at hc
    all_goals
      subst hc
      exact ⟨_, _, rfl⟩
  · rw [regStore_of_not_stored hoff hzone]
    exact ⟨_, _, rfl⟩

/-- No other slot reads differently after a register write. -/
theorem regRead_regStore_other {off off' : Nat} (hoff : off % 8 = 0) (hoff' : off' % 8 = 0) (hne : off' ≠ off) (v : BitVec 64) (b : Block) :
    regRead off' (regStore off v b) = regRead off' b := by
  by_cases hzone : isZoneSlot off
  · have hindex : isZoneSlot off' → (off' - 0x300) / 8 ≠ (off - 0x300) / 8 := by unfold isZoneSlot at *; omega
    rw [regStore_zone hzone]
    split
    · rfl
    · by_cases hzone' : 0x300 ≤ off' ∧ off' < 0x380
      · simp only [regRead, storeZone, if_pos hzone', amGetD_amPut_other _ (hindex hzone'), cfgStraps, ladderLock, ringCtrl, twsLock,
          pwrStatus, timStatus]
      · simp only [regRead, storeZone, if_neg hzone', cfgStraps, ladderLock, ringCtrl, twsLock, pwrStatus, timStatus]
        rfl
  by_cases hstored : off ∈ storedSlots
  · generalize hc : regStore off v b = c
    simp only [storedSlots, List.mem_cons, List.not_mem_nil, or_false] at hstored
    rcases hstored with rfl | rfl | rfl | rfl | rfl | rfl | rfl | rfl | rfl | rfl | rfl | rfl | rfl | rfl | rfl | rfl
    all_goals simp [regStore] at hc hne
    all_goals try split at hc
    all_goals subst hc
    all_goals simp only [regRead, hne, if_false, cfgStraps, ladderLock, ringCtrl, twsLock, pwrStatus, timStatus]
  · rw [regStore_of_not_stored hstored hzone]

/-- Writing the same value again changes nothing. -/
theorem regStore_regStore (off : Nat) (v : BitVec 64) (b : Block) : regStore off v (regStore off v b) = regStore off v b := by
  by_cases hzone : isZoneSlot off
  · simp only [regStore_zone hzone]
    split
    · simp [*]
    · simp [storeZone, *, writeFields_writeFields, fieldsApart_zoneFields]
  by_cases hstored : off ∈ storedSlots
  · generalize hc : regStore off v b = c
    simp only [storedSlots, List.mem_cons, List.not_mem_nil, or_false] at hstored
    rcases hstored with rfl | rfl | rfl | rfl | rfl | rfl | rfl | rfl | rfl | rfl | rfl | rfl | rfl | rfl | rfl | rfl
    all_goals simp [regStore] at hc
    all_goals try split at hc
    all_goals subst hc
    all_goals simp (disch := decide) [regStore, *, writeFields_writeFields, splWrite_splWrite]
  · rw [regStore_of_not_stored hstored hzone, regStore_of_not_stored hstored hzone]

/-- Settles O51. -/
theorem registerStoreFrame : Obligations.RegisterStoreFrame := fun off v b hoff =>
  ⟨regStore_frame off v b, fun _ hoff' hne => regRead_regStore_other hoff hoff' hne v b, regStore_regStore off v b⟩

end Sys2Proof.Machine
end

section
/-! A stored line reads back as it was written: the places are computed alike before and after the store, the whole line is replaced,
and of its MAC line one slot (R72, R75, R90, R109, R125). -/

namespace Sys2Proof.Machine

/-! ### Masks and MAC slots -/

/-- The word of `n` ones. -/
theorem getLsbD_ones (w n i : Nat) : (BitVec.ofNat w (2 ^ n - 1)).getLsbD i = (decide (i < w) && decide (i < n)) := by
  rw [BitVec.getLsbD_ofNat, Nat.testBit_two_pow_sub_one]

/-- Ones in byte `n` of a line. -/
def byteOnes (n : Nat) : Line := (0xFF : Line) <<< (8 * n)

theorem getLsbD_byteOnes (n : Nat) {i : Nat} (hi : i < 512) : (byteOnes n).getLsbD i = decide (i / 8 = n) := by
  rw [byteOnes, BitVec.getLsbD_shiftLeft, show (0xFF : Line) = BitVec.ofNat 512 (2 ^ 8 - 1) from rfl, getLsbD_ones, Bool.eq_iff_iff]
  simp only [Bool.and_eq_true, decide_eq_true_eq, Bool.not_eq_true', decide_eq_false_iff_not]
  omega

/-- A byte mask covers the bits of its bytes. -/
theorem getLsbD_maskBits (mask : BitVec 64) {i : Nat} (hi : i < 512) : (maskBits mask).getLsbD i = mask.getLsbD (i / 8) := by
  have hbytes : ∀ n, ((List.range n).foldl (fun acc i => if mask.getLsbD i then acc ||| byteOnes i else acc) (0 : Line)).getLsbD i =
      (decide (i / 8 < n) && mask.getLsbD (i / 8)) := by
    intro n
    induction n with
    | zero => simp
    | succ n ih =>
      rw [List.range_succ, List.foldl_append, List.foldl_cons, List.foldl_nil, apply_ite (BitVec.getLsbD · i), BitVec.getLsbD_or, ih,
        getLsbD_byteOnes n hi]
      by_cases hn : i / 8 = n
      · simp [hn]
      · have hlt : i / 8 < n + 1 ↔ i / 8 < n := by omega
        simp [hn, hlt]
  have hall := hbytes 64
  rwa [decide_eq_true (by omega), Bool.true_and] at hall

/-- A merge takes the bytes of the mask from the new line, and keeps the others. -/
theorem getLsbD_mergeLine (old new : Line) (mask : BitVec 64) {i : Nat} (hi : i < 512) :
    (mergeLine old new mask).getLsbD i = if mask.getLsbD (i / 8) then new.getLsbD i else old.getLsbD i := by
  simp only [mergeLine, BitVec.getLsbD_or, BitVec.getLsbD_and, BitVec.getLsbD_not, getLsbD_maskBits mask hi, hi, decide_true, Bool.true_and]
  cases mask.getLsbD (i / 8) <;> simp

@[simp] theorem mergeLine_fullMask (old new : Line) : mergeLine old new fullMask = new := by
  refine BitVec.eq_of_getLsbD_eq fun i hi => ?_
  have hfull : fullMask.getLsbD (i / 8) = true := by
    rw [show fullMask = BitVec.ofNat 64 (2 ^ 64 - 1) from rfl, getLsbD_ones]
    simp
    omega
  rw [getLsbD_mergeLine _ _ _ hi, if_pos hfull]

/-- A MAC slot reads as it was put. -/
theorem macSlot_mergeLine (old : Line) {j : Nat} (hj : j < 8) (mac : BitVec 64) :
    macSlot (mergeLine old (putMacSlot 0 j mac) (slotMask j)) j = mac := by
  refine BitVec.eq_of_getLsbD_eq fun i hi => ?_
  have hpos : 64 * j + i < 512 := by omega
  have hmask : (slotMask j).getLsbD ((64 * j + i) / 8) = true := by
    rw [slotMask, BitVec.getLsbD_shiftLeft, show (0xFF : BitVec 64) = BitVec.ofNat 64 (2 ^ 8 - 1) from rfl, getLsbD_ones]
    simp
    omega
  rw [macSlot, BitVec.getLsbD_setWidth, BitVec.getLsbD_ushiftRight, getLsbD_mergeLine _ _ _ hpos, if_pos hmask]
  simp [putMacSlot, hpos, hi]

/-! ### Where lines lie -/

/-- The memory but for its lines and what follows the writes of them. -/
def placing (m : Mem) : Mem :=
  { m with cells := [], fetches := [], writes := [], nextId := 0, bob := [], useCount := 0, reel := { m.reel with copies := [] } }

/-- Nothing of what fixes the places of lines differs. -/
def PlacedAs (b c : Block) : Prop := placing c.mem = placing b.mem

section
variable {b c : Block} (h : PlacedAs b c)
include h

theorem PlacedAs.layout : c.mem.lay = b.mem.lay := by
  have hfield := congrArg Mem.lay h
  exact hfield

theorem PlacedAs.addrTk (addr : Nat) : addrTk addr c = addrTk addr b := by
  have hnew : c.mem.reel.newTk = b.mem.reel.newTk := by
    have hfield := congrArg (fun m => m.reel.newTk) h
    exact hfield
  have hmark : c.mem.reel.mark = b.mem.reel.mark := by
    have hfield := congrArg (fun m => m.reel.mark) h
    exact hfield
  have htk : c.mem.tk = b.mem.tk := by
    have hfield := congrArg Mem.tk h
    exact hfield
  simp only [Machine.addrTk, zoneTk, h.layout, hnew, hmark, htk]

theorem PlacedAs.dataPlace (tk : BitVec 64) (addr : Nat) : dataPlace tk addr c = dataPlace tk addr b := by
  simp only [Machine.dataPlace, h.layout]

theorem PlacedAs.macPlace (addr : Nat) : macPlace addr c = macPlace addr b := by
  have hkeys : c.mem.mkKeys = b.mem.mkKeys := by
    have hfield := congrArg Mem.mkKeys h
    exact hfield
  simp only [Machine.macPlace, carvePlace, h.layout, hkeys]

theorem PlacedAs.eMacPlace (addr : Nat) : eMacPlace addr c = eMacPlace addr b := by
  have hhanks : c.mem.hanks = b.mem.hanks := by
    have hfield := congrArg Mem.hanks h
    exact hfield
  have haddr : eMacAddr addr c = eMacAddr addr b := by simp only [eMacAddr, getHank, h.layout, hhanks]
  simp only [Machine.eMacPlace, haddr, h.addrTk, h.dataPlace]

theorem PlacedAs.kbKey : c.mem.kbKey = b.mem.kbKey := by
  have hfield := congrArg Mem.kbKey h
  exact hfield

end

theorem PlacedAs.trans {a b c : Block} (hab : PlacedAs a b) (hbc : PlacedAs b c) : PlacedAs a c := Eq.trans hbc hab

theorem placedAs_noteCopy (addr : Nat) (f : Option Moved → Moved) (b : Block) : PlacedAs b (noteCopy addr f b) := by
  unfold noteCopy
  split <;> rfl

@[simp] theorem lineIn_noteCopy (a addr : Nat) (f : Option Moved → Moved) (b : Block) : lineIn a (noteCopy addr f b) = lineIn a b := by
  unfold noteCopy
  split <;> rfl

theorem placedAs_memPut (k : Nat) (m : BitVec 64) (d : Line) (w : Option WFor) (p : Option (Nat × Line)) (x : Bool) (b : Block) :
    PlacedAs b (memPut k m d w p x b) := rfl

theorem placedAs_rawRead (evs : MemEvs) (k : Nat) (x : Bool) (b : Block) : PlacedAs b (rawRead evs k x b).2 := rfl

/-! ### Units -/

/-- The memory is as it was, but for the number of units. -/
def MemAs (b c : Block) : Prop := ∃ n, c.mem = { b.mem with nextId := n }

theorem keptByEvents_memAs (b : Block) : KeptByEvents (MemAs b) where
  tel _ _ h := h
  ring r f _ h := by cases r <;> exact h
  view r f _ h := by cases r <;> exact h
  ctrs _ _ _ _ h := h
  glob _ _ _ h := h
  missed h := h
  emit _ _ h := h
  array _ _ h := h
  unitId h := by
    obtain ⟨n, hn⟩ := h
    exact ⟨n + 1, by simp [hn]⟩
  stream _ _ _ _ h := h
  tdi _ _ h := h

theorem memAs_submitLineF (forced : Bool) (n : Option Nat) (isE : Bool) (gen keyId addr tier blocks : Nat) (b : Block) :
    MemAs b (submitLineF forced n isE gen keyId addr tier blocks b) := by
  have hunit := fun s e sl t => (keptByEvents_memAs b).submitUnit s forced e keyId sl t blocks ⟨_, rfl⟩
  cases n with
  | none => exact hunit _ _ _ _
  | some n => exact (keptByEvents_memAs b).ctrs _ _ _ (hunit _ _ _ _)

theorem memAs_submitWork (wk : Work) (n : Nat) (isE : Bool) (gen keyId addr blocks : Nat) (b : Block) :
    MemAs b (submitWork wk n isE gen keyId addr blocks b) := by
  unfold submitWork countItem
  split
  · exact memAs_submitLineF _ _ _ _ _ _ _ _ b
  · exact memAs_submitLineF _ _ _ _ _ _ _ _ b

theorem MemAs.placedAs {b c : Block} (h : MemAs b c) : PlacedAs b c := by
  obtain ⟨n, hn⟩ := h
  rw [PlacedAs, hn]
  rfl

theorem MemAs.lineIn {b c : Block} (h : MemAs b c) (a : Nat) : lineIn a c = lineIn a b := by
  obtain ⟨n, hn⟩ := h
  rw [Machine.lineIn, Machine.lineIn, hn]

theorem MemAs.wf {b c : Block} (h : MemAs b c) : c.mem.wf = b.mem.wf := by
  obtain ⟨n, hn⟩ := h
  rw [hn]
  rfl

/-! ### Stores and reads -/

/-- No line differs, nor what fixes the places of lines. -/
def LinesAs (b c : Block) : Prop := PlacedAs b c ∧ (∀ a, lineIn a c = lineIn a b) ∧ c.mem.wf = b.mem.wf

theorem LinesAs.refl (b : Block) : LinesAs b b := ⟨rfl, fun _ => rfl, rfl⟩

theorem LinesAs.trans {a b c : Block} (hab : LinesAs a b) (hbc : LinesAs b c) : LinesAs a c :=
  ⟨hab.1.trans hbc.1, fun k => (hbc.2.1 k).trans (hab.2.1 k), hbc.2.2.trans hab.2.2⟩

theorem MemAs.linesAs {b c : Block} (h : MemAs b c) : LinesAs b c := ⟨h.placedAs, h.lineIn, h.wf⟩

theorem linesAs_noteCopy (addr : Nat) (f : Option Moved → Moved) (b : Block) : LinesAs b (noteCopy addr f b) := by
  refine ⟨placedAs_noteCopy addr f b, fun a => lineIn_noteCopy a addr f b, ?_⟩
  unfold noteCopy
  split <;> rfl

theorem linesAs_bobPut (part : Option Nat) (level idx : Nat) (x : Line) (dirty : Bool) (b : Block) :
    LinesAs b (bobPut part level idx x dirty b) := ⟨rfl, fun _ => rfl, rfl⟩

theorem linesAs_rawRead (evs : MemEvs) (k : Nat) (x : Bool) (b : Block) : LinesAs b (rawRead evs k x b).2 :=
  ⟨placedAs_rawRead evs k x b, fun a => rawRead_lineIn evs a k x b, rfl⟩

/-- A line at `p` was replaced by `y`, and slot `j` of its MAC line at `q` by `mac`. -/
structure StoredAt (p q j : Nat) (y : Line) (mac : BitVec 64) (b c : Block) : Prop where
  placed : PlacedAs b c
  other : ∀ a, a ≠ p → a ≠ q → lineIn a c = lineIn a b
  wf : b.mem.wf = true → c.mem.wf = true
  line : p ≠ q → lineIn p c = y
  slot : macSlot (lineIn q c) j = mac

/-- What leaves the lines may follow a store. -/
theorem StoredAt.then {p q j : Nat} {y : Line} {mac : BitVec 64} {b c d : Block} (h : StoredAt p q j y mac b c) (hd : LinesAs c d) :
    StoredAt p q j y mac b d where
  placed := h.placed.trans hd.1
  other a hp hq := (hd.2.1 a).trans (h.other a hp hq)
  wf hb := hd.2.2.trans (h.wf hb)
  line hpq := (hd.2.1 p).trans (h.line hpq)
  slot := by rw [hd.2.1, h.slot]

/-- A whole line and then the slot of its MAC line are written. -/
theorem storedAt_memPut {p q j : Nat} {y : Line} {mac : BitVec 64} {b c d : Block} {w w' : Option WFor} {o : Option (Nat × Line)}
    (hj : j < 8) (hc : LinesAs b c) (hd : LinesAs (memPut p fullMask y w o false c) d) :
    StoredAt p q j y mac b (memPut q (slotMask j) (putMacSlot 0 j mac) w' none true d) where
  placed := hc.1.trans (hd.1.trans (placedAs_memPut q _ _ _ _ _ d))
  other a hp hq := by rw [memPut_lineIn_other hq, hd.2.1, memPut_lineIn_other hp, hc.2.1]
  wf hb := memPut_wf q _ _ _ _ _ (hd.2.2.trans (memPut_wf p _ _ _ _ _ (hc.2.2.trans hb)))
  line hpq := by rw [memPut_lineIn_other hpq, hd.2.1, memPut_lineIn_same, mergeLine_fullMask]
  slot := by rw [memPut_lineIn_same, macSlot_mergeLine _ hj]

theorem storedAt_writeLineB (count : BitVec 64) (addr : Nat) (x : Line) (b : Block) :
    StoredAt (dataPlace (addrTk addr b) addr b) (macPlace addr b).1 (macPlace addr b).2 (cryptLine b.mem.kbKey (.b count) addr x)
      (lineMac b.mem.kbKey (.b count) addr x) b (writeLineB count addr x b) := by
  have hunit : LinesAs b (submitLine none false 0 classBKeyId addr 4 5 b) := (memAs_submitLineF _ _ _ _ _ _ _ _ b).linesAs
  have hnoted := hunit.trans (linesAs_noteCopy addr (fun _ => .stored (cryptLine b.mem.kbKey (.b count) addr x)) _)
  have hstore := storedAt_memPut (w := none) (w' := none) (o := none) (j := (macPlace addr b).2) (q := (macPlace addr b).1)
    (p := dataPlace (addrTk addr b) addr b) (y := cryptLine b.mem.kbKey (.b count) addr x)
    (mac := lineMac b.mem.kbKey (.b count) addr x) (Nat.mod_lt _ (by decide)) hnoted (LinesAs.refl _)
  unfold writeLineB
  dsimp only
  rw [hnoted.1.addrTk, hnoted.1.dataPlace, (hnoted.1.trans (placedAs_memPut _ _ _ _ _ _ _)).macPlace]
  exact hstore

theorem storedAt_storeLine (w : Option WFor) (key : Key) (maj : BitVec 64) (mnr step addr : Nat) (x : Line) (b : Block) :
    StoredAt (dataPlace (addrTk addr b) addr b) (macPlace addr b).1 (macPlace addr b).2 (cryptLine key (.s maj mnr step) addr x)
      (lineMac key (.s maj mnr step) addr x) b (storeLine w key (addrTk addr b) maj mnr step addr x b) := by
  have hnoted := linesAs_noteCopy addr (fun _ => .plain x) b
  have hstore := storedAt_memPut (w := w) (w' := w) (o := none) (j := (macPlace addr b).2) (q := (macPlace addr b).1)
    (p := dataPlace (addrTk addr b) addr b) (y := cryptLine key (.s maj mnr step) addr x)
    (mac := lineMac key (.s maj mnr step) addr x) (Nat.mod_lt _ (by decide)) hnoted (LinesAs.refl _)
  unfold storeLine
  dsimp only
  rw [(hnoted.1.trans (placedAs_memPut _ _ _ _ _ _ _)).macPlace]
  revert hstore
  generalize memPut _ _ _ _ _ true _ = c
  intro hstore
  cases amGet (bobKey 5 (addr / 512)) c.mem.bob with
  | none => exact hstore
  | some e => exact hstore.then (linesAs_bobPut _ _ _ _ _ _)

/-- A class E line with a MAC is stored with it. -/
theorem storedAt_storeE (w : Option WFor) (plain : Bool) (key : Key) (epoch : BitVec 64) (region addr : Nat) (x : Line) (b : Block) :
    StoredAt (dataPlace (addrTk addr b) addr b) (eMacPlace addr b).1 (eMacPlace addr b).2 (cryptLine key (.e epoch region) addr x)
      (lineMac key (.e epoch region) addr x) b (storeE w plain key epoch region true addr x b) := by
  have hnoted := linesAs_noteCopy addr (fun _ => .stored (cryptLine key (.e epoch region) addr x)) b
  unfold storeE
  dsimp only
  rw [if_pos rfl, hnoted.1.addrTk, hnoted.1.dataPlace, (hnoted.1.trans (placedAs_memPut _ _ _ _ _ _ _)).eMacPlace]
  exact storedAt_memPut (Nat.mod_lt _ (by decide)) hnoted (linesAs_noteCopy _ _ _)

/-- Without a MAC, a class E line alone is stored. -/
theorem storeE_noMac (w : Option WFor) (plain : Bool) (key : Key) (epoch : BitVec 64) (region addr : Nat) (x : Line) (b : Block) :
    let p := dataPlace (addrTk addr b) addr b
    let c := storeE w plain key epoch region false addr x b
    PlacedAs b c ∧ (∀ a, a ≠ p → lineIn a c = lineIn a b) ∧ (b.mem.wf = true → c.mem.wf = true) ∧
      lineIn p c = cryptLine key (.e epoch region) addr x := by
  obtain ⟨hplaced, hlines, hwf⟩ := linesAs_noteCopy addr (fun _ => .stored (cryptLine key (.e epoch region) addr x)) b
  unfold storeE
  dsimp only
  rw [if_neg Bool.false_ne_true]
  refine ⟨hplaced.trans (placedAs_memPut _ _ _ _ _ _ _), fun a ha => ?_, fun hb => memPut_wf _ _ _ _ _ _ (hwf.trans hb), ?_⟩
  · rw [hplaced.addrTk, hplaced.dataPlace, memPut_lineIn_other ha, hlines]
  · rw [hplaced.addrTk, hplaced.dataPlace, memPut_lineIn_same, mergeLine_fullMask]

/-- A line that verifies, of which no whorl is named wrong, is good at once. -/
theorem confirm_sound (key : Nat) (i : Item) (b : Block) : confirm [] key i true b = (.good, b) := rfl

theorem verifyLine_ok {place : Nat} {i : Item} {k : Key} {c : Ctr} {addr slot : Nat} {d : Ret} {m : Option Ret} {x : Line} (b : Block)
    (h : judgeLine k c addr slot d m = .ok x) : (verifyLine [] place i k c addr slot d m b).1 = .ok x := by
  have hx : cryptLine k c addr d.data = x := by
    unfold judgeLine at h
    dsimp only at h
    repeat' split at h
    all_goals cases h
    all_goals rfl
  cases m with
  | none => simp only [verifyLine, h]
  | some m => simp only [verifyLine, h, confirm_sound, hx]

section
variable {p q j : Nat} {k : Key} {ctr : Ctr} {addr : Nat} {x : Line} {b c d e : Block}

/-- What was stored is judged sound, whatever happened since that left the lines. -/
theorem StoredAt.judged (h : StoredAt p q j (cryptLine k ctr addr x) (lineMac k ctr addr x) b c) (hpq : p ≠ q)
    (hd : LinesAs c d) (he : LinesAs c e) :
    judgeLine k ctr addr j (rawRead [] p false d).1 (some (rawRead [] q true e).1) = .ok x := by
  simp [judgeLine, rawRead_data, hd.2.1, he.2.1, h.line hpq, h.slot]

end

theorem readLineB_stored {count : BitVec 64} {addr : Nat} {x : Line} {b c : Block} (hpq : dataPlace (addrTk addr b) addr b ≠ (macPlace addr b).1)
    (h : StoredAt (dataPlace (addrTk addr b) addr b) (macPlace addr b).1 (macPlace addr b).2 (cryptLine b.mem.kbKey (.b count) addr x)
      (lineMac b.mem.kbKey (.b count) addr x) b c) : (readLineB {} [] count addr c).1 = .ok x := by
  have hunit : LinesAs c (submitLineF false none false 0 classBKeyId addr 5 5 c) := (memAs_submitLineF _ _ _ _ _ _ _ _ c).linesAs
  have hplaced := h.placed.trans hunit.1
  have hread := hunit.trans (linesAs_rawRead [] (dataPlace (addrTk addr b) addr b) false _)
  unfold readLineB
  dsimp only
  rw [hplaced.addrTk, hplaced.dataPlace, (h.placed.trans hread.1).macPlace, h.placed.kbKey]
  simp [rawRead_data, hunit.2.1, hread.2.1, h.line hpq, h.slot, confirm_sound]

theorem readE_stored {epoch : BitVec 64} {region addr : Nat} {x : Line} {b c : Block} (wk : Work) (skein keyId : Nat) (g : KeyGen)
    (hpq : dataPlace (addrTk addr b) addr b ≠ (eMacPlace addr b).1)
    (h : StoredAt (dataPlace (addrTk addr b) addr b) (eMacPlace addr b).1 (eMacPlace addr b).2 (cryptLine g.key (.e epoch region) addr x)
      (lineMac g.key (.e epoch region) addr x) b c) : (readE [] wk skein keyId (some g) epoch region true addr c).1 = .ok x := by
  have hunit := (memAs_submitWork wk skein true (genNum (some g)) keyId addr 5 c).linesAs
  have hplaced := h.placed.trans hunit.1
  have hread := hunit.trans (linesAs_rawRead [] (dataPlace (addrTk addr b) addr b) false _)
  unfold readE
  dsimp only
  rw [if_pos rfl, if_pos rfl, hplaced.addrTk, hplaced.dataPlace, (h.placed.trans hread.1).eMacPlace]
  exact verifyLine_ok _ (h.judged hpq hunit hread)

theorem readE_noMac {epoch : BitVec 64} {region addr : Nat} {x : Line} {b c : Block} (wk : Work) (skein keyId : Nat) (g : KeyGen)
    (hplaced : PlacedAs b c) (h : lineIn (dataPlace (addrTk addr b) addr b) c = cryptLine g.key (.e epoch region) addr x) :
    (readE [] wk skein keyId (some g) epoch region false addr c).1 = .ok x := by
  have hunit := (memAs_submitWork wk skein true (genNum (some g)) keyId addr 4 c).linesAs
  have hsince := hplaced.trans hunit.1
  unfold readE
  dsimp only
  rw [if_neg Bool.false_ne_true, if_neg Bool.false_ne_true, hsince.addrTk, hsince.dataPlace]
  refine verifyLine_ok _ ?_
  simp [judgeLine, rawRead_data, hunit.2.1, h, genKey]

/-- Settles O52: a store replaces its line and one slot of its MAC line, and a read looks in the same places. -/
theorem storedLinesReadBack : Obligations.StoredLinesReadBack := by
  unfold Obligations.StoredLinesReadBack
  intro addr x b
  refine ⟨fun count => ?_, fun w plain macEn wk skein keyId g epoch region => ?_, fun w key maj mnr step => ?_⟩
  · have h := storedAt_writeLineB count addr x b
    exact ⟨⟨h.other, h.wf⟩, fun hpq => readLineB_stored hpq h⟩
  · cases macEn with
    | true =>
      have h := storedAt_storeE w plain g.key epoch region addr x b
      exact ⟨⟨h.other, h.wf⟩, fun hpq => readE_stored wk skein keyId g hpq h⟩
    | false =>
      obtain ⟨hplaced, hother, hwf, hline⟩ := storeE_noMac w plain g.key epoch region addr x b
      exact ⟨⟨fun a hp _ => hother a hp, hwf⟩, fun _ => readE_noMac wk skein keyId g hplaced hline⟩
  · have h := storedAt_storeLine w key maj mnr step addr x b
    exact ⟨⟨h.other, h.wf⟩, fun hpq => h.judged hpq (LinesAs.refl _) (LinesAs.refl _)⟩

end Sys2Proof.Machine
end

section
/-! A sealed frame parses and opens as what was sealed: its fields are byte strings of fixed lengths one after another, each of which
reads as the number that was written, and the keystream over the payload cancels itself (R210, R212). -/

namespace Sys2Proof.Machine

/-! ### Byte strings -/

@[simp] theorem length_toBytes {w : Nat} (n : Nat) (x : BitVec w) : (toBytes n x).length = n := by simp [toBytes]

@[simp] theorem length_leBytes (n v : Nat) : (leBytes n v).length = n := length_toBytes n _

@[simp] theorem length_sliceBytes (bs : Bytes) (off n : Nat) : (sliceBytes bs off n).length = n := by simp [sliceBytes]

/-- Bit `i` of a word read from bytes is that of its byte. -/
theorem getLsbD_ofBytes (w : Nat) (bs : Bytes) (i : Nat) :
    (ofBytes w bs).getLsbD i = (decide (i < w) && (bs.getD (i / 8) 0).getLsbD (i % 8)) := by
  induction bs generalizing i with
  | nil => simp [ofBytes]
  | cons x bs ih =>
    rw [ofBytes, BitVec.getLsbD_or, BitVec.getLsbD_setWidth, BitVec.getLsbD_shiftLeft, ih]
    by_cases hi : i < 8
    · simp [hi, Nat.div_eq_of_lt hi, Nat.mod_eq_of_lt hi]
    · have hdiv : i / 8 = (i - 8) / 8 + 1 := by omega
      have hmod : (i - 8) % 8 = i % 8 := by omega
      have hw : i < w → i - 8 < w := by omega
      have hout : x.getLsbD i = false := BitVec.getLsbD_of_ge x i (by omega)
      rw [hdiv, List.getD_cons_succ, hmod, hout]
      by_cases hlt : i < w <;> simp [hi, hlt, hw]

/-- The bytes of a word read back as the word. -/
theorem ofBytes_toBytes {n : Nat} (x : BitVec (8 * n)) : ofBytes (8 * n) (toBytes n x) = x := by
  refine BitVec.eq_of_getLsbD_eq fun i hi => ?_
  have hbyte : i / 8 < n := by omega
  have hpos : 8 * (i / 8) + i % 8 = i := by omega
  rw [getLsbD_ofBytes, toBytes, List.getD_eq_getElem?_getD, List.getElem?_map, List.getElem?_range hbyte]
  simp [byteAt, hi, hpos, Nat.mod_lt]

/-- The part of a byte string between two others. -/
theorem sliceBytes_append (a m c : Bytes) : sliceBytes (a ++ (m ++ c)) a.length m.length = m := by
  refine List.ext_getElem (by simp) fun i hi _ => ?_
  have him : i < m.length := by simpa using hi
  have hm : (m ++ c)[i]? = some m[i] := by rw [List.getElem?_append_left him, List.getElem?_eq_getElem him]
  simp [sliceBytes, List.getElem?_append_right, hm]

/-- A number written in a byte string reads back. -/
theorem leField_append (a c : Bytes) {n v : Nat} (hv : v < 2 ^ (8 * n)) : leField (a ++ (leBytes n v ++ c)) a.length n = v := by
  have hslice := sliceBytes_append a (leBytes n v) c
  rw [length_leBytes] at hslice
  rw [leField, hslice, leBytes, ofBytes_toBytes, BitVec.toNat_ofNat, Nat.mod_eq_of_lt hv]

/-! ### The header -/

theorem length_headerBytes (h : Header) : h.bytes.length = 32 := by simp [Header.bytes]

/-- The fields of a header, before whatever follows it. -/
theorem header_fields (h : Header) (c : Bytes) (hkind : h.kind < 64) (hdie : h.die < 4) (hflits : h.flits ≤ 8) (hrgen : h.rgen < 4)
    (hsession : h.session < 65536) (hparam : h.param < 2 ^ 32) (hnonce : h.nonce < 2 ^ 64) (hextra : h.extra < 2 ^ 64) :
    let f := h.bytes ++ c
    leField f 0 1 = h.kind + 64 * h.die ∧ leField f 1 1 = h.flits + 16 * h.rgen + 64 * b2n h.ns ∧
      leField f 2 2 = h.session ∧ leField f 4 4 = h.param ∧ leField f 8 8 = h.addr.toNat ∧ leField f 16 8 = h.nonce ∧
      leField f 24 8 = h.extra := by
  have hns : b2n h.ns ≤ 1 := by cases h.ns <;> simp [b2n]
  let f0 := leBytes 1 (h.kind + 64 * h.die)
  let f1 := leBytes 1 (h.flits + 16 * h.rgen + 64 * b2n h.ns)
  let f2 := leBytes 2 h.session
  let f4 := leBytes 4 h.param
  let f8 := leBytes 8 h.addr.toNat
  let f16 := leBytes 8 h.nonce
  let f24 := leBytes 8 h.extra
  have haddr : toBytes 8 h.addr = f8 := by simp [f8, leBytes]
  have hbytes : h.bytes ++ c = f0 ++ (f1 ++ (f2 ++ (f4 ++ (f8 ++ (f16 ++ (f24 ++ c)))))) := by
    have hflits' : h.flits % 16 = h.flits := Nat.mod_eq_of_lt (by omega)
    simp only [Header.bytes, haddr, hflits', Nat.mod_eq_of_lt hkind, Nat.mod_eq_of_lt hdie, Nat.mod_eq_of_lt hrgen, List.append_assoc, f0,
      f1, f2, f4, f16, f24]
  dsimp only
  rw [hbytes]
  refine ⟨leField_append [] _ (by omega), leField_append f0 _ (by omega), ?_, ?_, ?_, ?_, ?_⟩
  · simpa [f0, f1] using leField_append (f0 ++ f1) (f4 ++ (f8 ++ (f16 ++ (f24 ++ c)))) (n := 2) hsession
  · simpa [f0, f1, f2] using leField_append (f0 ++ f1 ++ f2) (f8 ++ (f16 ++ (f24 ++ c))) (n := 4) hparam
  · simpa [f0, f1, f2, f4] using leField_append (f0 ++ f1 ++ f2 ++ f4) (f16 ++ (f24 ++ c)) (n := 8) h.addr.isLt
  · simpa [f0, f1, f2, f4, f8] using leField_append (f0 ++ f1 ++ f2 ++ f4 ++ f8) (f24 ++ c) (n := 8) hnonce
  · simpa [f0, f1, f2, f4, f8, f16] using leField_append (f0 ++ f1 ++ f2 ++ f4 ++ f8 ++ f16) c (n := 8) hextra

/-- A frame of a header's length and fields parses as the header. -/
theorem parseHeader_of_fields {h : Header} {f : Bytes} (hflits : h.flits ≤ 8) (hrgen : h.rgen < 4) (hkind : h.kind < 64)
    (hlength : f.length = 48 + 32 * h.flits)
    (hfields : leField f 0 1 = h.kind + 64 * h.die ∧ leField f 1 1 = h.flits + 16 * h.rgen + 64 * b2n h.ns ∧ leField f 2 2 = h.session ∧
      leField f 4 4 = h.param ∧ leField f 8 8 = h.addr.toNat ∧ leField f 16 8 = h.nonce ∧ leField f 24 8 = h.extra) :
    parseHeader f = some h := by
  obtain ⟨hk, hx, hs, hp, ha, hn, he⟩ := hfields
  have hns : b2n h.ns ≤ 1 := by cases h.ns <;> simp [b2n]
  have hnsBit : (b2n h.ns == 1) = h.ns := by cases h.ns <;> simp [b2n]
  have hx16 : (h.flits + 16 * h.rgen + 64 * b2n h.ns) % 16 = h.flits := by omega
  have hxrgen : (h.flits + 16 * h.rgen + 64 * b2n h.ns) / 16 % 4 = h.rgen := by omega
  have hxns : (h.flits + 16 * h.rgen + 64 * b2n h.ns) / 64 % 2 = b2n h.ns := by omega
  have hkindMod : (h.kind + 64 * h.die) % 64 = h.kind := by omega
  have hdieDiv : (h.kind + 64 * h.die) / 64 = h.die := by omega
  have hsound : ¬(128 ≤ h.flits + 16 * h.rgen + 64 * b2n h.ns) := by omega
  unfold parseHeader
  dsimp only
  rw [hk, hx, hs, hp, ha, hn, he, hx16, hxrgen, hxns, hnsBit, hkindMod, hdieDiv, BitVec.ofNat_toNat, BitVec.setWidth_eq, if_neg]
  simp [hsound, Nat.not_lt.mpr hflits, hlength]

/-! ### The payload -/

theorem xorBytes_xorBytes : ∀ {p ks : Bytes}, p.length ≤ ks.length → xorBytes (xorBytes p ks) ks = p
  | [], _, _ => rfl
  | x :: p, [], h => by simp at h
  | x :: p, k :: ks, h => by
    have ih : xorBytes (xorBytes p ks) ks = p := xorBytes_xorBytes (by simpa using h)
    have hx : x ^^^ k ^^^ k = x := by rw [BitVec.xor_assoc, BitVec.xor_self, BitVec.xor_zero]
    show (x ^^^ k ^^^ k) :: xorBytes (xorBytes p ks) ks = x :: p
    rw [hx, ih]

/-- The keystream of a frame with a payload of `n` bytes. -/
def frameStream (k : Key) (h : Header) (origin n : Nat) : Bytes :=
  (List.range ((n + 15) / 16)).flatMap fun i => toBytes 16 (aes256 k (frameBlk h.nonce h.ns origin h.kind i))

theorem length_frameStream (k : Key) (h : Header) (origin n : Nat) : n ≤ (frameStream k h origin n).length := by
  simp only [frameStream, List.length_flatMap, length_toBytes, List.map_const', List.length_range, List.sum_replicate_nat]
  omega

theorem frameCrypt_eq (k : Key) (h : Header) (origin : Nat) (p : Bytes) :
    frameCrypt k h origin p = xorBytes p (frameStream k h origin p.length) := rfl

@[simp] theorem length_frameCrypt (k : Key) (h : Header) (origin : Nat) (p : Bytes) : (frameCrypt k h origin p).length = p.length := by
  rw [frameCrypt_eq, xorBytes, List.length_zipWith, Nat.min_eq_left (length_frameStream k h origin p.length)]

@[simp] theorem frameCrypt_frameCrypt (k : Key) (h : Header) (origin : Nat) (p : Bytes) :
    frameCrypt k h origin (frameCrypt k h origin p) = p := by
  rw [frameCrypt_eq _ _ _ (frameCrypt k h origin p), length_frameCrypt, frameCrypt_eq,
    xorBytes_xorBytes (length_frameStream k h origin p.length)]

/-! ### Frames -/

/-- A frame of a header, a ciphertext and a trailer opens exactly where the trailer is the tag. -/
theorem openFrame_append (k : Key) (h : Header) (origin : Nat) (ct t : Bytes) (hct : ct.length = 32 * h.flits) :
    openFrame k h origin (h.bytes ++ ct ++ t) =
      if toBytes 16 (frameTag k h origin h.bytes ct) = t then some (frameCrypt k h origin ct) else none := by
  have hslice : sliceBytes (h.bytes ++ ct ++ t) 32 (32 * h.flits) = ct := by
    have hmid := sliceBytes_append h.bytes ct t
    rwa [length_headerBytes, hct, ← List.append_assoc] at hmid
  have htake : (h.bytes ++ ct ++ t).take 32 = h.bytes := by
    rw [List.append_assoc, ← length_headerBytes h, List.take_left]
  have hdrop : (h.bytes ++ ct ++ t).drop (32 + 32 * h.flits) = t :=
    List.drop_left' (by rw [List.length_append, length_headerBytes, hct])
  rw [openFrame, hslice, htake, hdrop]

/-- Settles O54: a frame is its header, its ciphertext and its tag, each of which is found where it was put. -/
theorem weftFramesRoundTrip : Obligations.WeftFramesRoundTrip := by
  unfold Obligations.WeftFramesRoundTrip
  intro k h origin p hkind hdie hflits hrgen hsession hparam hnonce hextra hlen
  have hct : (frameCrypt k h origin p).length = 32 * h.flits := by rw [length_frameCrypt, hlen]
  have hlength : (sealFrame k h origin p).length = 48 + 32 * h.flits := by
    simp [sealFrame, length_headerBytes, hlen]
    omega
  have hfront : (sealFrame k h origin p).take (32 + 32 * h.flits) = h.bytes ++ frameCrypt k h origin p :=
    List.take_left' (by rw [List.length_append, length_headerBytes, hct])
  have hback : (sealFrame k h origin p).drop (32 + 32 * h.flits) = toBytes 16 (frameTag k h origin h.bytes (frameCrypt k h origin p)) :=
    List.drop_left' (by rw [List.length_append, length_headerBytes, hct])
  refine ⟨?_, ?_, hlength, fun t ht => ?_⟩
  · refine parseHeader_of_fields hflits hrgen hkind hlength ?_
    rw [sealFrame, List.append_assoc]
    exact header_fields h _ hkind hdie hflits hrgen hsession hparam hnonce hextra
  · rw [sealFrame, openFrame_append _ _ _ _ _ hct, if_pos rfl, frameCrypt_frameCrypt]
  · rw [hfront, openFrame_append _ _ _ _ _ hct, if_neg fun hsame => ht (hback.trans hsame).symm]

end Sys2Proof.Machine
end

section
/-! An exact sum does not depend on the order of its addends: no partial sum overflows, so the state is the join of the addends' states, and
where it stays finite the value is the sum of the integers (R182, R183). -/

namespace Sys2Proof.Machine

/-! ### One addition -/

/-- The state that two parts of a sum leave together (R183). -/
def AccSt.join : AccSt → AccSt → AccSt
  | .fin, t => t
  | s, .fin => s
  | s, t => if s = t then s else .nan

/-- What an addend alone makes of a finite accumulator. -/
def FV.state : FV → AccSt
  | .nan => .nan
  | .inf true => .ninf
  | .inf false => .pinf
  | .fin _ _ => .fin

/-- The integer that a finite addend is. -/
def FV.signed (x : FV) : Int := match x with
  | .fin true m => -(m : Int)
  | .fin false m => (m : Int)
  | _ => 0

theorem AccSt.join_right_comm (s t u : AccSt) : (s.join t).join u = (s.join u).join t := by cases s <;> cases t <;> cases u <;> rfl

theorem AccSt.join_eq_fin {s t : AccSt} (h : s.join t = .fin) : s = .fin ∧ t = .fin := by
  cases s <;> cases t <;> first | exact ⟨rfl, rfl⟩ | cases h

theorem FV.natAbs_signed_le (x : FV) : x.signed.natAbs ≤ x.mag := by
  cases x with
  | fin neg m => cases neg <;> simp [FV.signed, FV.mag]
  | nan => simp [FV.signed]
  | inf _ => simp [FV.signed]

/-- An addition that cannot overflow joins the states, and adds the integer where both are finite. -/
theorem Acc.add_eq {a : Acc} {x : FV} (h : a.v.natAbs + x.mag < 2 ^ 287) :
    (a.add x).1 = { st := a.st.join x.state, v := if a.st.join x.state = .fin then a.v + x.signed else a.v } := by
  obtain ⟨st, v⟩ := a
  cases x with
  | nan => cases st <;> rfl
  | inf neg => cases neg <;> cases st <;> rfl
  | fin neg m =>
    have hbound : v.natAbs + m < 2 ^ 287 := h
    cases st with
    | fin =>
      have hsum : (if neg then v - (m : Int) else v + (m : Int)) = v + (FV.fin neg m).signed := by
        cases neg <;> simp [FV.signed]
        omega
      have hle := (FV.fin neg m).natAbs_signed_le
      have hin : ¬(v + (FV.fin neg m).signed ≥ 2 ^ 287 ∨ v + (FV.fin neg m).signed < -(2 ^ 287)) := by
        simp only [FV.mag] at hle
        omega
      simp only [Acc.add, hsum, Bool.or_eq_true, decide_eq_true_eq, if_neg hin, AccSt.join, FV.state, if_true]
    | pinf => rfl
    | ninf => rfl
    | nan => rfl

theorem Acc.natAbs_add_le {a : Acc} {x : FV} (h : a.v.natAbs + x.mag < 2 ^ 287) : (a.add x).1.v.natAbs ≤ a.v.natAbs + x.mag := by
  have hle := x.natAbs_signed_le
  rw [Acc.add_eq h]
  dsimp only
  split <;> omega

/-! ### Sums -/

/-- The accumulator after a list of addends. -/
def Acc.sum (a : Acc) (xs : List FV) : Acc := xs.foldl (fun c x => (c.add x).1) a

theorem sumNat_cons (n : Nat) (l : List Nat) : sumNat (n :: l) = n + sumNat l := by
  rw [sumNat, sumNat, ← List.sum_eq_foldl_nat, ← List.sum_eq_foldl_nat, List.sum_cons]

/-- The states of a list, joined to one. -/
def joinStates (s : AccSt) (xs : List FV) : AccSt := xs.foldl (fun s x => s.join x.state) s

theorem joinStates_perm {xs ys : List FV} (h : xs.Perm ys) (s : AccSt) : joinStates s xs = joinStates s ys :=
  h.foldl_eq' (fun x _ y _ s => AccSt.join_right_comm s x.state y.state) s

theorem joinStates_eq_fin {s : AccSt} {xs : List FV} (h : joinStates s xs = .fin) : s = .fin := by
  induction xs generalizing s with
  | nil => exact h
  | cons x xs ih => exact (AccSt.join_eq_fin (ih h)).1

theorem joinStates_of_isFin {xs : List FV} (h : xs.all FV.isFin = true) : joinStates .fin xs = .fin := by
  induction xs with
  | nil => rfl
  | cons x xs ih =>
    simp only [List.all_cons, Bool.and_eq_true] at h
    cases x with
    | fin neg m => exact ih h.2
    | nan => exact absurd h.1 Bool.false_ne_true
    | inf neg => exact absurd h.1 Bool.false_ne_true

/-- A sum that cannot overflow: its state, and its value where it is finite. -/
theorem Acc.sum_eq (xs : List FV) : ∀ a : Acc, a.v.natAbs + sumNat (xs.map FV.mag) < 2 ^ 287 →
    (a.sum xs).st = joinStates a.st xs ∧ ((a.sum xs).st = .fin → (a.sum xs).v = a.v + (xs.map FV.signed).sum) := by
  induction xs with
  | nil => exact fun a _ => ⟨rfl, fun _ => by simp [Acc.sum]⟩
  | cons x xs ih =>
    intro a h
    rw [List.map_cons, sumNat_cons] at h
    have hx : a.v.natAbs + x.mag < 2 ^ 287 := by omega
    have hle := Acc.natAbs_add_le hx
    obtain ⟨hst, hv⟩ := ih (a.add x).1 (by omega)
    have hadd := Acc.add_eq hx
    have hstep : (a.add x).1.st = a.st.join x.state := by rw [hadd]
    refine ⟨by rw [show a.sum (x :: xs) = (a.add x).1.sum xs from rfl, hst, hstep]; rfl, fun hfin => ?_⟩
    have hjoin : a.st.join x.state = .fin := hstep ▸ joinStates_eq_fin (hst ▸ hfin)
    have hval : (a.add x).1.v = a.v + x.signed := by rw [hadd, if_pos hjoin]
    rw [show a.sum (x :: xs) = (a.add x).1.sum xs from rfl, hv hfin, hval, List.map_cons, List.sum_cons, Int.add_assoc]

/-- The value is that of the state and, where it is finite, of the integer alone. -/
theorem Acc.value_congr {a c : Acc} (hst : a.st = c.st) (hv : a.st = .fin → a.v = c.v) : a.value = c.value := by
  unfold Acc.value
  cases ha : a.st with
  | fin => rw [← hst, ha, hv ha]
  | pinf => rw [← hst, ha]
  | ninf => rw [← hst, ha]
  | nan => rw [← hst, ha]

theorem sum_perm_int {xs ys : List Int} (h : xs.Perm ys) : xs.sum = ys.sum :=
  h.foldr_eq' (f := fun x z => x + z) (fun x _ y _ z => Int.add_left_comm y x z) 0

/-- Settles O56: states join in any order, and so do integers. -/
theorem exactSumsIgnoreOrder : Obligations.ExactSumsIgnoreOrder := by
  unfold Obligations.ExactSumsIgnoreOrder
  intro a xs ys hperm hbound
  have hbound' : a.v.natAbs + sumNat (ys.map FV.mag) < 2 ^ 287 := by
    rwa [sumNat, ← List.sum_eq_foldl_nat, ← (hperm.map FV.mag).sum_nat, List.sum_eq_foldl_nat, ← sumNat]
  obtain ⟨hxs, hxv⟩ := Acc.sum_eq xs a hbound
  obtain ⟨hys, hyv⟩ := Acc.sum_eq ys a hbound'
  have hst : (a.sum xs).st = (a.sum ys).st := by rw [hxs, hys, joinStates_perm hperm]
  refine ⟨Acc.value_congr hst fun hfin => ?_, fun ha hall => ?_⟩
  · have hsum : (a.sum xs).v = (a.sum ys).v := by rw [hxv hfin, hyv (hst ▸ hfin), sum_perm_int (hperm.map FV.signed)]
    exact hsum
  · have hfin : (a.sum xs).st = .fin := by rw [hxs, ha, joinStates_of_isFin hall]
    refine ⟨hfin, (hxv hfin).trans ?_⟩
    rw [List.sum_eq_foldl]
    rfl

end Sys2Proof.Machine
end

section
/-! The internal code: every bit of a word and of its check bits has a weight of its own, a flip adds its weight to the syndrome and
turns the parity, and a word with the check bits it is given has neither (R394). -/

namespace Sys2Proof.Machine

/-! ### Sums of weights -/

theorem xor_xor_self (a b : Nat) : a ^^^ b ^^^ b = a := by rw [Nat.xor_assoc, Nat.xor_self, Nat.xor_zero]

theorem eq_of_xor_eq_zero {a b : Nat} (h : a ^^^ b = 0) : a = b := by rw [← xor_xor_self a b, h, Nat.zero_xor]

/-! ### Weights -/

theorem length_eccPositions : eccPositions.length = 256 := by decide +kernel

theorem eccPos_eq_getElem {j : Nat} (h : j < eccPositions.length) : eccPos j = eccPositions[j] := by
  rw [eccPos, List.getD_eq_getElem?_getD, List.getElem?_eq_getElem h, Option.getD_some]

theorem eccPos_mem {j : Nat} (h : j < 256) : eccPos j ∈ eccPositions := by
  rw [eccPos_eq_getElem (by rwa [length_eccPositions])]
  exact List.getElem_mem _

/-- The weight of a data bit is at least 3, below 266 and no power of two. -/
theorem eccPos_spec {j : Nat} (h : j < 256) : 3 ≤ eccPos j ∧ eccPos j < 266 ∧ isPow2 (eccPos j) = false := by
  have hmem := eccPos_mem h
  simp only [eccPositions, List.mem_filter, List.mem_range, Bool.and_eq_true, decide_eq_true_eq, Bool.not_eq_true'] at hmem
  exact ⟨hmem.2.1, hmem.1, hmem.2.2⟩

theorem eccPos_injective {i j : Nat} (hi : i < 256) (hj : j < 256) (h : eccPos i = eccPos j) : i = j := by
  have hnodup : eccPositions.Nodup := List.nodup_range.filter _
  rw [eccPos_eq_getElem (by rwa [length_eccPositions]), eccPos_eq_getElem (by rwa [length_eccPositions])] at h
  exact (List.getElem_inj hnodup).mp h

theorem isPow2_two_pow (k : Nat) : isPow2 (2 ^ k) = true := by simp [isPow2, Nat.log2_two_pow]

/-- The weight of bit `i` of the 266: of a data bit its position, of a check bit the power of two, of the parity bit none. -/
def eccWeight (i : Nat) : Nat := if i < 256 then eccPos i else if i < 265 then 2 ^ (i - 256) else 0

theorem eccWeight_injective {i j : Nat} (hi : i < 266) (hj : j < 266) (h : eccWeight i = eccWeight j) : i = j := by
  have hcheck : ∀ {a b : Nat}, a < 256 → 256 ≤ b → eccWeight a ≠ eccWeight b := by
    intro a b ha hb hab
    obtain ⟨hge, -, hpow⟩ := eccPos_spec ha
    rw [eccWeight, if_pos ha, eccWeight, if_neg (Nat.not_lt.mpr hb)] at hab
    split at hab
    · rw [hab, isPow2_two_pow] at hpow
      cases hpow
    · omega
  by_cases hi' : i < 256 <;> by_cases hj' : j < 256
  · rw [eccWeight, if_pos hi', eccWeight, if_pos hj'] at h
    exact eccPos_injective hi' hj' h
  · exact absurd h (hcheck hi' (Nat.not_lt.mp hj'))
  · exact absurd h.symm (hcheck hj' (Nat.not_lt.mp hi'))
  · rw [eccWeight, if_neg hi', eccWeight, if_neg hj'] at h
    have hpos : ∀ k, 0 < 2 ^ k := fun k => Nat.two_pow_pos k
    split at h <;> split at h
    · have := (Nat.pow_right_inj (by decide : 1 < 2)).mp h
      omega
    · exact absurd h (Nat.ne_of_gt (hpos _))
    · exact absurd h.symm (Nat.ne_of_gt (hpos _))
    · omega

/-! ### Syndrome and parity -/

/-- The weights of the set bits below `n`, added to `t`. -/
def addWeights (d : BitVec 256) (n t : Nat) : Nat := (List.range n).foldl (fun t j => if d.getLsbD j then t ^^^ eccPos j else t) t

/-- The parity of the bits below `n`. -/
def parityBelow {w : Nat} (x : BitVec w) (n : Nat) : Bool := parityOf ((List.range n).map x.getLsbD)

theorem addWeights_succ (d : BitVec 256) (n t : Nat) :
    addWeights d (n + 1) t = if d.getLsbD n then addWeights d n t ^^^ eccPos n else addWeights d n t := by
  rw [addWeights, List.range_succ, List.foldl_append]
  rfl

theorem parityBelow_succ {w : Nat} (x : BitVec w) (n : Nat) : parityBelow x (n + 1) = (parityBelow x n != x.getLsbD n) := by
  rw [parityBelow, parityOf, List.range_succ, List.map_append, List.foldl_append]
  rfl

theorem addWeights_start (d : BitVec 256) (n t : Nat) : addWeights d n t = t ^^^ addWeights d n 0 := by
  induction n with
  | zero => simp [addWeights]
  | succ n ih =>
    rw [addWeights_succ, addWeights_succ, ih]
    split
    · rw [Nat.xor_assoc]
    · rfl

theorem addWeights_lt (d : BitVec 256) {n : Nat} (hn : n ≤ 256) : addWeights d n 0 < 512 := by
  induction n with
  | zero => simp [addWeights]
  | succ n ih =>
    rw [addWeights_succ]
    split
    · have hpos := (eccPos_spec (j := n) (by omega)).2.1
      exact Nat.xor_lt_two_pow (n := 9) (ih (by omega)) (by omega)
    · exact ih (by omega)

/-- A word with one bit flipped. -/
def flipBit {w : Nat} (i : Nat) (x : BitVec w) : BitVec w := x ^^^ BitVec.ofNat w (1 <<< i)

theorem flipBit_flipBit {w : Nat} (i : Nat) (x : BitVec w) : flipBit i (flipBit i x) = x := by
  rw [flipBit, flipBit, BitVec.xor_assoc, BitVec.xor_self, BitVec.xor_zero]

theorem getLsbD_flipBit {w : Nat} (x : BitVec w) {i : Nat} (hi : i < w) (j : Nat) :
    (flipBit i x).getLsbD j = (x.getLsbD j != decide (j = i)) := by
  have hbit : (BitVec.ofNat w (1 <<< i)).getLsbD j = decide (j = i) := by
    rw [BitVec.getLsbD_ofNat, Nat.one_shiftLeft, Nat.testBit_two_pow, Bool.eq_iff_iff]
    simp only [Bool.and_eq_true, decide_eq_true_eq]
    omega
  rw [flipBit, BitVec.getLsbD_xor]
  exact congrArg (x.getLsbD j != ·) hbit

theorem addWeights_flip (d : BitVec 256) {i : Nat} (hi : i < 256) (n t : Nat) :
    addWeights (flipBit i d) n t = addWeights d n t ^^^ (if i < n then eccPos i else 0) := by
  induction n with
  | zero => simp [addWeights]
  | succ n ih =>
    rw [addWeights_succ, addWeights_succ, ih, getLsbD_flipBit d hi]
    by_cases hn : n = i
    · subst hn
      cases d.getLsbD n <;> simp [xor_xor_self]
    · have hlt : i < n + 1 ↔ i < n := by omega
      simp only [hlt, hn, decide_false, Bool.bne_false]
      split
      · rw [Nat.xor_assoc, Nat.xor_comm _ (eccPos n), Nat.xor_assoc]
      · rfl

theorem parityBelow_flip {w : Nat} (x : BitVec w) {i : Nat} (hi : i < w) (n : Nat) :
    parityBelow (flipBit i x) n = (parityBelow x n != decide (i < n)) := by
  induction n with
  | zero => simp [parityBelow]
  | succ n ih =>
    rw [parityBelow_succ, parityBelow_succ, ih, getLsbD_flipBit x hi]
    by_cases hn : n = i
    · subst hn
      cases parityBelow x n <;> cases x.getLsbD n <;> simp
    · have hlt : i < n + 1 ↔ i < n := by omega
      simp only [hlt, hn, decide_false, Bool.bne_false]
      cases parityBelow x n <;> cases x.getLsbD n <;> simp

/-- The syndrome of a word with check bits. -/
def eccSyndrome (d : BitVec 256) (c : BitVec 10) : Nat := addWeights d 256 (c.toNat % 512)

/-- The parity of a word with check bits. -/
def eccParity (d : BitVec 256) (c : BitVec 10) : Bool := parityBelow d 256 != parityBelow c 10

/-! ### Encoded words -/

theorem eccEncode_eq (d : BitVec 256) :
    eccEncode d = BitVec.ofNat 10 (addWeights d 256 0 +
      512 * b2n (parityBelow d 256 != parityOf ((List.range 9).map (addWeights d 256 0).testBit))) := by
  simp only [eccEncode, addWeights, parityBelow]

theorem eccSyndrome_encode (d : BitVec 256) : eccSyndrome d (eccEncode d) = 0 := by
  have hlt := addWeights_lt d (Nat.le_refl 256)
  have hcheck : (eccEncode d).toNat % 512 = addWeights d 256 0 := by
    rw [eccEncode_eq, BitVec.toNat_ofNat]
    omega
  rw [eccSyndrome, addWeights_start, hcheck, Nat.xor_self]

theorem eccParity_encode (d : BitVec 256) : eccParity d (eccEncode d) = false := by
  have hlt := addWeights_lt d (Nat.le_refl 256)
  have hlow : ∀ i, i < 9 → (eccEncode d).getLsbD i = (addWeights d 256 0).testBit i := by
    intro i hi
    rw [eccEncode_eq, BitVec.getLsbD_ofNat, decide_eq_true (by omega), Bool.true_and, Nat.add_comm,
      show (512 : Nat) = 2 ^ 9 from rfl, Nat.testBit_two_pow_mul_add _ hlt, if_pos hi]
  have htop : ∀ p : Bool, (BitVec.ofNat 10 (addWeights d 256 0 + 512 * b2n p)).getLsbD 9 = p := by
    intro p
    rw [BitVec.getLsbD_ofNat, decide_eq_true (by omega), Bool.true_and, Nat.add_comm, show (512 : Nat) = 2 ^ 9 from rfl,
      Nat.testBit_two_pow_mul_add _ hlt, if_neg (by omega)]
    cases p <;> rfl
  have hnine : parityBelow (eccEncode d) 9 = parityOf ((List.range 9).map (addWeights d 256 0).testBit) := by
    rw [parityBelow, List.map_congr_left fun i hi => hlow i (List.mem_range.mp hi)]
  rw [eccParity, parityBelow_succ (n := 9), hnine, eccEncode_eq, htop]
  cases parityBelow d 256 <;> cases parityOf ((List.range 9).map (addWeights d 256 0).testBit) <;> rfl

/-! ### Flips -/

/-- The data with bit `i` of the 266 flipped. -/
def flipData (i : Nat) (x : BitVec 256) : BitVec 256 := if i < 256 then flipBit i x else x

/-- The check bits with bit `i` of the 266 flipped. -/
def flipCheck (i : Nat) (x : BitVec 10) : BitVec 10 := if i < 256 then x else flipBit (i - 256) x

theorem toNat_flipBit_mod (c : BitVec 10) {k : Nat} (hk : k < 10) : (flipBit k c).toNat % 512 = c.toNat % 512 ^^^ (if k < 9 then 2 ^ k else 0) := by
  have hbit : (BitVec.ofNat 10 (1 <<< k)).toNat % 512 = if k < 9 then 2 ^ k else 0 := by
    revert k
    decide
  rw [flipBit, BitVec.toNat_xor, show (512 : Nat) = 2 ^ 9 from rfl, Nat.xor_mod_two_pow, ← hbit]

/-- A flip adds the weight of its bit. -/
theorem eccSyndrome_flip (d : BitVec 256) (c : BitVec 10) {i : Nat} (hi : i < 266) :
    eccSyndrome (flipData i d) (flipCheck i c) = eccSyndrome d c ^^^ eccWeight i := by
  unfold eccSyndrome flipData flipCheck eccWeight
  by_cases hd : i < 256
  · rw [if_pos hd, if_pos hd, if_pos hd, addWeights_flip d hd, if_pos hd]
  · have hlt : i - 256 < 9 ↔ i < 265 := by omega
    rw [if_neg hd, if_neg hd, if_neg hd, toNat_flipBit_mod c (by omega), addWeights_start, addWeights_start d 256 (c.toNat % 512)]
    simp only [hlt]
    rw [Nat.xor_assoc, Nat.xor_assoc, Nat.xor_comm (addWeights d 256 0)]

/-- A flip turns the parity. -/
theorem eccParity_flip (d : BitVec 256) (c : BitVec 10) {i : Nat} (hi : i < 266) :
    eccParity (flipData i d) (flipCheck i c) = !eccParity d c := by
  unfold eccParity flipData flipCheck
  by_cases hd : i < 256
  · rw [if_pos hd, if_pos hd, parityBelow_flip d hd]
    cases parityBelow d 256 <;> cases parityBelow c 10 <;> simp [hd]
  · rw [if_neg hd, if_neg hd, parityBelow_flip c (by omega)]
    have hk : i - 256 < 10 := by omega
    cases parityBelow d 256 <;> cases parityBelow c 10 <;> simp [hk]

/-! ### Outcomes -/

theorem eccDecode_clean {d : BitVec 256} {c : BitVec 10} (ht : eccSyndrome d c = 0) (hp : eccParity d c = false) : eccDecode d c = .clean := by
  simp only [eccSyndrome, addWeights, eccParity, parityBelow] at ht hp
  simp [eccDecode, ht, hp]

theorem eccDecode_uncorrectable {d : BitVec 256} {c : BitVec 10} (ht : eccSyndrome d c ≠ 0) (hp : eccParity d c = false) :
    eccDecode d c = .uncorrectable := by
  simp only [eccSyndrome, addWeights, eccParity, parityBelow] at ht hp
  simp [eccDecode, ht, hp]

/-- A syndrome that a check bit or the parity bit leaves: the data is right. -/
theorem eccDecode_check {d : BitVec 256} {c : BitVec 10} (ht : eccSyndrome d c = 0 ∨ isPow2 (eccSyndrome d c) = true)
    (hp : eccParity d c = true) : eccDecode d c = .corrected d := by
  simp only [eccSyndrome, addWeights, eccParity, parityBelow] at ht hp
  simp [eccDecode, ht, hp]

/-- The syndrome that a data bit leaves names the bit. -/
theorem eccDecode_data {d : BitVec 256} {c : BitVec 10} {i : Nat} (hi : i < 256) (ht : eccSyndrome d c = eccPos i)
    (hp : eccParity d c = true) : eccDecode d c = .corrected (flipBit i d) := by
  obtain ⟨hge, -, hpow⟩ := eccPos_spec hi
  have hzero : eccPos i ≠ 0 := by omega
  have hfound : findBelow 256 (fun j => eccPos j == eccPos i) = some i := by
    rw [findBelow, List.find?_range_eq_some]
    refine ⟨by simp, List.mem_range.mpr hi, fun j hj => ?_⟩
    have hne : eccPos j ≠ eccPos i := fun h => absurd (eccPos_injective (by omega) hi h) (by omega)
    simpa using hne
  simp only [eccSyndrome, addWeights, eccParity, parityBelow] at ht hp
  simp [eccDecode, ht, hp, hpow, hzero, hfound, flipBit]

/-- Settles O55: a single flip leaves the weight of its bit and an odd parity, two flips leave two different weights and an even one. -/
theorem internalCodeCorrectsAndDetects : Obligations.InternalCodeCorrectsAndDetects := by
  unfold Obligations.InternalCodeCorrectsAndDetects
  intro d
  have hsyn := eccSyndrome_encode d
  have hpar := eccParity_encode d
  refine ⟨eccDecode_clean hsyn hpar, fun i hi => ?_, fun i j hij hj => ?_⟩
  · show eccDecode (flipData i d) (flipCheck i (eccEncode d)) = .corrected d
    have ht := eccSyndrome_flip d (eccEncode d) hi
    have hp := eccParity_flip d (eccEncode d) hi
    rw [hsyn, Nat.zero_xor] at ht
    rw [hpar, Bool.not_false] at hp
    by_cases hd : i < 256
    · rw [eccWeight, if_pos hd] at ht
      rw [eccDecode_data hd ht hp, flipData, if_pos hd, flipBit_flipBit]
    · have hcheck : eccWeight i = 0 ∨ isPow2 (eccWeight i) = true := by
        rw [eccWeight, if_neg hd]
        split
        · exact .inr (isPow2_two_pow _)
        · exact .inl rfl
      rw [eccDecode_check (ht ▸ hcheck) hp, flipData, if_neg hd]
  · show eccDecode (flipData j (flipData i d)) (flipCheck j (flipCheck i (eccEncode d))) = .uncorrectable
    have hi : i < 266 := by omega
    refine eccDecode_uncorrectable ?_ ?_
    · rw [eccSyndrome_flip _ _ hj, eccSyndrome_flip _ _ hi, hsyn, Nat.zero_xor]
      intro hzero
      exact absurd (eccWeight_injective hi hj (eq_of_xor_eq_zero hzero)) (by omega)
    · rw [eccParity_flip _ _ hj, eccParity_flip _ _ hi, hpar]
      rfl

end Sys2Proof.Machine
end

section
/-! The entitlements share the whorls out: each skein's weight counts for one slot at most, so the slots' weights are no more than the
sum that each share is taken of (R50). -/

namespace Sys2Proof.Machine

theorem sum_map_const {α : Type} (k : Nat) (xs : List α) : (xs.map fun _ => k).sum = xs.length * k := by
  rw [List.map_const', List.sum_replicate_nat]

theorem sum_map_add {α : Type} (f g : α → Nat) (xs : List α) : (xs.map fun x => f x + g x).sum = (xs.map f).sum + (xs.map g).sum := by
  induction xs with
  | nil => rfl
  | cons x xs ih =>
    simp only [List.map_cons, List.sum_cons, ih]
    omega

theorem sum_map_le {α : Type} {f g : α → Nat} (xs : List α) (h : ∀ x, f x ≤ g x) : (xs.map f).sum ≤ (xs.map g).sum := by
  induction xs with
  | nil => exact Nat.le_refl _
  | cons x xs ih => exact Nat.add_le_add (h x) ih

/-- The weight of the first skein of a list that holds a slot. -/
def slotWeight (l : List (Nat × Skein)) (t : Nat) : Nat := ((l.find? fun e => e.2.slot = some t).map (·.2.weight)).getD 0

/-- One value at the one slot that a skein holds adds up to no more than the value, and to nothing where it holds none. -/
theorem sum_atSlot_le (slot : Option Nat) (w n : Nat) :
    ((List.range n).map fun t => if slot = some t then w else 0).sum ≤ if slot.isSome then w else 0 := by
  cases slot with
  | none => simp [sum_map_const]
  | some u =>
    have hsum : ((List.range n).map fun t => if some u = some t then w else 0).sum = if u < n then w else 0 := by
      induction n with
      | zero => rfl
      | succ n ih =>
        rw [List.range_succ, List.map_append, List.sum_append, ih]
        by_cases hu : u = n
        · simp [hu]
        · have hlt : u < n + 1 ↔ u < n := by omega
          simp [hu, hlt]
    rw [hsum]
    split <;> simp

/-- The weights of the slots are no more than those of the skeins that hold one. -/
theorem sum_slotWeight_le (l : List (Nat × Skein)) (n : Nat) :
    ((List.range n).map (slotWeight l)).sum ≤ ((l.filter (·.2.slot.isSome)).map (·.2.weight)).sum := by
  induction l with
  | nil =>
    have hnone : slotWeight [] = fun _ => 0 := rfl
    simp [hnone, sum_map_const]
  | cons e l ih =>
    have hstep : ∀ t, slotWeight (e :: l) t ≤ (if e.2.slot = some t then e.2.weight else 0) + slotWeight l t := by
      intro t
      simp only [slotWeight, List.find?_cons]
      by_cases h : e.2.slot = some t <;> simp [h]
    have hhead := sum_atSlot_le e.2.slot e.2.weight n
    calc ((List.range n).map (slotWeight (e :: l))).sum
      _ ≤ ((List.range n).map fun t => (if e.2.slot = some t then e.2.weight else 0) + slotWeight l t).sum := sum_map_le _ hstep
      _ = ((List.range n).map fun t => if e.2.slot = some t then e.2.weight else 0).sum + ((List.range n).map (slotWeight l)).sum :=
        sum_map_add _ _ _
      _ ≤ (if e.2.slot.isSome then e.2.weight else 0) + ((l.filter (·.2.slot.isSome)).map (·.2.weight)).sum := Nat.add_le_add hhead ih
      _ = (((e :: l).filter (·.2.slot.isSome)).map (·.2.weight)).sum := by
        cases h : e.2.slot.isSome <;> simp [h]

/-- Shares of a pool by weights add up to no more than the pool. -/
theorem sum_shares_le (pool total : Nat) (ws : List Nat) (hws : ws.sum ≤ total) :
    (ws.map fun w => if total = 0 then 0 else pool * w / total).sum ≤ pool := by
  by_cases hzero : total = 0
  · simp [hzero, sum_map_const]
  · have hmul : ∀ l : List Nat, (l.map fun w => pool * w / total).sum ≤ pool * l.sum / total := by
      intro l
      induction l with
      | nil => simp
      | cons w l ih =>
        rw [List.map_cons, List.sum_cons, List.sum_cons, Nat.mul_add]
        exact Nat.le_trans (Nat.add_le_add_left ih _) Nat.div_add_div_le_add_div
    simp only [hzero, if_false]
    exact Nat.le_trans (hmul ws) (Nat.div_le_of_le_mul (Nat.mul_comm total pool ▸ Nat.mul_le_mul_left pool hws))

/-- Floors and pool are the whorls shared, and the floor is the row's where they suffice. -/
theorem floorPool_spec (b : Block) :
    (floorPool b).1 * b.row.slots + (floorPool b).2 = sharedWhorls b ∧ (floorPool b).1 ≤ b.row.floor ∧
      (b.row.floor * b.row.slots ≤ sharedWhorls b → (floorPool b).1 = b.row.floor) := by
  unfold floorPool
  dsimp only
  by_cases h : b.row.floor * b.row.slots ≤ sharedWhorls b
  · rw [if_pos h]
    exact ⟨Nat.add_sub_cancel' h, Nat.le_refl _, fun _ => rfl⟩
  · rw [if_neg h]
    refine ⟨Nat.add_sub_cancel' (Nat.div_mul_le_self _ _), ?_, fun h' => absurd h' h⟩
    exact Nat.div_le_of_le_mul (Nat.mul_comm b.row.floor _ ▸ Nat.le_of_not_le h)

theorem entitlement_eq (t : Nat) (b : Block) :
    entitlement t b = (floorPool b).1 +
      if totalWeight b = 0 then 0 else (floorPool b).2 * slotWeight b.skeins t / totalWeight b := rfl

/-- Settles O60: the floors and the shares of the pool, whose weights are those of the slots. -/
theorem entitlementsShareTheArray : Obligations.EntitlementsShareTheArray := by
  unfold Obligations.EntitlementsShareTheArray
  intro b
  obtain ⟨hall, hle, hfloor⟩ := floorPool_spec b
  have hweights : ((List.range b.row.slots).map (slotWeight b.skeins)).sum ≤ totalWeight b := by
    rw [totalWeight, sumNat, ← List.sum_eq_foldl_nat]
    exact sum_slotWeight_le b.skeins b.row.slots
  have hshares := sum_shares_le (floorPool b).2 (totalWeight b) _ hweights
  have hsum : sumNat ((List.range b.row.slots).map fun t => entitlement t b) ≤ sharedWhorls b := by
    rw [sumNat, ← List.sum_eq_foldl_nat, ← hall]
    simp only [entitlement_eq, sum_map_add, sum_map_const, List.length_range]
    rw [List.map_map] at hshares
    rw [Nat.mul_comm]
    exact Nat.add_le_add_left hshares _
  refine ⟨hall, hle, hfloor, hsum, fun t => ⟨Nat.le_add_right _ _, fun hw => ?_⟩⟩
  have hw' : slotWeight b.skeins t = 0 := hw
  simp [entitlement_eq, hw']

end Sys2Proof.Machine
end

section
/-! Epochs: an advance changes its own region alone, and what the replies to it change holds no region; the bit that a class E write
sets is found by the next write (R109, R112, R116). -/

namespace Sys2Proof.Machine

/-! ### Advances -/

theorem RestAs.regions {b c : Block} (h : RestAs b c) : c.mem.regions = b.mem.regions := by
  have hfield := congrArg (fun x => x.mem.regions) h.1
  exact hfield

/-- A region at its next epoch. -/
def Region.advanced (tick : Nat) (x : Region) : Region :=
  { x with epoch := x.epoch + 1, reuse := false, lastAdv := some tick, rots := x.rots.drop 1 }

/-- An advance that is made changes its region alone. -/
theorem advanceRegion_made {r : Nat} {g : Region} {b : Block} (hg : amGet r b.mem.regions = some g) (htop : g.epoch ≠ 0xFFFFFFFFFFFFFFFF) :
    (advanceRegion r b).1 = true ∧ (advanceRegion r b).2.mem.regions = amMod r (Region.advanced b.tick) b.mem.regions := by
  unfold advanceRegion
  rw [hg]
  dsimp only
  rw [if_neg htop]
  cases g.rots with
  | nil => exact ⟨rfl, rfl⟩
  | cons rot _ =>
    obtain ⟨d, mat⟩ := rot
    dsimp only
    split
    · exact ⟨rfl, ((RestAs.refl _).complete _ _ _).regions⟩
    · exact ⟨rfl, rfl⟩

/-- At the top of the range no region changes. -/
theorem advanceRegion_top {r : Nat} {g : Region} {b : Block} (hg : amGet r b.mem.regions = some g) (htop : g.epoch = 0xFFFFFFFFFFFFFFFF) :
    (advanceRegion r b).1 = false ∧ (advanceRegion r b).2.mem.regions = b.mem.regions := by
  unfold advanceRegion
  rw [hg]
  dsimp only
  rw [if_pos htop]
  exact ⟨rfl, ((RestAs.refl b).raiseViews _).regions⟩

/-! ### Class E writes -/

/-- A bit that was set is found, and no word of the group is lost by it. -/
theorem bitUnder_setBit (e : BitVec 64) (addr : Nat) (b : Block) : bitUnder e addr (setBit e addr b) = true := by
  have hone : (BitVec.ofNat 256 (1 <<< (addr / 64 % 256))).getLsbD (addr / 64 % 256) = true := by
    rw [BitVec.getLsbD_ofNat, Nat.one_shiftLeft, Nat.testBit_two_pow_self, decide_eq_true (Nat.mod_lt _ (by decide))]
    rfl
  unfold bitUnder wordsAt setBit
  simp only [setMem, amGetD_amPut_same]
  split
  · next h0 => simp [h0, hone]
  · split
    · next h1 => simp [h1, hone]
    · split <;> simp [hone]

theorem groupBad_setBit (e : BitVec 64) (addr : Nat) (b : Block) : groupBad addr (setBit e addr b) = groupBad addr b := by
  unfold groupBad wordsAt setBit
  simp only [setMem, amGetD_amPut_same]
  split
  · rfl
  · split
    · rfl
    · split <;> rfl

/-- The region of a key, with its number. -/
def keyRegion (keyId : Nat) (b : Block) : Option (Nat × Region) :=
  (amGet keyId b.mem.keys).bind fun e => (amGet e.region b.mem.regions).map fun r => (e.region, r)

/-- An accepted write set the line's bit in the epoch of its key's region. -/
theorem claimE_accepted {n keyId addr : Nat} {b b' : Block} (h : claimE n keyId addr b = (cOK, b')) :
    ∃ i r, keyRegion keyId b = some (i, r) ∧ groupBad addr b = false ∧ b' = setBit r.epoch addr b := by
  unfold claimE at h
  rw [← keyRegion] at h
  split at h
  · simp [cNotPermitted, cOK] at h
  · rename_i i r hr
    by_cases hbad : groupBad addr b = true
    · simp [hbad, cEcc, cOK] at h
    · rw [if_neg hbad] at h
      by_cases hbit : bitUnder r.epoch addr b = true
      · rw [if_pos hbit] at h
        split at h <;> simp [cEpochReuse, cOK] at h
      · rw [if_neg hbit] at h
        exact ⟨i, r, hr, Bool.eq_false_iff.mpr hbad, (congrArg Prod.snd h).symm⟩

/-- A write to a line whose bit is set in the epoch is refused. -/
theorem claimE_reused {n keyId addr i : Nat} {r : Region} {b : Block} (hr : keyRegion keyId b = some (i, r)) (hgood : groupBad addr b = false)
    (hbit : bitUnder r.epoch addr b = true) : (claimE n keyId addr b).1 = cEpochReuse := by
  unfold claimE
  rw [← keyRegion, hr]
  dsimp only
  rw [if_neg (by simp [hgood]), if_pos hbit]
  split <;> rfl

/-- Settles O57: an advance is a change of its own region alone, and a write that is accepted sets the bit that refuses the next. -/
theorem epochsRiseByOne : Obligations.EpochsRiseByOne := by
  unfold Obligations.EpochsRiseByOne
  refine ⟨fun r g b hg => ⟨fun htop => ?_, fun htop => ?_, fun r' hr' => ?_⟩, fun n keyId addr b b' hclaim => ?_⟩
  · obtain ⟨hok, hregions⟩ := advanceRegion_made hg htop
    refine ⟨hok, g.advanced b.tick, by rw [hregions, amGet_amMod_same, hg]; rfl, rfl, ?_, rfl⟩
    have hlt : g.epoch.toNat + 1 < 2 ^ 64 := by
      have hne : g.epoch.toNat ≠ 0xFFFFFFFFFFFFFFFF := fun h => htop (BitVec.eq_of_toNat_eq h)
      omega
    rw [Region.advanced, BitVec.toNat_add]
    exact Nat.mod_eq_of_lt hlt
  · obtain ⟨hok, hregions⟩ := advanceRegion_top hg htop
    exact ⟨hok, by rw [hregions, hg]⟩
  · by_cases htop : g.epoch = 0xFFFFFFFFFFFFFFFF
    · rw [(advanceRegion_top hg htop).2]
    · rw [(advanceRegion_made hg htop).2, amGet_amMod_other hr']
  · obtain ⟨i, r, hr, hgood, rfl⟩ := claimE_accepted hclaim
    exact claimE_reused hr ((groupBad_setBit _ _ _).trans hgood) (bitUnder_setBit _ _ _)

end Sys2Proof.Machine
end

section
/-! A frame that does not verify: each check that `weftVerified` makes is one that receiving makes, and what receiving does where one
fails is to drop and count (R211, R214, R227). -/

namespace Sys2Proof.Machine

/-- What a frame that does not verify may do: nothing, or be dropped and counted, in the record of its skein's destroy too, or be
reported. -/
def WeftQuiet (b c : Block) : Prop :=
  c = b ∨ (∃ why, c = dropFrame why b) ∨
    (∃ si x, getSess si b = some x ∧ c = dropFrame .stale (dropStraggler x.skein b)) ∨
    ∃ si x, getSess si b = some x ∧
      c = raiseViews { cls := 4, skein := some x.skein } (modSess si (fun x => { x with event := some b.tick }) (dropFrame .tag b))

theorem WeftQuiet.drop (why : Drop) (b : Block) : WeftQuiet b (dropFrame why b) := .inr (.inl ⟨why, rfl⟩)

/-- What verifies a frame, its session's silence named as the receiver names it. -/
theorem weftVerified_eq (kind port origin : Nat) (f : Bytes) (b : Block) :
    weftVerified kind port origin f b =
      if asleep b || !b.fab.up.contains port || b.row.weftPorts ≤ port || isFedPort port then none
      else (parseHeader f).bind fun h =>
        if !knownKind h.kind || h.kind != kind || h.die != 0 || 4096 ≤ h.session || !flitsOk h.kind h.flits || !nsOk h then none
        else (getSess h.session b).bind fun s =>
          if s.st = .opening || s.opener && s.kind == 2 || (silent s.skein b && (kind < 0x10 || kind == 0x23)) then none
          else (s.rx.pick h).bind fun k => (openFrame k h origin f).bind fun p =>
            if isWindowed h && s.rx.replay h.nonce then none else some (h.session, s, h, p) := rfl

/-- Receiving a frame that does not verify. -/
theorem weftQuiet_recvWeft {kind port origin : Nat} {f : Bytes} {use : Nat → Session → Header → Bytes → Block → Block} {b : Block}
    (hverified : weftVerified kind port origin f b = none) (hfed : isFedPort port = false) : WeftQuiet b (recvWeft kind port origin f use b) := by
  unfold recvWeft
  rw [weftVerified_eq] at hverified
  by_cases hport : (asleep b || !b.fab.up.contains port || decide (b.row.weftPorts ≤ port)) = true
  · rw [if_pos hport]
    exact .inl rfl
  rw [if_neg hport]
  rw [if_neg (by simpa [hfed] using hport)] at hverified
  cases hparse : parseHeader f with
  | none => exact .drop .form b
  | some h =>
    rw [hparse, Option.bind_some] at hverified
    dsimp only
    by_cases hknown : (!knownKind h.kind) = true
    · rw [if_pos hknown]
      exact .drop .form b
    rw [if_neg hknown]
    by_cases hkind : (h.kind != kind) = true
    · rw [if_pos hkind]
      exact .inl rfl
    rw [if_neg hkind]
    by_cases hform : (h.die != 0 || decide (4096 ≤ h.session) || !flitsOk h.kind h.flits || !nsOk h) = true
    · rw [if_pos hform]
      exact .drop .form b
    rw [if_neg hform]
    have hfields : ¬(!knownKind h.kind || h.kind != kind || h.die != 0 || decide (4096 ≤ h.session) || !flitsOk h.kind h.flits || !nsOk h) = true := by
      simp only [Bool.or_eq_true, not_or] at hform ⊢
      obtain ⟨⟨⟨hdie, hsession⟩, hflits⟩, hns⟩ := hform
      exact ⟨⟨⟨⟨⟨hknown, hkind⟩, hdie⟩, hsession⟩, hflits⟩, hns⟩
    rw [if_neg hfields] at hverified
    cases hsess : getSess h.session b with
    | none => exact .drop .stale b
    | some s =>
      rw [hsess, Option.bind_some] at hverified
      dsimp only
      by_cases hopening : s.st = .opening || s.opener && s.kind == 2
      · rw [if_pos hopening]
        exact .drop .stale b
      rw [if_neg hopening]
      by_cases hgone : (silent s.skein b && (decide (kind < 0x10) || kind == 0x23)) = true
      · rw [if_pos hgone]
        exact .inr (.inr (.inl ⟨h.session, s, hsess, rfl⟩))
      rw [if_neg hgone]
      rw [if_neg (by simp only [Bool.or_eq_true, not_or] at hopening ⊢; exact ⟨hopening, hgone⟩)] at hverified
      cases hkey : s.rx.pick h with
      | none => exact .drop .tag b
      | some k =>
        rw [hkey, Option.bind_some] at hverified
        dsimp only
        cases hopen : openFrame k h origin f with
        | none =>
          dsimp only
          exact ite_keeps (P := WeftQuiet b) (.inr (.inr (.inr ⟨h.session, s, hsess, rfl⟩))) (.drop .tag b)
        | some p =>
          rw [hopen, Option.bind_some] at hverified
          dsimp only
          split at hverified
          · rename_i hreplay
            rw [if_pos hreplay]
            exact .drop .replay b
          · cases hverified

/-- What such a frame's command does. -/
theorem quiet_of_onFab {c : Instr} {f : Block → Block} {s : State} (hexec : exec c s = onFab f s) (hquiet : WeftQuiet s.blk (f s.blk)) :
    exec c s = fabric s s.blk ∨ (∃ why, exec c s = fabric s (dropFrame why s.blk)) ∨
      (∃ si x, getSess si s.blk = some x ∧ exec c s = fabric s (dropFrame .stale (dropStraggler x.skein s.blk))) ∨
      ∃ si x, getSess si s.blk = some x ∧ exec c s = fabric s (raiseViews { cls := 4, skein := some x.skein }
        (modSess si (fun x => { x with event := some s.blk.tick }) (dropFrame .tag s.blk))) := by
  have hout : ∀ {d : Block}, f s.blk = d → exec c s = fabric s d := fun hd => hexec.trans (hd ▸ rfl)
  obtain h | ⟨why, h⟩ | ⟨si, x, hx, h⟩ | ⟨si, x, hx, h⟩ := hquiet
  · exact .inl (hout h)
  · exact .inr (.inl ⟨why, hout h⟩)
  · exact .inr (.inr (.inl ⟨si, x, hx, hout h⟩))
  · exact .inr (.inr (.inr ⟨si, x, hx, hout h⟩))

theorem exec_weftRead (p : BitVec 8) (f : Bytes) (evs : MemEvs) (s : State) : exec (.weftRead p f evs) s = onFab (doFrame 1 p f evs) s := by
  rw [exec, execWeftRead]
theorem exec_weftWrite (p : BitVec 8) (f : Bytes) (evs : MemEvs) (s : State) : exec (.weftWrite p f evs) s = onFab (doFrame 2 p f evs) s := by
  rw [exec, execWeftWrite]
theorem exec_weftPly (p : BitVec 8) (f : Bytes) (evs : MemEvs) (s : State) : exec (.weftPly p f evs) s = onFab (doFrame 3 p f evs) s := by
  rw [exec, execWeftPly]
theorem exec_weftMcast (p : BitVec 8) (f : Bytes) (evs : MemEvs) (s : State) : exec (.weftMcast p f evs) s = onFab (doFrame 4 p f evs) s := by
  rw [exec, execWeftMcast]
theorem exec_weftCombined (p : BitVec 8) (f : Bytes) (evs : MemEvs) (s : State) :
    exec (.weftCombined p f evs) s = onFab (doFrame 5 p f evs) s := by rw [exec, execWeftCombined]
theorem exec_weftMessage (p : BitVec 8) (f : Bytes) (evs : MemEvs) (s : State) :
    exec (.weftMessage p f evs) s = onFab (doFrame 6 p f evs) s := by rw [exec, execWeftMessage]
theorem exec_weftResolve (p : BitVec 8) (f : Bytes) (evs : MemEvs) (s : State) :
    exec (.weftResolve p f evs) s = onFab (doFrame 7 p f evs) s := by rw [exec, execWeftResolve]
theorem exec_weftReadResp (p : BitVec 8) (f : Bytes) (s : State) : exec (.weftReadResp p f) s = onFab (doReply 0x11 p 0 f) s := by
  rw [exec, execWeftReadResp]
theorem exec_weftWriteResp (p : BitVec 8) (f : Bytes) (s : State) : exec (.weftWriteResp p f) s = onFab (doReply 0x12 p 0 f) s := by
  rw [exec, execWeftWriteResp]
theorem exec_weftPlyResp (p : BitVec 8) (origin : BitVec 15) (f : Bytes) (s : State) :
    exec (.weftPlyResp p origin f) s = onFab (doReply 0x13 p origin.toNat f) s := by rw [exec, execWeftPlyResp]
theorem exec_weftClose (p : BitVec 8) (f : Bytes) (s : State) : exec (.weftClose p f) s = onFab (doClose p.toNat f) s := by
  rw [exec, execWeftClose]
theorem exec_weftGroupOpen (p : BitVec 8) (f : Bytes) (s : State) : exec (.weftGroupOpen p f) s = onFab (doGroupOpen p.toNat f) s := by
  rw [exec, execWeftGroupOpen]

/-- On a weft port a frame command receives on its session. -/
theorem doFrame_weft {kind : Nat} {port : BitVec 8} (hfed : isFedPort port.toNat = false) (hkind : kind ≠ 8) (f : Bytes) (evs : MemEvs) (b : Block) :
    ∃ use, doFrame kind port f evs b = recvWeft kind port.toNat 0 f use b := by
  unfold doFrame
  rw [if_neg (by simp [hfed])]
  by_cases h4 : kind = 4
  · rw [if_pos h4, h4]
    exact ⟨_, rfl⟩
  by_cases h6 : kind = 6
  · rw [if_neg h4, if_pos h6, h6]
    exact ⟨_, rfl⟩
  rw [if_neg h4, if_neg h6, if_neg hkind]
  exact ⟨_, rfl⟩

theorem weftOnly_weft {port : Nat} (hfed : isFedPort port = false) (f : Block → Block) (b : Block) : weftOnly port f b = f b := by
  rw [weftOnly, hfed]
  rfl

/-- Settles O58: a frame command receives on its session, and a frame that does not verify is not used. -/
theorem unverifiedFramesDoNothing : Obligations.UnverifiedFramesDoNothing := by
  unfold Obligations.UnverifiedFramesDoNothing
  intro port f evs s hfed
  have hframe : ∀ kind, kind ≠ 8 → weftVerified kind port.toNat 0 f s.blk = none → WeftQuiet s.blk (doFrame kind port f evs s.blk) := by
    intro kind hkind hbad
    obtain ⟨use, huse⟩ := doFrame_weft hfed hkind f evs s.blk
    exact huse ▸ weftQuiet_recvWeft hbad hfed
  have hreply : ∀ kind origin, weftVerified kind port.toNat origin f s.blk = none → WeftQuiet s.blk (doReply kind port origin f s.blk) := by
    intro kind origin hbad
    rw [doReply, if_neg (by simp [hfed]), doWeftReply]
    exact weftQuiet_recvWeft hbad hfed
  refine ⟨fun h => quiet_of_onFab (exec_weftRead ..) (hframe 1 (by decide) h), fun h => quiet_of_onFab (exec_weftWrite ..) (hframe 2 (by decide) h),
    fun h => quiet_of_onFab (exec_weftPly ..) (hframe 3 (by decide) h), fun h => quiet_of_onFab (exec_weftMcast ..) (hframe 4 (by decide) h),
    fun h => quiet_of_onFab (exec_weftCombined ..) (hframe 5 (by decide) h), fun h => quiet_of_onFab (exec_weftMessage ..) (hframe 6 (by decide) h),
    fun h => quiet_of_onFab (exec_weftResolve ..) (hframe 7 (by decide) h), fun h => quiet_of_onFab (exec_weftReadResp ..) (hreply _ _ h),
    fun h => quiet_of_onFab (exec_weftWriteResp ..) (hreply _ _ h), fun h => quiet_of_onFab (exec_weftClose ..) ?_,
    fun h => quiet_of_onFab (exec_weftGroupOpen ..) ?_, fun origin h => quiet_of_onFab (exec_weftPlyResp ..) (hreply _ _ h)⟩
  · rw [doClose, weftOnly_weft hfed]
    exact weftQuiet_recvWeft h hfed
  · rw [doGroupOpen, weftOnly_weft hfed]
    exact weftQuiet_recvWeft h hfed

end Sys2Proof.Machine
end

section
/-! A refused warp request is counted, answered and reported: the front end passes a request of the hank's own skein and key alone, and
a refusal changes what replies change (R20, R150, R384). -/

namespace Sys2Proof.Machine

/-- A choice that answers nothing did not answer something first. -/
theorem ite_some_eq_none {α : Type} {p : Prop} [Decidable p] {x : α} {o : Option α} (h : (if p then some x else o) = none) : ¬p ∧ o = none := by
  split at h
  · cases h
  · exact ⟨‹_›, h⟩

/-- What the front end passes: an allocated hank of the skein under the key, which is the skein's own and valid. -/
theorem frontEnd_eq_none {n keyId addr : Nat} {b : Block} (h : frontEnd n keyId addr b = none) :
    (getHank (addr / hankBytes) b).st = .allocated ∧ (getHank (addr / hankBytes) b).skein = n ∧
      (getHank (addr / hankBytes) b).keyId = keyId ∧ ∃ e, amGet keyId b.mem.keys = some e ∧ e.skein = n ∧ e.st = .valid := by
  unfold frontEnd at h
  cases hs : getSkein n b with
  | none => rw [hs] at h; cases h
  | some s =>
    rw [hs] at h
    have hlast := (ite_some_eq_none (ite_some_eq_none (ite_some_eq_none (ite_some_eq_none (ite_some_eq_none h).2).2).2).2).2
    cases he : amGet keyId b.mem.keys with
    | none => rw [he] at hlast; cases hlast
    | some e =>
      rw [he] at hlast
      obtain ⟨hkey, hrest⟩ := ite_some_eq_none hlast
      obtain ⟨hhank, -⟩ := ite_some_eq_none hrest
      simp only [Bool.or_eq_true, bne_iff_ne, beq_iff_eq, not_or, Classical.not_not] at hkey hhank
      obtain ⟨⟨⟨hst, -⟩, hskein⟩, hid⟩ := hhank
      exact ⟨hst, hskein, hid, e, rfl, hkey⟩

theorem RestAs.refuseReq {b c : Block} (hc : RestAs b c) (n : Nat) (st : BitVec 8) (raise isWrite : Bool) :
    RestAs b (refuseReq n st raise isWrite c) := by
  unfold Machine.refuseReq
  have hcount := ite_keeps (p := isWrite = true) ((hc.bumpSk n 144 1).bumpSk n 152 1) (hc.bumpSk n 144 1)
  have hstraggler := ite_keeps (p := (getSkein n (if isWrite then Machine.bumpSk n 152 1 (Machine.bumpSk n 144 1 c)
    else Machine.bumpSk n 144 1 c)).map (·.st) = some .destroying) (hcount.modSkein (f := fun s => { s with counts :=
      if isWrite then { s.counts with dropped := s.counts.dropped + 1 } else { s.counts with refused := s.counts.refused + 1 } })
    (fun _ => by rfl) n) hcount
  exact ite_keeps (hstraggler.raiseViews _) hstraggler

theorem RestAs.failReq {b c : Block} (hc : RestAs b c) (q : WarpReq) (n : Nat) (isWrite : Bool) (st : BitVec 8) :
    RestAs b (failReq q n isWrite st c) := by
  have hrsp : RestAs b (rspFail q isWrite st c) := ite_keeps (P := RestAs b) hc hc
  exact ite_keeps (hrsp.errorFence _ _ _) hrsp

theorem onWarp_open {q : WarpReq} {f : Block → Block} {s : State} (hopen : closed s.blk = false) : onWarp q f s = onto s (settle (f s.blk)) := by
  simp [onWarp, onSettled, onBlock, hopen, onto]

/-- A warp request to the block's own memory that the front end refuses. -/
theorem onWarp_refused {q : WarpReq} {evs : MemEvs} {s : State} {n : Nat} {x : Skein} {st : BitVec 8} {raise : Bool} (kind : TxnKind)
    (hopen : closed s.blk = false) (hslot : slotSkein q.skeinTag.toNat s.blk = some (n, x)) (hpeer : q.peerV = false)
    (hwf : reqMalformed q (match kind with | .read => 0 | .write => 1 | .ply => 2) = false)
    (hrefused : frontEnd n (reqKeyId q) (reqAddr q) s.blk = some (st, raise)) :
    onWarp q (doWarp kind q evs) s =
      fabric s (failReq q n (decide (kind = .write)) st (refuseReq n st raise (decide (kind = .write)) s.blk)) := by
  rw [onWarp_open hopen, fabric, doWarp, if_neg (by simp [hpeer]), doLocal.eq_def, hslot]
  cases kind <;>
  · dsimp only at hwf ⊢
    rw [if_neg (Bool.eq_false_iff.mp hwf), hrefused]

/-- Settles O59: the front end passes what is the skein's own alone, and a refusal is replies. -/
theorem refusedRequestsTouchNothing : Obligations.RefusedRequestsTouchNothing := by
  unfold Obligations.RefusedRequestsTouchNothing
  refine ⟨fun n keyId addr b hforeign => ?_, fun q evs s n x st raise hopen hslot hpeer hrefused => ⟨fun hwf => ?_, fun hwf => ?_, fun isWrite => ?_⟩⟩
  · refine Classical.byContradiction fun hpass => ?_
    obtain ⟨hst, hskein, hkey, e, he, hown, hvalid⟩ := frontEnd_eq_none (Option.not_isSome_iff_eq_none.mp hpass)
    obtain h | h | h | h := hforeign
    · exact h hst
    · exact h hskein
    · exact h hkey
    · exact (h e he).elim (· hown) (· hvalid)
  · rw [exec, execWarpRead]
    exact onWarp_refused .read hopen hslot hpeer hwf hrefused
  · rw [exec, execWarpWrite]
    exact onWarp_refused .write hopen hslot hpeer hwf hrefused
  · exact ((RestAs.refl s.blk).refuseReq n st raise isWrite).failReq q n isWrite st

end Sys2Proof.Machine
end

section
/-! Accesses and descriptors: what each command of the set-up registers, the doorbells and the fence descriptors does where it is served
(R362 to R389, R501 to R523). -/

namespace Sys2Proof.Machine

/-! ### The outcome of a command that is served -/

section
variable {c : Instr} {f : Block → Block} {s : State} {b : Block}

theorem exec_block (hexec : exec c s = onBlock f s) (hf : f s.blk = b) : exec c s = onto s b := by
  rw [hexec, ← hf]
  rfl

theorem exec_settled (hexec : exec c s = onSettled f s) (hf : f s.blk = b) : exec c s = onto s (settle b) := by
  rw [hexec, ← hf]
  rfl

theorem exec_fab (hexec : exec c s = onFab f s) (hf : f s.blk = b) : exec c s = fabric s b := by
  rw [hexec, ← hf]
  rfl

theorem exec_access (hopen : closed s.blk = false) (hexec : exec c s = onAccess c f s) (hf : f s.blk = b) : exec c s = onto s (settle b) := by
  rw [hexec, onAccess_open hopen, hf]

/-- A descriptor command that runs starts its descriptor. -/
theorem exec_desc {r : Ring} {d : Line} {op : Nat} {checks : Block → Checks} {uses : Block → List Nat} {start : Desc → Block → Block}
    (h : runsNow r d op checks c uses s.blk = true) (hexec : exec c s = onSettled f s) (hf : f s.blk = fetch r d op c checks uses start s.blk)
    (hstart : start (accDesc r d c uses s.blk) (accBlk r d c uses s.blk) = b) : exec c s = onto s (settle b) :=
  exec_settled hexec (by rw [hf, fetch_runs h, hstart])

end

/-! ### Set-up registers -/

/-- A write whose value reaches the register selects some bits of it. -/
theorem accessMask_of_writeValue {q : Tgt} {b : Block} {v : BitVec 64} (h : writeValue q b = some v) : (accessMask q).isSome = true := by
  unfold writeValue at h
  cases hm : accessMask q with
  | none => rw [hm] at h; cases h
  | some m => rfl

/-- A grant of the rings fixes the map and sets the locks. -/
theorem ringEnable_granted {b : Block} (hlock : b.regs.ringLock = false)
    (hzones : zoneCheck b.row (bitField b.regs.twsMem 6 0) (bitField b.regs.twsBoot 7 0) (enabledZones b) = none) :
    ∃ zones boot, ringEnable b = setRegs (fun r => { r with
        ringEnable := true, ringLock := true, lockZones := true, lockBoot := true, twsStatus := 0, cfgZone := zones, cfgBoot := boot })
      (setMem (fun m => { m with
        lay := mkLayout b.row (bitField b.regs.twsMem 6 0) (bitField b.regs.twsBoot 7 0) (enabledZones b) }) b) := by
  unfold ringEnable
  dsimp only
  rw [hlock, hzones]
  exact ⟨_, _, rfl⟩

/-- An alarm ahead of T is armed alone. -/
theorem alarmActs_ahead {b : Block} (ht : b.tim.t.toNat < b.regs.timAlarm.toNat) : alarmActs b = b := by
  have hdue : alarmDue b = false := by simp [alarmDue, Nat.not_le.mpr ht]
  rw [alarmActs, hdue]
  rfl

/-- A read of a set-up register is no read of a doorbell page. -/
theorem doTgtRead_reg {q : Tgt} {off : Nat} {b : Block} (h : isReg q off true = true) : doTgtRead q b = regReadAccess q b := by
  simp only [isReg, Bool.and_eq_true, decide_eq_true_eq, beq_iff_eq] at h
  obtain ⟨⟨⟨hfunc, hread⟩, haddr⟩, -⟩ := h
  have hpage : pageOf q = none := by
    rw [pageOf, if_pos hfunc, if_neg (by omega)]
  simp [doTgtRead, hread, hpage, doRead, hfunc]

/-- The low half of TIM_NOW is answered and the high half latched (R503). -/
theorem regReadAccess_timNow {q : Tgt} {b : Block} (h : isReg q 0x620 true = true) (hbe : q.be = 0x0F) (hmask : (accessMask q).isSome = true) :
    regReadAccess q b = answerTgt (b.tim.t &&& 0x00000000FFFFFFFF) false .mgr
      (setRegs (fun r => { r with latchNow := some ((b.tim.t >>> 32).setWidth 32) }) b) := by
  simp only [isReg, Bool.and_eq_true, decide_eq_true_eq, beq_iff_eq] at h
  obtain ⟨⟨-, haddr⟩, hoff⟩ := h
  have hmask' : accessMask q = some 0x00000000FFFFFFFF := by
    unfold accessMask at hmask ⊢
    rw [hbe] at hmask ⊢
    simp at hmask ⊢
    exact hmask
  have hread : regRead 0x620 b = b.tim.t := rfl
  unfold regReadAccess
  rw [hmask', hoff]
  dsimp only
  rw [if_neg (by omega), hread, hbe]
  rfl

/-- The host's image, read and judged, while both banks are empty (R340, R514). -/
theorem doFwLoad_loads {q : Tgt} {image : Bytes} {v : BitVec 64} {b : Block} (hreg : isReg q 0x070 false = true) (hv : writeValue q b = some v)
    (hon : writesHonoured 0x070 b = true) (hempty : b.regs.dstStatus.getLsbD 8 = true)
    (hbase : bitField (writeFields b.regs.fwLoad v [fld 63 12]) 63 12 ≠ 0) :
    let base := bitField (writeFields b.regs.fwLoad v [fld 63 12]) 63 12
    let img := image.take (8192 + leField image 8 4)
    let c := readHost none (base * 4096 + 8192) (img.length - 8192) (readHost none (base * 4096) 8192
      (setRegs (fun r => { r with fwLoad := writeFields r.fwLoad v [fld 63 12] }) b))
    doFwLoad q image b = answerWrite (if imageReason img c = 0
      then deriveCdi1 (setDst 8 false (setDst 9 false (setDistaff (fun d => { d with bankA := { st := 4, img := img } }) c)))
      else raiseViews { cls := 5 } (setDst 9 true c)) := by
  intro base img c
  unfold doFwLoad
  rw [if_neg (by simp [hreg]), hv]
  dsimp only
  rw [if_neg (by simp [hon]), if_neg]
  · simp only [bne_iff_ne, ne_eq, ite_not]
    rfl
  · simp [setRegs, hempty, hbase, -BitVec.getLsbD_eq_getElem]

/-- Settles O8: each register's command, where its write is honoured. -/
theorem setUpRegistersComplete : Obligations.SetUpRegistersComplete := by
  unfold Obligations.SetUpRegistersComplete
  intro s q image v hopen hv
  have hmask := accessMask_of_writeValue hv
  refine ⟨fun hfunc hread haddr hown hon => ?_, fun hreg hon hlock hhalt => ?_, fun hreg hon hlock hv0 hzones => ?_, fun hreg hon hbe ht => ?_,
    fun hreg hon => ?_, fun hreg hbe => ?_, fun hreg hon hrun => ?_, fun hreg hon hempty hbase => ?_⟩
  · refine exec_access hopen (by rw [exec, execRegisterWrite]) ?_
    simp [doRegisterWrite, hfunc, hread, haddr, hown, hon, hv]
  · refine exec_access hopen (by rw [exec, execLcsGateWrite]) ?_
    simp [doLcsGate, hreg, hv, hon, hlock, setRegs, hhalt, -BitVec.getLsbD_eq_getElem]
  · obtain ⟨zones, boot, hgrant⟩ := ringEnable_granted hlock hzones
    refine ⟨_, zones, boot, rfl, exec_access hopen (by rw [exec, execRingEnable]) ?_⟩
    rw [← hgrant]
    simp [doRingEnable, hreg, hv, hon, hlock, hv0, -BitVec.getLsbD_eq_getElem]
  · refine exec_access hopen (by rw [exec, execTimAlarmWrite]) ?_
    rw [doAlarmWrite, if_neg (by simp [hreg])]
    have hon' : writesHonoured 0x618 (answerWrite s.blk) = true := hon
    dsimp only
    rw [if_neg (by simp [hbe, hon', Option.isSome_iff_ne_none.mp hmask]), alarmActs_ahead ht]
  · refine exec_access hopen (by rw [exec, execTimStrobeWrite]) ?_
    simp [doStrobeWrite, hreg, hv, hon, setRegs, setTim]
  · refine exec_access hopen (by rw [exec, execLatchedHalfRead]) ?_
    rw [doTgtRead_reg hreg, regReadAccess_timNow hreg hbe hmask]
  · refine exec_access hopen (by rw [exec, execFwLoad]) ?_
    simp [doFwLoad, hreg, hv, hon, setRegs, hrun, -BitVec.getLsbD_eq_getElem]
  · exact exec_access hopen (by rw [exec, execFwLoad]) (doFwLoad_loads hreg hv hon hempty hbase)

/-! ### Doorbells -/

/-- A doorbell write to the page of a ring that is served applies its value. -/
theorem bell_served {q : Tgt} {r : Ring} {off : Nat} {live : Ring → BitVec 32 → Block → Block} {hold : BitVec 32 → Skein → Skein} {b : Block}
    {p : RingPair} (hpage : pageOf q = some (r, off)) (hread : q.read = false) (hbe : q.be = 0x0F) (hring : getRing r b = some p)
    (hserved : pageRefused r q.t b = none) (hdestroying : ringState r b ≠ some .destroying) (hswapped : ringState r b ≠ some .swapped)
    (hoff : off = 0x000 ∨ off = 0x008 ∨ off = 0x010) : bell q off live hold b = answerTgt 0 false r (live r (q.data.setWidth 32) b) := by
  have hbell : isBell q off = true := by
    obtain rfl | rfl | rfl := hoff <;> simp [isBell, hbe]
  simp only [bell, hpage, hread, hserved, hbell]
  cases r with
  | mgr => simp
  | skein n =>
    cases hs : getSkein n b with
    | none => simp [getRing, hs] at hring
    | some s =>
      simp only [ringState, hs, Option.map_some, ne_eq, Option.some.injEq] at hdestroying hswapped
      simp [hs, hdestroying, hswapped]

/-- Settles O9: the value is in its bounds, so the live doorbell applies it. -/
theorem doorbellsComplete : Obligations.DoorbellsComplete := by
  unfold Obligations.DoorbellsComplete
  intro s q r off p hopen hpage hread hbe hring hserved hdestroying hswapped
  refine ⟨fun hoff hle => ?_, fun hoff hle => ?_, fun hoff => ?_⟩ <;> subst hoff
  · refine exec_access hopen (exec_sqTail q s) ?_
    rw [doSqTail, bell_served hpage hread hbe hring hserved hdestroying hswapped (.inl rfl), applyTail, hring]
    dsimp only
    rw [if_pos hle]
  · refine exec_access hopen (exec_cqHead q s) ?_
    rw [doCqHead, bell_served hpage hread hbe hring hserved hdestroying hswapped (.inr (.inl rfl)), applyHead, hring]
    dsimp only
    rw [if_pos hle]
  · refine exec_access hopen (exec_attnAck q s) ?_
    rw [doAttnAck, bell_served hpage hread hbe hring hserved hdestroying hswapped (.inr (.inr rfl)), applyAck]

/-- Settles O10: the value is out of its bounds, so the doorbell is bad. -/
theorem doorbellBoundsRefused : Obligations.DoorbellBoundsRefused := by
  unfold Obligations.DoorbellBoundsRefused
  intro s q off hopen hpage hread hbe
  have hmgr : ∀ {live hold}, off = 0x000 ∨ off = 0x008 ∨ off = 0x010 →
      bell q off live hold s.blk = answerTgt 0 false .mgr (live .mgr (q.data.setWidth 32) s.blk) := fun hoff =>
    bell_served (p := s.blk.mgr) hpage hread hbe rfl rfl (by simp [ringState]) (by simp [ringState]) hoff
  refine ⟨fun hoff hlt => ?_, fun hoff hlt => ?_⟩ <;> subst hoff
  · refine exec_access hopen (exec_sqTail q s) ?_
    rw [doSqTail, hmgr (.inl rfl)]
    simp only [applyTail, getRing, if_neg (Nat.not_le.mpr hlt), badBell, modRing]
  · refine exec_access hopen (exec_cqHead q s) ?_
    rw [doCqHead, hmgr (.inr (.inl rfl))]
    simp only [applyHead, getRing, if_neg (Nat.not_le.mpr hlt), badBell, modRing]

/-! ### NOP and the fence descriptors -/

section
variable (r : Ring) (d : Line) (c : Instr) (uses : Block → List Nat) (b : Block)

@[simp] theorem accDesc_raw : (accDesc r d c uses b).raw = d := rfl
@[simp] theorem accDesc_ring : (accDesc r d c uses b).ring = r := rfl

end

/-- A signal of a skein counts as its progress. -/
def signalled (r : Ring) (b : Block) : Block := match r with
  | .skein n => progress n b
  | .mgr => b

/-- A signal to a value in its bounds, of a fence not in error, sets the value. -/
theorem signalFence_ok {r : Ring} {i v : Nat} {b : Block} (hfrozen : frozen (ringOwner r) b = false)
    (herror : (getFence (ringOwner r) i b).error = false) (hle : (getFence (ringOwner r) i b).value.toNat ≤ v) (htop : v < fenceTop) :
    signalFence (ringOwner r) i v b = (cOK,
      signalled r (setFence (ringOwner r) i { getFence (ringOwner r) i b with value := BitVec.ofNat 64 v } b)) := by
  have hsignal : (getFence (ringOwner r) i b).signal v = (cOK, { getFence (ringOwner r) i b with value := BitVec.ofNat 64 v }) := by
    rw [Fence.signal, if_neg (by simp [herror]), if_neg (Nat.not_le.mpr htop), if_neg (Nat.not_lt.mpr hle)]
  rw [signalFence, if_neg (by simp [hfrozen]), hsignal]
  cases r with
  | mgr => rfl
  | skein n => rfl

/-- Settles O11: each descriptor starts, and its start completes it or, for a FENCE_WAIT, has it wait. -/
theorem fenceDescriptorsComplete : Obligations.FenceDescriptorsComplete := by
  unfold Obligations.FenceDescriptorsComplete
  intro r d s
  refine ⟨fun hrun => ?_, fun hrun hmode hfrozen herror hle htop => ?_, fun hrun hmode hrefs => ?_, fun hrun hmode => ?_, fun hrun hfrozen => ?_⟩
  · exact exec_desc hrun (f := doNop r d) (by rw [exec, execNop]) (by rw [doNop]) rfl
  · refine exec_desc hrun (f := doFenceSignal r d) (by rw [exec, execFenceSignal]) (by rw [doFenceSignal]) ?_
    rw [startFenceOp, accDesc_raw, if_pos hmode, startFenceSignal]
    simp only [accDesc_raw, accDesc_ring, signalFence_ok hfrozen herror hle htop]
    cases r <;> rfl
  · refine exec_desc hrun (f := doFenceReset r d) (by rw [exec, execFenceReset]) (by rw [doFenceReset]) ?_
    rw [startFenceOp, accDesc_raw, if_neg (by omega), if_pos hmode, startFenceReset]
    simp only [accDesc_raw, accDesc_ring, hrefs]
    rfl
  · refine exec_desc hrun (f := doFenceGrant r d) (by rw [exec, execFenceGrant]) (by rw [doFenceGrant]) ?_
    rw [startFenceOp, accDesc_raw, if_neg (by omega), if_neg (by omega), startFenceGrant]
    rfl
  · refine exec_desc hrun (f := doFenceWait r d) (by rw [exec, execFenceWait]) (by rw [doFenceWait]) ?_
    rw [startFenceWait]
    simp only [accDesc_raw, accDesc_ring]
    refine (if_neg ?_).trans rfl
    obtain h | h := hfrozen <;> simp [h]

/-- Settles O12: the deadline is reached, and the wait completes with the fence's value and is listed. -/
theorem fenceWaitTimesOut : Obligations.FenceWaitTimesOut := by
  unfold Obligations.FenceWaitTimesOut
  intro r index s x o f since dl t hdesc hphase hdue
  refine exec_settled (f := doFenceWaitTimeout r index) (by rw [exec, execFenceWaitTimeout]) ?_
  simp [doFenceWaitTimeout, hdesc, hphase, hdue]

end Sys2Proof.Machine
end

section
/-! Hanks, the request window, the warp ports and the answers of memory: what each command does where it is served (R22, R149 to R155,
R193, R390 to R393, R481, R482). -/

namespace Sys2Proof.Machine

/-! ### Hank descriptors -/

/-- Holds below the limit rise by one each. -/
theorem refRun_ok {hs : List Nat} {b : Block} (h : ∀ k ∈ hs, (getHank k b).holds < 65535) :
    refRun hs b = (cOK, hs.foldl (fun b k => setHank k { getHank k b with holds := (getHank k b).holds + 1 } b) b) := by
  have hnone : (hs.any fun k => decide (65535 ≤ (getHank k b).holds)) = false := by simpa using h
  rw [refRun, if_neg (by rw [hnone]; exact Bool.false_ne_true)]

@[simp] theorem getSkein_setHank (n k : Nat) (x : Hank) (b : Block) : getSkein n (setHank k x b) = getSkein n b := rfl

/-- The mailbox of a skein without one is named. -/
theorem startHankRef_mailbox {x : Desc} {n : Nat} {b : Block} (hring : x.ring = .skein n) (hflags : hFlags x.raw = 2)
    (hcls : (getHank (hBase x.raw / hankBytes) b).cls = .S) (hholds : (getHank (hBase x.raw / hankBytes) b).holds < 65535)
    (hnone : (getSkein n b).bind (·.mailbox) = none) :
    let h := hBase x.raw / hankBytes
    let b' := modSkein n (fun s => { s with mailbox := some { hank := h } })
      (setHank h { getHank h b with holds := (getHank h b).holds + 1 } b)
    startHankRef x b = complete x cOK (resAt 12 2 (getHank h b').holds) b' := by
  have hbit : Nat.testBit 2 1 = true := rfl
  have href := refRun_ok (hs := [hBase x.raw / hankBytes]) (by simpa using hholds)
  rw [startHankRef, hflags, if_pos hbit, startMailboxName]
  simp [hring, hcls, href, ringOwner, hnone]

/-- The mailbox of a skein that has one is released. -/
theorem startHankFree_mailbox {x : Desc} {n : Nat} {mb : Mailbox} {b : Block} (hring : x.ring = .skein n) (hflags : hFlags x.raw = 2)
    (hmb : (getSkein n b).bind (·.mailbox) = some mb) :
    startHankFree x b = complete x cOK 0 (dropHold mb.hank (modSkein n (fun s => { s with mailbox := none }) b)) := by
  have hbit : Nat.testBit 2 1 = true := rfl
  rw [startHankFree, hflags, if_pos hbit, startMailboxRelease]
  simp only [hring, ringOwner, Option.getD_some, hmb, finish]

/-- Settles O13: each descriptor starts, and its start completes it. -/
theorem hankDescriptorsComplete : Obligations.HankDescriptorsComplete := by
  unfold Obligations.HankDescriptorsComplete
  intro r d s
  refine ⟨fun base b' hrun hkey halloc => ?_, fun hrun hflags => ?_, fun hrun hflags => ?_, fun hrun hflags hholds => ?_, ?_, ?_⟩
  · refine exec_desc hrun (f := doHankAlloc r d) (by rw [exec, execHankAlloc]) (by rw [doHankAlloc]) ?_
    simp only [startAlloc, accDesc_raw, accDesc_ring, hkey, halloc]
  · refine exec_desc hrun (f := doHankFree r d) (by rw [exec, execHankFree]) (by rw [doHankFree]) ?_
    simp [startHankFree, hflags, startFree, finish]
  · refine exec_desc hrun (f := doHankRevoke r d) (by rw [exec, execHankRevoke]) (by rw [doHankRevoke]) ?_
    have hbit : Nat.testBit 1 1 = false := rfl
    simp [startHankFree, hflags, hbit, startRevoke, finish]
  · refine exec_desc hrun (f := doHankRef r d) (by rw [exec, execHankRef]) (by rw [doHankRef]) ?_
    simp [startHankRef, hflags, startRef, refRun_ok hholds]
  · rintro n rfl h b b' hrun hflags hcls hholds hnone
    exact exec_desc hrun (f := doMailboxName (.skein n) d) (by rw [exec, execMailboxName]) (by rw [doMailboxName])
      (startHankRef_mailbox rfl hflags hcls hholds hnone)
  · rintro n mb rfl b hrun hflags hmb
    exact exec_desc hrun (f := doMailboxRelease (.skein n) d) (by rw [exec, execMailboxRelease]) (by rw [doMailboxRelease])
      (startHankFree_mailbox rfl hflags hmb)

/-! ### The request window -/

theorem exec_window {c : Instr} {f : Block → Block} {s : State} {b : Block} (hopen : closed s.blk = false) (hexec : exec c s = onWindow f s)
    (hf : f s.blk = b) : exec c s = onto s (settle b) := by
  rw [hexec, ← hf]
  simp [onWindow, onSettled, onBlock, hopen, onto]

/-- A cell write that is accepted makes its cell PENDING and runs it. -/
theorem doWindow_runs {op : Nat} {q : Wreq} {n : Nat} {b : Block} (h : windowAccepts op q n b = true) :
    doWindow op q b = runCell n (cellOf q) (windowTaken q n b) := by
  unfold windowAccepts at h
  dsimp only at h
  cases hslot : slotSkein (q.addr.toNat / 8192) b with
  | none => rw [hslot] at h; cases h
  | some e =>
    obtain ⟨m, s⟩ := e
    rw [hslot] at h
    simp only [Bool.and_eq_true, beq_iff_eq, decide_eq_true_eq, Bool.not_eq_true', bne_iff_ne] at h
    obtain ⟨⟨⟨⟨⟨⟨⟨⟨⟨⟨⟨⟨rfl, htag⟩, hslots⟩, hread⟩, hoff⟩, hop⟩, hst⟩, hsize⟩, halign⟩, hcell⟩, hreserved⟩, hmalformed⟩, hheld⟩ := h
    have haligned : q.addr.toNat % 8192 % 64 = 0 := by omega
    unfold doWindow
    dsimp only
    rw [hslot]
    dsimp only
    rw [if_neg (by simp [htag]; omega), if_neg (by simp [hread]), if_neg (by omega), if_neg (by simp [hop]), if_neg (by simp [hst]),
      if_neg (by simp only [cellOf] at hcell; simp [hsize, haligned, hcell, hreserved]), if_neg (by simp [hst])]
    rw [windowTaken, cellOf] at hmalformed hheld
    rw [hmalformed, hheld]
    rfl

section
variable {n i : Nat} {b : Block}

theorem runCell_alloc {base : Nat} {b' : Block} (hop : fieldAt (getCell n i b) 0 1 = 8) (hkey : checkKey n (fieldAt (getCell n i b) 2 2) b = none)
    (halloc : allocHanks n (fieldAt (getCell n i b) 2 2) (fieldAt (getCell n i b) 4 2) b = (.ok base, b')) :
    runCell n i b = doneCell n i cOK (base * hankBytes) b' := by
  simp [runCell, hop, hkey, halloc]

theorem runCell_free (hop : fieldAt (getCell n i b) 0 1 = 9)
    (hholds : checkHanks n none (runOf (fieldAt (getCell n i b) 8 8) (fieldAt (getCell n i b) 4 2)) b = none) :
    runCell n i b = doneCell n i cOK 0
      ((runOf (fieldAt (getCell n i b) 8 8) (fieldAt (getCell n i b) 4 2)).foldl (fun b h => dropHold h b) b) := by
  simp [runCell, hop, hholds]

theorem runCell_ref (hop : fieldAt (getCell n i b) 0 1 = 10)
    (hholds : checkHanks n none (runOf (fieldAt (getCell n i b) 8 8) (fieldAt (getCell n i b) 4 2)) b = none)
    (hfew : ∀ h ∈ runOf (fieldAt (getCell n i b) 8 8) (fieldAt (getCell n i b) 4 2), (getHank h b).holds < 65535) :
    runCell n i b = doneCell n i cOK 0 ((runOf (fieldAt (getCell n i b) 8 8) (fieldAt (getCell n i b) 4 2)).foldl
      (fun b h => setHank h { getHank h b with holds := (getHank h b).holds + 1 } b) b) := by
  simp [runCell, hop, hholds, refRun_ok hfew]

end

/-- Settles O14: an accepted cell runs its request, and a selector's write is an effect of its own. -/
theorem requestWindowCompletes : Obligations.RequestWindowCompletes := by
  unfold Obligations.RequestWindowCompletes
  intro q n s hopen
  refine ⟨fun base b' hacc hop hkey halloc => ?_, fun hacc hop hholds => ?_, fun hacc hop hholds hfew => ?_,
    fun sk hslot htag hslots hread hsize hlow hhigh halign => ?_⟩
  · exact exec_window hopen (f := doWindowHankAlloc q) (by rw [exec, execWindowHankAlloc]) (by rw [doWindowHankAlloc, doWindow_runs hacc, runCell_alloc hop hkey halloc])
  · exact exec_window hopen (f := doWindowHankFree q) (by rw [exec, execWindowHankFree]) (by rw [doWindowHankFree, doWindow_runs hacc, runCell_free hop hholds])
  · exact exec_window hopen (f := doWindowHankRef q) (by rw [exec, execWindowHankRef]) (by rw [doWindowHankRef, doWindow_runs hacc, runCell_ref hop hholds hfew])
  · refine exec_window hopen (f := doBucketSelector q) (by rw [exec, execBucketSelectorWrite]) ?_
    have haligned : q.addr.toNat % 8192 % 64 = 0 := by omega
    have hsub : q.addr.toNat % 8192 - 4096 - 256 = q.addr.toNat % 8192 - 4352 := by omega
    unfold doBucketSelector
    dsimp only
    rw [hslot]
    dsimp only
    rw [if_neg (by simp [htag]; omega), if_neg (by simp [hread, hsize, haligned]; omega), hsub]

/-! ### Warp requests -/

/-- A request that a warp port accepts starts on its line. -/
theorem doWarp_accepted {kind : TxnKind} {q : WarpReq} {n : Nat} {evs : MemEvs} {b : Block} (h : warpAccepts kind q n b = true) :
    doWarp kind q evs b = pumpOut (flushInb (warpStarts kind q n evs b)) := by
  unfold warpAccepts at h
  cases hslot : slotSkein q.skeinTag.toNat b with
  | none => rw [hslot] at h; cases h
  | some e =>
    obtain ⟨m, x⟩ := e
    rw [hslot] at h
    simp only [Bool.and_eq_true, beq_iff_eq, Bool.not_eq_true', Option.isNone_iff_eq_none] at h
    obtain ⟨⟨⟨⟨rfl, hpeer⟩, hwf⟩, hfront⟩, hply⟩ := h
    rw [doWarp, if_neg (by simp [hpeer])]
    congr 2
    rw [doLocal.eq_def, hslot]
    cases kind <;> dsimp only at hwf ⊢ <;> rw [if_neg (Bool.eq_false_iff.mp hwf), hfront]
    · rfl
    · rfl
    · simp at hply
      simp [hply, warpStarts]

/-- Settles O15: what a warp port accepts starts on its line. -/
theorem warpRequestsStart : Obligations.WarpRequestsStart := by
  unfold Obligations.WarpRequestsStart
  intro q n evs s hopen
  have hply : ∀ {op : Nat}, warpAccepts .ply q n s.blk = true → (plyWord q.plyop).op = op →
      onWarp q (doPly op q evs) s = fabric s (warpStarts .ply q n evs s.blk) := by
    intro op hacc hop
    rw [onWarp_open hopen, doPly, if_pos (by simp [hop]), doWarp_accepted hacc, fabric]
  refine ⟨fun hacc => ?_, fun hacc => ?_, fun hacc hop => ?_, fun hacc hop => ?_, fun hacc hop => ?_, fun hacc hop => ?_, fun hacc hop => ?_,
    fun hacc hop => ?_, fun hacc hop => ?_, fun hacc hop => ?_⟩
  · rw [exec, execWarpRead, onWarp_open hopen, doWarp_accepted hacc, fabric]
  · rw [exec, execWarpWrite, onWarp_open hopen, doWarp_accepted hacc, fabric]
  · rw [exec, execPlyAdd, hply hacc hop]
  · rw [exec, execPlyMin, hply hacc hop]
  · rw [exec, execPlyMax, hply hacc hop]
  · rw [exec, execPlyAnd, hply hacc hop]
  · rw [exec, execPlyOr, hply hacc hop]
  · rw [exec, execPlyXor, hply hacc hop]
  · rw [exec, execPlySwap, hply hacc hop]
  · rw [exec, execPlyCas, hply hacc hop]

/-! ### Lines -/

/-- Settles O16: the plain reduction's branch. -/
theorem plyOnAHeldLine : Obligations.PlyOnAHeldLine := by
  unfold Obligations.PlyOnAHeldLine
  intro evs n w addr mask tag kr opnd b e hheld hexact hfetch
  simp only [plyOnEntry, hheld, hexact, hfetch, Bool.false_eq_true, if_false]

/-- Settles O17: each answer of a memory controller is used, and a window that has run out is written back. -/
theorem memoryAnswersComplete : Obligations.MemoryAnswersComplete := by
  unfold Obligations.MemoryAnswersComplete
  intro s evs
  refine ⟨fun lane mtag data ue ce r f hread hfetch => ?_, fun lane w id t hwrite hpurpose htxn => ?_, fun line e at' hheld hclose hdue hidle => ?_⟩
  · refine exec_fab (f := doReadReturn lane.toNat mtag.toNat data ue ce evs) (by rw [exec, execMemoryReadReturn]) ?_
    unfold doReadReturn
    rw [hread]
    dsimp only
    rw [hfetch]
  · refine exec_fab (f := doWriteAccept lane.toNat) (by rw [exec, execMemoryWriteAccept]) ?_
    unfold doWriteAccept
    rw [hwrite]
    dsimp only
    rw [hpurpose]
    dsimp only
    rw [htxn]
  · refine exec_fab (f := fun b => pumpAll evs (closeWindow evs (line.toNat / 64 * 64) b)) (by rw [exec, execAbsorberWindowClose]) ?_
    simp [closeWindow, hheld, hclose, hidle, Nat.not_lt.mpr hdue]

end Sys2Proof.Machine
end

section
/-! Keys, epochs, the entropy source and the key ladder: what each command does where it is served (R112, R302, R303, R310, R316 to
R318). -/

namespace Sys2Proof.Machine

/-! ### Key descriptors -/

theorem firmwareStep_free {x : Desc} {run : Desc → Block → Block} {b : Block} (h : ladderFree b = true) :
    firmwareStep x run b = run x (takeLadder 1 b) := by rw [firmwareStep, if_pos h]

section
variable {x : Desc} {n : Nat} {b : Block} (hring : x.ring = .skein n)
include hring

theorem getD_ringOwner : (ringOwner x.ring).getD 0 = n := by
  rw [hring]
  rfl

/-- The ladder's step of a KEY_INSTALL whose blob opens and installs. -/
theorem keyInstallStep_ok {sk : Skein} {mat : Key} {k : Nat} {b' : Block} (hsk : getSkein n (ladderUnits x (blobOf x.cmd) b) = some sk)
    (hopen : openBlob sk (blobOf x.cmd) = .ok mat)
    (hinstall : installBlob n (blobOf x.cmd) mat (ladderUnits x (blobOf x.cmd) b) = (cOK, k, b')) :
    keyInstallStep x b = complete x cOK (if leField (blobOf x.cmd) 0 1 = 0 then resAt 12 2 k else 0) (recordSerial n (blobOf x.cmd) b') := by
  simp [keyInstallStep, hring, ringOwner, hsk, hopen, hinstall]

/-- A KEY_INSTALL whose blob agrees takes its step on a free ladder. -/
theorem startKeyInstall_free (htpk : ((getSkein n (readHost (some n) (fieldAt x.raw 32 8) (blobOf x.cmd).length b)).bind (·.tpk)).isSome = true)
    (hagrees : blobAgrees n x.raw (blobOf x.cmd) = true)
    (hfree : ladderFree (readHost (some n) (fieldAt x.raw 32 8) (blobOf x.cmd).length b) = true)
    (hdraws : kiKind x.raw ≠ 1 ∨ trngStopped (readHost (some n) (fieldAt x.raw 32 8) (blobOf x.cmd).length b) = false) :
    startKeyInstall x b = keyInstallStep x (takeLadder 1 (readHost (some n) (fieldAt x.raw 32 8) (blobOf x.cmd).length b)) := by
  rw [startKeyInstall, getD_ringOwner hring]
  rw [if_neg (by simpa [Option.isSome_iff_ne_none] using htpk), if_neg (by simp [hagrees]), if_neg, firmwareStep_free hfree]
  obtain h | h := hdraws <;> simp [h]

/-- A KEY_INSTALL whose blob agrees, opens and installs completes with the key ID. -/
theorem startKeyInstall_ok {sk : Skein} {mat : Key} {k : Nat} {b' : Block}
    (htpk : ((getSkein n (readHost (some n) (fieldAt x.raw 32 8) (blobOf x.cmd).length b)).bind (·.tpk)).isSome = true)
    (hagrees : blobAgrees n x.raw (blobOf x.cmd) = true)
    (hfree : ladderFree (readHost (some n) (fieldAt x.raw 32 8) (blobOf x.cmd).length b) = true)
    (hdraws : kiKind x.raw ≠ 1 ∨ trngStopped (readHost (some n) (fieldAt x.raw 32 8) (blobOf x.cmd).length b) = false)
    (hsk : getSkein n (ladderUnits x (blobOf x.cmd)
      (takeLadder 1 (readHost (some n) (fieldAt x.raw 32 8) (blobOf x.cmd).length b))) = some sk)
    (hopen : openBlob sk (blobOf x.cmd) = .ok mat)
    (hinstall : installBlob n (blobOf x.cmd) mat (ladderUnits x (blobOf x.cmd)
      (takeLadder 1 (readHost (some n) (fieldAt x.raw 32 8) (blobOf x.cmd).length b))) = (cOK, k, b')) :
    startKeyInstall x b = complete x cOK (if leField (blobOf x.cmd) 0 1 = 0 then resAt 12 2 k else 0) (recordSerial n (blobOf x.cmd) b') :=
  (startKeyInstall_free hring htpk hagrees hfree hdraws).trans (keyInstallStep_ok hring hsk hopen hinstall)

/-- A KEY_ROTATE without a blob rotates its key on a free ladder. -/
theorem startKeyRotate_plain (hkey : checkKey n (fieldAt x.raw 16 2) b = none) (hepoch : krEpoch x.raw = false) (hblob : krBlob x.raw = false)
    (hfree : ladderFree b = true) :
    startKeyRotate x b = rotateKey (some x.id) (fieldAt x.raw 16 2) none (setPhase x.id .effected (takeLadder 1 b)) := by
  simp [startKeyRotate, hring, ringOwner, hkey, hepoch, hblob, firmwareStep_free hfree, keyRotateStep]

/-- A KEY_ROTATE whose blob agrees and opens rotates its key to the blob's material on a free ladder. -/
theorem startKeyRotate_blob {sk : Skein} {e : KeyEntry} {mat : Key} (hkey : checkKey n (fieldAt x.raw 16 2) b = none)
    (hepoch : krEpoch x.raw = false) (hblob : krBlob x.raw = true)
    (htpk : ((getSkein n (readHost (some n) (fieldAt x.raw 32 8) (blobOf x.cmd).length b)).bind (·.tpk)).isSome = true)
    (hentry : getKey (fieldAt x.raw 16 2) (readHost (some n) (fieldAt x.raw 32 8) (blobOf x.cmd).length b) = some e)
    (hagrees : rotateBlobAgrees n e.cls (blobOf x.cmd) = true)
    (hfree : ladderFree (readHost (some n) (fieldAt x.raw 32 8) (blobOf x.cmd).length b) = true)
    (hsk : getSkein n (ladderUnits x (blobOf x.cmd)
      (takeLadder 1 (readHost (some n) (fieldAt x.raw 32 8) (blobOf x.cmd).length b))) = some sk)
    (hopen : openBlob sk (blobOf x.cmd) = .ok mat) :
    startKeyRotate x b = rotateKey (some x.id) (fieldAt x.raw 16 2) (some mat) (setPhase x.id .effected (recordSerial n (blobOf x.cmd)
      (ladderUnits x (blobOf x.cmd) (takeLadder 1 (readHost (some n) (fieldAt x.raw 32 8) (blobOf x.cmd).length b))))) := by
  rw [startKeyRotate, getD_ringOwner hring]
  dsimp only
  rw [hkey]
  dsimp only
  rw [if_neg (by simp [hepoch]), if_pos hblob, if_neg (by simpa [Option.isSome_iff_ne_none] using htpk),
    if_neg (by simp [hentry, hagrees]), firmwareStep_free hfree, keyRotateStep, if_pos hblob]
  simp [hring, ringOwner, hsk, hopen]

/-- A DESCRIPTOR_ADVANCE queues its advance, and the oldest one of the region is made. -/
theorem startKeyRotate_epoch {e : KeyEntry} {g : Region} (hkey : checkKey n (fieldAt x.raw 16 2) b = none) (hepoch : krEpoch x.raw = true)
    (hentry : getKey (fieldAt x.raw 16 2) b = some e) (hcls : e.cls = .E) (hregion : amGet e.region b.mem.regions = some g) (hadv : g.adv = 0) :
    startKeyRotate x b = advanceNext e.region (setMem (fun m => { m with
      regions := amMod e.region (fun r => { r with advs := r.advs ++ [some x.id] }) m.regions }) b) := by
  simp [startKeyRotate, hring, ringOwner, hkey, hepoch, startAdvance, hentry, hcls, hregion, hadv]

theorem startKeyRetire_key (hbit : (fieldAt x.raw 18 1).testBit 0 = false) (hkey : checkKey n (fieldAt x.raw 16 2) b = none) :
    startKeyRetire x b = complete x cOK 0 (retireKey (some x.id) (fieldAt x.raw 16 2) b) := by
  rw [startKeyRetire, getD_ringOwner hring]
  dsimp only
  rw [if_neg (Bool.eq_false_iff.mp hbit), hkey]
  rfl

theorem startKeyRetire_transfer {t : TransferKey} (hbit : (fieldAt x.raw 18 1).testBit 0 = true)
    (hkey : ((getSkein n b).bind fun s => amGet (fieldAt x.raw 19 1) s.tkeys) = some t) :
    startKeyRetire x b = complete x cOK 0 (retireTkey n (fieldAt x.raw 19 1) t b) := by
  rw [startKeyRetire, getD_ringOwner hring]
  dsimp only
  rw [if_pos hbit, hkey]
  rfl

end

/-- Settles O18: each descriptor starts, and its start takes its step. -/
theorem keyDescriptorsComplete : Obligations.KeyDescriptorsComplete := by
  unfold Obligations.KeyDescriptorsComplete
  intro n d blob s
  refine ⟨fun hrun sk mat k b' htpk hagrees hfree hdraws hsk hopen hinstall => ?_, fun hrun hwaits hkey hepoch => ⟨fun hblob hfree => ?_,
      fun sk e mat hblob htpk hentry hagrees hfree hsk hopen => ?_⟩, fun hrun e g hwaits hkey hepoch hentry hcls hregion hadv => ?_,
    fun hrun hbit hkey => ?_, fun hrun t hbit hkey => ?_⟩
  · exact exec_desc hrun (f := doKeyInstall (.skein n) d blob) (by rw [exec, execKeyInstall]) (by rw [doKeyInstall])
      (startKeyInstall_ok rfl htpk hagrees hfree hdraws hsk hopen hinstall)
  · exact exec_desc hrun (f := doKeyRotate (.skein n) d blob) (by rw [exec, execKeyRotate]) (by rw [doKeyRotate, if_neg (by simp [hwaits])])
      (startKeyRotate_plain rfl hkey hepoch hblob hfree)
  · exact exec_desc hrun (f := doKeyRotate (.skein n) d blob) (by rw [exec, execKeyRotate]) (by rw [doKeyRotate, if_neg (by simp [hwaits])])
      (startKeyRotate_blob rfl hkey hepoch hblob htpk hentry hagrees hfree hsk hopen)
  · exact exec_desc hrun (f := doDescriptorAdvance (.skein n) d) (by rw [exec, execDescriptorAdvance])
      (by rw [doDescriptorAdvance, if_neg (by simp [hwaits])]) (startKeyRotate_epoch rfl hkey hepoch hentry hcls hregion hadv)
  · exact exec_desc hrun (f := doKeyRetire (.skein n) d) (by rw [exec, execKeyRetire]) (by rw [doKeyRetire])
      (startKeyRetire_key rfl hbit hkey)
  · exact exec_desc hrun (f := doTransferKeyRetire (.skein n) d) (by rw [exec, execTransferKeyRetire]) (by rw [doTransferKeyRetire])
      (startKeyRetire_transfer rfl hbit hkey)

/-! ### Events -/

/-- The oldest waiting advance of a region is made. -/
theorem advanceNext_made {r : Nat} {g : Region} {d : Nat} {ds : List (Option Nat)} {x : Desc} {b : Block}
    (hg : amGet r b.mem.regions = some g) (hadvs : g.advs = some d :: ds) (hmay : mayAdvance r b = true)
    (hdesc : findDesc d (advanceRegion r (setMem (fun m => { m with
      regions := amMod r (fun x => { x with advs := x.advs.drop 1 }) m.regions }) b)).2 = some x) :
    let o := advanceRegion r (setMem (fun m => { m with regions := amMod r (fun x => { x with advs := x.advs.drop 1 }) m.regions }) b)
    advanceNext r b = complete x (if o.1 then cOK else cQuota) 0 o.2 := by
  intro o
  unfold advanceNext
  rw [hg]
  dsimp only
  rw [hadvs]
  dsimp only
  rw [if_neg (by simp [hmay]), Option.bind_some, hdesc]
  rfl

/-- The manager's turn on the ladder. -/
theorem doLadderGrant_manager {evs : MemEvs} {keyStep : Desc → Block → Block} {b : Block} {n since : Nat} {ws : List (Nat × Nat)}
    (hwait : b.ladder.mgrWait = (n, since) :: ws) (hturn : b.ladder.fwWait = [] ∨ b.ladder.lastMgr = false) :
    doLadderGrant evs keyStep b = swapStep evs n (grantManager since ws b) := by
  have hmgr : managersTurn b = true := by
    obtain h | h := hturn <;> simp [managersTurn, hwait, h]
  rw [doLadderGrant, if_pos hmgr, hwait]

/-- The firmware's turn on the ladder. -/
theorem doLadderGrant_firmware {evs : MemEvs} {keyStep : Desc → Block → Block} {b : Block} {i : Nat} {is : List Nat} {x : Desc}
    (hwait : b.ladder.fwWait = i :: is) (hturn : b.ladder.mgrWait = [] ∨ b.ladder.lastMgr = true)
    (hdesc : findDesc i (grantFirmware is b) = some x) : doLadderGrant evs keyStep b = keyStep x (grantFirmware is b) := by
  have hmgr : managersTurn b = false := by
    obtain h | h := hturn <;> simp [managersTurn, hwait, h]
  rw [doLadderGrant, if_neg (by simp [hmgr]), hwait]
  dsimp only
  rw [hdesc]

theorem swapStep_in {evs : MemEvs} {n : Nat} {b : Block} {s : Skein} (hs : getSkein n b = some s) (hst : s.st = .swapped)
    (hslot : s.slot.isSome = true) : swapStep evs n b = swapInEnd evs n b := by simp [swapStep, hs, hst, hslot]

theorem swapStep_out {evs : MemEvs} {n : Nat} {b : Block} {s : Skein} (hs : getSkein n b = some s) (hst : s.st = .quiesced)
    (hdrain : s.drains.any (·.atLadder) = true) : swapStep evs n b = swapOutEnd evs n b := by
  simp only [swapStep, hs, hst, hdrain]
  rfl

/-- Settles O19: each event where its condition holds. -/
theorem entropyAndLadderEventsComplete : Obligations.EntropyAndLadderEventsComplete := by
  unfold Obligations.EntropyAndLadderEventsComplete
  intro s evs
  refine ⟨fun region g d ds x hg hadvs hmay hdesc => ?_, fun consecutive hstopped => ⟨fun hn => ?_, fun hn => ?_⟩,
    fun t hstopped htick => ?_, fun hstopped hdue => ?_, fun n since ws sk hwait hturn hsk => ⟨fun hst hslot => ?_, fun hst hdrain => ?_⟩,
    fun i is x hwait hturn hdesc => ?_, fun hfw hmgr => ?_⟩
  · exact exec_settled (f := doEpochAdvance region.toNat) (by rw [exec, execEpochAdvance]) (advanceNext_made hg hadvs hmay hdesc)
  · refine exec_settled (f := doTrngHealthFail consecutive) (by rw [exec, execTrngHealthFail]) ?_
    rw [doTrngHealthFail, if_neg (by simp [trngStopped, hstopped])]
    exact if_pos hn
  · refine exec_settled (f := doTrngHealthFail consecutive) (by rw [exec, execTrngHealthFail]) ?_
    rw [doTrngHealthFail, if_neg (by simp [trngStopped, hstopped])]
    exact if_neg (Nat.not_lt.mpr hn)
  · refine exec_settled (f := doTrngRestart true) (by rw [exec, execTrngRestart]) ?_
    simp [doTrngRestart, hstopped, Nat.not_lt.mpr htick]
  · refine exec_block (f := doDrbgReseed) (by rw [exec, execDrbgReseed]) ?_
    rw [doDrbgReseed]
    refine (if_neg ?_).trans rfl
    simp [trngStopped, hstopped]
    omega
  · refine exec_settled (f := doLadderGrant evs ladderStep) (by rw [exec, execKeyLadderGrant]) ?_
    rw [doLadderGrant_manager hwait hturn, swapStep_in hsk hst hslot]
  · refine exec_settled (f := doLadderGrant evs ladderStep) (by rw [exec, execKeyLadderGrant]) ?_
    rw [doLadderGrant_manager hwait hturn, swapStep_out hsk hst hdrain]
  · refine exec_settled (f := doLadderGrant evs ladderStep) (by rw [exec, execKeyLadderGrant]) ?_
    rw [doLadderGrant_firmware hwait hturn hdesc]
  · refine exec_settled (f := doLadderGrant evs ladderStep) (by rw [exec, execKeyLadderGrant]) ?_
    rw [doLadderGrant, if_neg (by simp [managersTurn, hmgr]), hfw]

end Sys2Proof.Machine
end

section
/-! The Reel's commands where they are served (R94, R146 to R165). -/

namespace Sys2Proof.Machine

/-- The zeroing that entered first, where no re-initialisation is ahead of it. -/
theorem doHankZeroing_runs {evs : MemEvs} {h : Nat} {x : Hank} {b : Block} (hworks : reelWorks b = true) (hfirst : firstZeroing b = some (h, x))
    (hahead : ∀ r, firstReinit b = some r → x.order ≤ reinitOrder r.1 b) (hst : (getHank h (zeroHank evs h x.cls b)).st ≠ .retired) :
    doHankZeroing evs b = if hankQuarantined h (zeroHank evs h x.cls b)
      then setHank h { getHank h (zeroHank evs h x.cls b) with st := .quarHeld } (zeroHank evs h x.cls b)
      else retryCells (freeHank h (zeroHank evs h x.cls b)) := by
  have hnone : ((firstReinit b).any fun r => decide (reinitOrder r.1 b < x.order)) = false := by
    cases hr : firstReinit b with
    | none => rfl
    | some r => simp [Nat.not_lt.mpr (hahead r hr)]
  rw [doHankZeroing, if_neg (by simp [hworks]), hfirst]
  dsimp only
  rw [if_neg (by simp [hnone]), if_neg hst]

/-- The re-initialisation that may be made first, where no zeroing is ahead of it. -/
theorem doQuarReinit_runs {evs : MemEvs} {h : Nat} {x : Hank} {b : Block} (hworks : reelWorks b = true) (hfirst : firstReinit b = some (h, x))
    (hahead : ∀ z, firstZeroing b = some z → reinitOrder h b ≤ z.2.order) :
    doQuarReinit evs b = retryCells (reinit evs (reinitWork h b).1 (reinitWork h b).2 b) := by
  have hnone : ((firstZeroing b).any fun z => decide (z.2.order < reinitOrder h b)) = false := by
    cases hz : firstZeroing b with
    | none => rfl
    | some z => simp [Nat.not_lt.mpr (hahead z hz)]
  rw [doQuarReinit, if_neg (by simp [hworks]), hfirst]
  exact if_neg (by simp [hnone])

/-- Settles O20: each command where its condition holds. -/
theorem reelCommandsComplete : Obligations.ReelCommandsComplete := by
  unfold Obligations.ReelCommandsComplete
  intro s evs
  refine ⟨fun hpass htaken hchanges => ?_, fun w hpass htaken hcut hnext hscope => ?_, fun w htaken hdrained => ?_, fun hpass htaken hnext => ?_,
    fun h x hworks hfirst hahead hst => ?_, fun h x hworks hfirst hahead => ?_, ?_, fun occ hdue => ?_, fun r d hrun hfull => ?_⟩
  · refine exec_settled (f := doPassStart) (by rw [exec, execReelPassStart]) ?_
    rw [doPassStart, if_neg (by simp [hpass, htaken, hchanges])]
  · refine exec_fab (f := doWindowTake evs) (by rw [exec, execReelWindowTake]) ?_
    rw [doWindowTake, if_neg (by simp [hpass, htaken, hcut]), hnext]
    exact if_pos hscope
  · refine exec_fab (f := doWindowRelease evs) (by rw [exec, execReelWindowRelease]) ?_
    simp [doWindowRelease, htaken, hdrained]
  · refine exec_settled (f := doPassEnd) (by rw [exec, execReelPassEnd]) ?_
    rw [doPassEnd, if_neg (by simp [hpass, htaken, hnext])]
  · exact exec_settled (f := doHankZeroing evs) (by rw [exec, execHankZeroing]) (doHankZeroing_runs hworks hfirst hahead hst)
  · exact exec_settled (f := doQuarReinit evs) (by rw [exec, execQuarantineReinit]) (doQuarReinit_runs hworks hfirst hahead)
  · exact exec_settled (f := doBitmapSweep) (by rw [exec, execBitmapSweep]) rfl
  · refine exec_settled (f := doSkewInterval occ) (by rw [exec, execSkewInterval]) ?_
    exact if_neg (Nat.not_lt.mpr hdue)
  · exact exec_desc hrun (f := doRetwist r d) (by rw [exec, execRetwist]) (by rw [doRetwist, if_neg (by simp [hfull])]) rfl

end Sys2Proof.Machine
end

section
/-! Seals: what each command does where its condition holds (R128 to R137). -/

namespace Sys2Proof.Machine

section
variable {x : Desc} {b : Block}

theorem startSealOut_arm (harm : soArm x.raw = true) (htaken : regionTaken (soKey x.raw) (dropStale b) = false)
    (hfew : ((dropStale b).srv.seals.filter fun s => s.st == .armed).length < 64) :
    startSealOut x b = setSrv (fun v => { v with seals := v.seals ++ [armedSeal x] }) (dropStale b) := by
  rw [startSealOut, if_pos harm, startArm]
  rw [if_neg (by simp [htaken]), if_neg (Nat.not_le.mpr hfew)]

theorem startSealOut_fire {sk : Skein} {t : Seal} (harm : soArm x.raw = false) (hsk : getSkein (soWord x.raw) (dropStale b) = some sk)
    (hpre : sk.preemptible = true) (hswapped : sk.st ≠ .swapped) (hdestroying : sk.st ≠ .destroying)
    (hseal : ((dropStale b).srv.seals.find? fun s => s.skein == soWord x.raw && s.st == .armed && s.base == soBase x.raw && s.lines == soLines x.raw) =
      some t) : startSealOut x b = setSeal t.desc (.fired x.id (BitVec.ofNat 64 (soValue x.raw))) (dropStale b) := by
  rw [startSealOut, if_neg (by simp [harm]), startFire]
  rw [hsk, hseal]
  exact if_neg (by simp [hpre, hswapped, hdestroying])

/-- A SEAL_IN whose record agrees and whose lines all verify signals the resume fence. -/
theorem startSealIn_ok {n i : Nat} {serr : Option Nat} {evs : MemEvs} {g : Region} {rec : Line} {c c' : Block} {y : Resume}
    (hcmd : sealInOf x.cmd = (serr, evs)) (hn : (ringOwner x.ring).getD 0 = n) (hkey : checkKey n (fieldAt x.raw 16 2) b = none)
    (hregion : sealRegion (fieldAt x.raw 16 2) b = some (i, g)) (hresume : b.srv.resumes.find? (fun y => y.region == i) = some y)
    (hlines : regionLines (fieldAt x.raw 16 2) (consumeSeal i b) ≠ 0)
    (hrec : getLine evs (sealWork x.raw) (regionLine (fieldAt x.raw 16 2) 0 (consumeSeal i b)) (consumeSeal i b) = (.ok rec, c))
    (hagrees : recordAgrees n (fieldAt x.raw 16 2) g (genNum ((getKey (fieldAt x.raw 16 2) c).bind (·.cur))) rec c = true)
    (hscratch : scratchBad (fieldAt x.raw 24 8) (fieldAt rec 16 4) = false)
    (hmoved : unsealLines evs (sealWork x.raw) (fieldAt x.raw 16 2) (fieldAt x.raw 24 8) serr (fieldAt rec 16 4) 0 c =
      (fieldAt rec 16 4, cOK, c')) :
    let m := countSeal n 888 (fieldAt rec 16 4) c'
    startSealIn x b = complete x (signalFence (some n) y.fence y.value m).1 (resAt 12 4 (fieldAt rec 16 4))
      (signalFence (some n) y.fence y.value m).2 := by
  unfold startSealIn
  rw [hn, hcmd]
  dsimp only
  rw [hkey, hregion]
  dsimp only
  rw [if_neg hlines, hrec]
  dsimp only
  rw [if_neg (by simp [hagrees, hscratch]), hmoved, hresume]
  rfl

end

/-- The seal's time has come: its lines are sealed and its scratchpad zeroed. -/
theorem doFireTime_ok {n base fire i : Nat} {scratch : List Line} {serr : Option Nat} {evs : MemEvs} {b c c₁ c' : Block} {t : Seal}
    {time : BitVec 64} {g : Region} (hc : sampleTime 0x19 0 b = c) (hfind : b.srv.seals.find? (fireDue n base b) = some t) (hst : t.st = .fired fire time)
    (hbar : regionBar t c = none) (hregion : sealRegion t.keyId c = some (i, g)) (hadvance : advanceRegion i c = (true, c₁))
    (hlines : sealLines evs (armWork t c₁) t.keyId scratch serr t.lines 0 c₁ = (t.lines, cOK, c')) :
    doFireTime n base scratch serr evs b = setSeal t.desc (.moving fire c.tim.t c.tim.quality)
      (countSeal t.skein 880 t.lines (zeroScratch t.base t.lines c')) := by
  unfold doFireTime
  split
  case h_1 hnone => rw [hfind] at hnone; cases hnone
  case h_2 s hs =>
    obtain rfl : t = s := Option.some.inj (hfind.symm.trans hs)
    split
    case h_2 hne => exact absurd hst (hne _ _)
    case h_1 fire' time' hst' =>
      obtain ⟨rfl, -⟩ : fire = fire' ∧ time = time' := by simpa [hst] using hst'
      extract_lets b' st q
      obtain rfl : c = b' := hc.symm
      split
      case h_1 _ h => cases hbar.symm.trans h
      case h_2 h => cases hregion.symm.trans h
      case h_3 i' g' _ h =>
        obtain ⟨rfl, rfl⟩ : i = i' ∧ g = g' := by simpa [hregion] using h
        split
        case h_1 ok c₂ h =>
          obtain ⟨rfl, rfl⟩ : true = ok ∧ c₁ = c₂ := by simpa [hadvance] using h
          rw [if_neg (by simp)]
          split
          case h_1 moved status c₃ h =>
            obtain ⟨rfl, rfl, rfl⟩ : t.lines = moved ∧ cOK = status ∧ c' = c₃ := by simpa [hlines] using h
            exact if_neg (by simp)

/-- The seal's record is written, and both descriptors complete. -/
theorem doSealOutEnd_ok {n base fire i q : Nat} {evs : MemEvs} {b c : Block} {t : Seal} {stamp : BitVec 64} {g : Region}
    (hfind : b.srv.seals.find? (movingAt n base) = some t) (hst : t.st = .moving fire stamp q) (hbar : regionBar t b = none)
    (hregion : sealRegion t.keyId b = some (i, g))
    (hput : putLine evs (armWork t b) (regionLine t.keyId 0 b) (sealRecord t g.epoch (genNum ((getKey t.keyId b).bind (·.cur))) stamp q)
      fullMask b = (cOK, c)) :
    doSealOutEnd n base evs b = sealAnswer fire cOK t.lines (sealAnswer t.desc cOK t.lines (endSeal t i c)) := by
  unfold doSealOutEnd
  rw [hfind]
  dsimp only
  rw [hst]
  dsimp only
  rw [hbar, hregion]
  dsimp only
  rw [hput]
  rfl

/-- Settles O21: each step of a seal where its condition holds. -/
theorem sealCommandsComplete : Obligations.SealCommandsComplete := by
  unfold Obligations.SealCommandsComplete
  intro s r d evs
  refine ⟨fun hrun harm htaken hfew => ?_, fun hrun sk t harm hsk hpre hswapped hdestroying hseal => ?_,
    fun serr hrun i g rec c c' y hkey hregion hresume hlines hrec hagrees hscratch hmoved => ?_,
    fun n base scratch serr t fire i time g c' hfind hst hbar hregion hadvance hlines => ?_,
    fun n base t fire i q stamp g c hfind hst hbar hregion hput => ?_⟩
  · exact exec_desc hrun (f := doSealOut r d (.sealArm r d)) (by rw [exec, execSealArm]) (by rw [doSealOut]) (startSealOut_arm harm htaken hfew)
  · exact exec_desc hrun (f := doSealOut r d (.sealFire r d)) (by rw [exec, execSealFire]) (by rw [doSealOut])
      (startSealOut_fire harm hsk hpre hswapped hdestroying hseal)
  · exact exec_desc hrun (f := doSealIn r d serr evs) (by rw [exec, execSealIn]) (by rw [doSealIn])
      (startSealIn_ok rfl rfl hkey hregion hresume hlines hrec hagrees hscratch hmoved)
  · exact exec_settled (f := doFireTime n.toNat base.toNat scratch (serr.map (·.toNat)) evs) (by rw [exec, execSealFireTime])
      (doFireTime_ok rfl hfind hst hbar hregion (Prod.ext hadvance rfl) hlines)
  · exact exec_settled (f := doSealOutEnd n.toNat base.toNat evs) (by rw [exec, execSealOutEnd])
      (doSealOutEnd_ok hfind hst hbar hregion hput)

end Sys2Proof.Machine
end

section
/-! Messages of the AEAD service: opened, moved and ended (R319 to R327). -/

namespace Sys2Proof.Machine

section
variable {x : Desc} {n : Nat} {b : Block}

theorem startImport_ok {t : TransferKey} (hring : (ringOwner x.ring).getD 0 = n) (hkey : tkeyOf n (fieldAt x.raw 16 1) b = some t)
    (hpreamble : leField (messageOf x.cmd).1 12 4 = 0)
    (hkind : fieldAt x.raw 18 1 = 0 ∨ kindClash n (fieldAt x.raw 17 1) (fieldAt x.raw 18 1) b = false) :
    startImport x b = openMsg
      { desc := x.id, skein := n, level := msgLevel x.ring (fieldAt x.raw 32 8) b, toHost := false, key := t.key,
        iv := sliceBytes (messageOf x.cmd).1 0 12, blocks := fieldAt x.raw 32 8 / 16,
        acc := gcmHash t.key 0 (sliceBytes (messageOf x.cmd).1 16 16), aad := 16, addr := raAddr (fieldAt x.raw 40 8),
        host := fieldAt x.raw 24 8 + 32 }
      (readHost (some n) (fieldAt x.raw 24 8) 32 (dropKept n (fieldAt x.raw 16 1) b)) := by
  rw [startImport, hring, hkey]
  refine if_neg ?_
  obtain h | h := hkind <;> simp [hpreamble, h]

theorem startDigest_ok {xs : List Line} {c : Block} (hring : (ringOwner x.ring).getD 0 = n)
    (hkind : kindClash n (fieldAt x.raw 16 1) (fieldAt x.raw 17 1) b = false)
    (hread : readLines (messageOf x.cmd).2 (descWork x.raw) (raAddr (fieldAt x.raw 24 8)) (fieldAt x.raw 32 8 / 64) b = (xs, cOK, c)) :
    let root := measuredRoot (lineBytes xs)
    let c' := extendMeas n (fieldAt x.raw 16 1) (fieldAt x.raw 17 1) (fieldAt x.raw 32 8) root c
    startDigest x b = complete x cOK 0 (if fieldAt x.raw 40 8 = 0 then c' else skeinWrite n (fieldAt x.raw 40 8) (toBytes 48 root) c') := by
  rw [startDigest, hring]
  dsimp only
  rw [if_neg (by simp [hkind]), hread]
  exact if_neg (by simp)

end

section
variable {x : Desc} {m : AeadMsg} {b : Block} (hst : m.status = cOK)
include hst

theorem endExport_ok : endExport x m b = complete x cOK (resAt 16 8 (exportOf m) ||| resAt 24 8 (48 + m.moved))
    (skeinWrite m.skein (m.host + m.moved) (gcmFinish m.key m.iv m.acc m.aad (16 * m.blocks)) b) := by
  rw [endExport, if_pos hst, hst]

/-- An IMPORT whose tag is right and that extends no slot completes with the bytes moved. -/
theorem endImport_ok (htag : (gcmFinish m.key m.iv m.acc m.aad (16 * m.blocks) == sliceBytes (messageOf x.cmd).1 (32 + 16 * m.blocks) 16) = true)
    (hkind : fieldAt x.raw 18 1 = 0) :
    endImport x m b = complete x cOK (resAt 16 8 m.moved) (readHost (some m.skein) (m.host + 16 * m.blocks) 16 b) := by
  have hstatus : importStatus x m = cOK := by simp_all [importStatus]
  rw [endImport, hstatus, if_pos hst]
  exact if_pos (by simp [hkind])

/-- An IMPORT whose tag is wrong completes with AUTH_FAIL. -/
theorem endImport_authFail
    (htag : (gcmFinish m.key m.iv m.acc m.aad (16 * m.blocks) == sliceBytes (messageOf x.cmd).1 (32 + 16 * m.blocks) 16) = false) :
    endImport x m b = complete x cAuthFail (resAt 16 8 m.moved) (readHost (some m.skein) (m.host + 16 * m.blocks) 16 b) := by
  have hstatus : importStatus x m = cAuthFail := by simp_all [importStatus]
  rw [endImport, hstatus, if_pos hst]
  exact if_pos rfl

end

/-- The end of the running message frees its context and ends it by its direction. -/
theorem doMessageEnd_running {r : Ring} {index : BitVec 16} {x : Desc} {m₀ m : AeadMsg} {b e : Block}
    (hdesc : descAt r index (dropStale b) = some x) (hmsg : runningMsg (dropStale b) = some m₀) (hid : m₀.desc = x.id)
    (hmoved : advanceMsg x (m₀.blocks - m₀.pos) m₀ (dropStale b) = (m, e)) :
    doMessageEnd r index b =
      let c := setSrv (fun v => { v with aead := v.aead.filter fun y => y.desc != m.desc }) e
      if m.toHost then endExport x m c else endImport x m c := by
  rw [doMessageEnd]
  dsimp only
  rw [hdesc, hmsg]
  dsimp only
  rw [if_pos hid, endMsg, hmoved]

/-- Settles O22: each step of a message where its condition holds. -/
theorem messageCommandsComplete : Obligations.MessageCommandsComplete := by
  unfold Obligations.MessageCommandsComplete
  intro n d msg evs s
  refine ⟨fun hrun hwaits t hkey hpreamble hkind => ?_, fun hrun hwaits t hkey => ?_, fun hrun xs c hkind hread => ?_,
    fun r index x m₀ m e hdesc hmsg hid hmoved hst => ⟨fun hto => ?_, fun hto => ⟨fun htag hkind => ?_, fun htag => ?_⟩⟩⟩
  · refine exec_settled (f := doImport (.skein n) d msg evs) (by rw [exec, execImportMsg]) ?_
    rw [doImport]
    dsimp only
    rw [if_neg (by simp [hwaits]), fetch_runs hrun]
    exact startImport_ok rfl hkey hpreamble hkind
  · refine exec_settled (f := doExport (.skein n) d evs) (by rw [exec, execExportMsg]) ?_
    rw [doExport]
    dsimp only
    rw [if_neg (by simp [hwaits]), fetch_runs hrun]
    rw [startExport]
    split
    · rename_i hnone
      exact absurd (hkey.symm.trans hnone) (Option.some_ne_none t)
    · rename_i t' ht'
      cases hkey.symm.trans ht'
      rfl
  · exact exec_desc hrun (f := doDigest (.skein n) d evs) (by rw [exec, execDigest]) (by rw [doDigest]) (startDigest_ok rfl hkind hread)
  · refine exec_settled (f := doMessageEnd r index) (by rw [exec, execAeadMessageEnd]) ?_
    rw [doMessageEnd_running hdesc hmsg hid hmoved]
    exact (if_pos hto).trans (endExport_ok hst)
  · refine exec_settled (f := doMessageEnd r index) (by rw [exec, execAeadMessageEnd]) ?_
    rw [doMessageEnd_running hdesc hmsg hid hmoved]
    exact (if_neg (by simp [hto])).trans (endImport_ok hst htag hkind)
  · refine exec_settled (f := doMessageEnd r index) (by rw [exec, execAeadMessageEnd]) ?_
    rw [doMessageEnd_running hdesc hmsg hid hmoved]
    exact (if_neg (by simp [hto])).trans (endImport_authFail hst htag)

end Sys2Proof.Machine
end

section
/-! The manager's skein descriptors (R267 to R277). -/

namespace Sys2Proof.Machine

theorem dOpcode_of_runsNow {r : Ring} {d : Line} {op : Nat} {checks : Block → Checks} {c : Instr} {uses : Block → List Nat} {b : Block}
    (h : runsNow r d op checks c uses b = true) : dOpcode d = op := by
  simp only [runsNow, Bool.and_eq_true, beq_iff_eq] at h
  obtain ⟨⟨⟨⟨hop, -⟩, -⟩, -⟩, -⟩ := h
  exact hop

section
variable {x : Desc} {b : Block}

theorem startCreate_ok {s₀ : Nat} {ss : List Nat} (hnew : (getSkein (scId x.raw) b).isNone = true)
    (hclass : scSlotClass x.raw = true → (slotClassSkein b).isNone = true) (hslots : freeSlots b = s₀ :: ss)
    (hover : createOver x.raw b = false) :
    let slot := (s₀ :: ss).getD (choose (ss.length + 1) b).1 s₀
    startCreate x b = packageDone x cOK (resAt 12 1 slot) false (createSkein x.raw slot (choose (ss.length + 1) b).2) := by
  have hdefined : ¬((getSkein (scId x.raw) b).isSome || (scSlotClass x.raw && (slotClassSkein b).isSome)) = true := by
    cases hc : scSlotClass x.raw <;> simp_all
  rw [startCreate]
  dsimp only
  rw [if_neg hdefined, hslots]
  exact if_neg (by simp [hover])

theorem startShare_ok {sk : Skein} (hsk : getSkein (scId x.raw) b = some sk) (hst : sk.st ≠ .destroying)
    (hover : sharesOver (scId x.raw) (sharesSet x.raw sk) b = false) :
    startShare x b = complete x cOK 0 (modSkein (scId x.raw) (sharesSet x.raw) b) := by
  rw [startShare, hsk]
  dsimp only
  rw [if_neg hst, if_neg (by simp [hover]), finish]

section
variable {sk : Skein} (hsk : getSkein (fieldAt x.raw 16 2) b = some sk)
include hsk

theorem startQuiesce_drain (hmode : sqMode x.raw = 0) (hst : sk.st = .resident ∨ sk.st = .quiescing) :
    startQuiesce x b = beginDrain .quiesce x (fieldAt x.raw 16 2) (sqLimit x.raw) (evsOf x.cmd) sk b := by
  rw [startQuiesce, hsk]
  dsimp only
  rw [if_pos hmode, if_pos (by simpa using hst)]

theorem startQuiesce_quiesced (hmode : sqMode x.raw = 0) (hst : sk.st = .quiesced) :
    startQuiesce x b = packageDone x cOK 0 false b := by
  rw [startQuiesce, hsk]
  dsimp only
  rw [if_pos hmode, if_neg (by simp [hst]), if_pos hst]

theorem startQuiesce_resume (hmode : sqMode x.raw = 1) (hst : sk.st = .quiescing ∨ sk.st = .quiesced) :
    startQuiesce x b = agree (evsOf x.cmd) x b := by
  rw [startQuiesce, hsk]
  dsimp only
  rw [if_neg (by omega), if_pos hmode, if_pos (by simpa using hst)]

theorem startQuiesce_reset (hmode : sqMode x.raw = 2) (hst : sk.st = .quiesced) : startQuiesce x b = agree (evsOf x.cmd) x b := by
  rw [startQuiesce, hsk]
  dsimp only
  rw [if_neg (by omega), if_neg (by omega), if_pos hst]

theorem startSwapOut_ok (hclass : sk.slotClass = false) (hst : sk.st = .resident ∨ sk.st = .quiesced) :
    startSwapOut x b = beginDrain .swapOut x (fieldAt x.raw 16 2) (fieldAt x.raw 20 2) (evsOf x.cmd) sk b := by
  rw [startSwapOut, hsk]
  dsimp only
  rw [if_neg (by simp [hclass]), if_pos (by simpa using hst)]

theorem startDestroy_ok (hst : sk.st ≠ .destroying) :
    startDestroy x b = destroySkein (some x) (evsOf x.cmd) (fieldAt x.raw 16 2) (openPkg x none none [] b) := by
  rw [startDestroy, hsk]
  exact if_neg hst

end

/-- With no follower to wait for, an agreed operation is applied at once. -/
theorem agree_alone {evs : MemEvs} (h : pkgWaits x.id b = []) : agree evs x b = applyOp evs x b := by rw [agree, if_pos (by simp [h])]

theorem agree_waits {evs : MemEvs} (h : pkgWaits x.id b ≠ []) :
    agree evs x b = setPhase x.id .agreeing (openPkg x none (some b.tick) evs b) := by rw [agree, if_neg (by simpa using h)]

theorem applyOp_resume {evs : MemEvs} (hop : dOpcode x.raw = 0x41) (hmode : sqMode x.raw = 1) :
    applyOp evs x b = complete x cOK 0 (resumeSkein (fieldAt x.raw 16 2) b) := by
  rw [applyOp, if_neg (by omega), if_neg (by omega), finish]

theorem applyOp_reset {evs : MemEvs} (hop : dOpcode x.raw = 0x41) (hmode : sqMode x.raw = 2) :
    applyOp evs x b = resetSkein evs (fieldAt x.raw 16 2) b := by
  rw [applyOp, if_neg (by omega), if_pos hmode]

theorem applyOp_swapIn {evs : MemEvs} (hop : dOpcode x.raw = 0x44) (hfree : ladderFree b = true) :
    applyOp evs x b = swapInEnd evs (fieldAt x.raw 16 2) (takeLadder 2 b) := by
  rw [applyOp, if_pos hop, managerStep, if_pos hfree]

theorem startSwapIn_ok {c : Block} (hst : (getSkein (fieldAt x.raw 16 2) b).map (·.st) = some .swapped)
    (htake : takeSlot (fieldAt x.raw 16 2) b = (cOK, c)) : startSwapIn x b = agree (evsOf x.cmd) x c := by
  rw [startSwapIn]
  dsimp only
  rw [if_neg (by simp [hst]), htake]
  exact if_neg (by simp)

/-! ### With and without followers -/

section
variable {sk : Skein} (hsk : getSkein (fieldAt x.raw 16 2) b = some sk)
include hsk

theorem startQuiesce_resumed (hop : dOpcode x.raw = 0x41) (hmode : sqMode x.raw = 1) (hst : sk.st = .quiescing ∨ sk.st = .quiesced)
    (hwaits : pkgWaits x.id b = []) : startQuiesce x b = complete x cOK 0 (resumeSkein (fieldAt x.raw 16 2) b) := by
  rw [startQuiesce_resume hsk hmode hst, agree_alone hwaits, applyOp_resume hop hmode]

theorem startQuiesce_resume_waits (hmode : sqMode x.raw = 1) (hst : sk.st = .quiescing ∨ sk.st = .quiesced) (hwaits : pkgWaits x.id b ≠ []) :
    startQuiesce x b = setPhase x.id .agreeing (openPkg x none (some b.tick) (evsOf x.cmd) b) := by
  rw [startQuiesce_resume hsk hmode hst, agree_waits hwaits]

theorem startQuiesce_resets (hop : dOpcode x.raw = 0x41) (hmode : sqMode x.raw = 2) (hst : sk.st = .quiesced) (hwaits : pkgWaits x.id b = []) :
    startQuiesce x b = resetSkein (evsOf x.cmd) (fieldAt x.raw 16 2) b := by
  rw [startQuiesce_reset hsk hmode hst, agree_alone hwaits, applyOp_reset hop hmode]

theorem startQuiesce_reset_waits (hmode : sqMode x.raw = 2) (hst : sk.st = .quiesced) (hwaits : pkgWaits x.id b ≠ []) :
    startQuiesce x b = setPhase x.id .agreeing (openPkg x none (some b.tick) (evsOf x.cmd) b) := by
  rw [startQuiesce_reset hsk hmode hst, agree_waits hwaits]

end

theorem startSwapIn_alone {c : Block} (hop : dOpcode x.raw = 0x44) (hst : (getSkein (fieldAt x.raw 16 2) b).map (·.st) = some .swapped)
    (htake : takeSlot (fieldAt x.raw 16 2) b = (cOK, c)) (hwaits : pkgWaits x.id c = []) (hfree : ladderFree c = true) :
    startSwapIn x b = swapInEnd (evsOf x.cmd) (fieldAt x.raw 16 2) (takeLadder 2 c) := by
  rw [startSwapIn_ok hst htake, agree_alone hwaits, applyOp_swapIn hop hfree]

end

/-- Settles O23: each of the manager's skein descriptors where its condition holds. -/
theorem skeinDescriptorsComplete : Obligations.SkeinDescriptorsComplete := by
  unfold Obligations.SkeinDescriptorsComplete
  intro d evs s
  refine ⟨fun hrun s₀ ss hnew hclass hslots hover => ?_, fun hrun sk hsk hst hover => ?_,
    fun hrun sk hsk hmode => ⟨fun hst => ?_, fun hst => ?_⟩, fun hrun sk hsk hmode hst => ⟨fun hwaits => ?_, fun hwaits => ?_⟩,
    fun hrun sk hsk hmode hst => ⟨fun hwaits => ?_, fun hwaits => ?_⟩, fun hrun sk hsk hclass hst => ?_,
    fun hrun c hst htake hwaits hfree => ?_, fun hrun sk hsk hst => ?_⟩
  · exact exec_desc hrun (f := doSkeinCreate .mgr d) (by rw [exec, execSkeinCreate]) (by rw [doSkeinCreate])
      (startCreate_ok hnew hclass hslots hover)
  · exact exec_desc hrun (f := doShareSet .mgr d) (by rw [exec, execShareSet]) (by rw [doShareSet]) (startShare_ok hsk hst hover)
  · exact exec_desc hrun (f := doSkeinQuiesce .mgr d (.skeinQuiesce .mgr d evs)) (by rw [exec, execSkeinQuiesce]) (by rw [doSkeinQuiesce])
      (startQuiesce_drain hsk hmode hst)
  · exact exec_desc hrun (f := doSkeinQuiesce .mgr d (.skeinQuiesce .mgr d evs)) (by rw [exec, execSkeinQuiesce]) (by rw [doSkeinQuiesce])
      (startQuiesce_quiesced hsk hmode hst)
  · exact exec_desc hrun (f := doSkeinQuiesce .mgr d (.skeinResume .mgr d evs)) (by rw [exec, execSkeinResume]) (by rw [doSkeinQuiesce])
      (startQuiesce_resumed hsk (dOpcode_of_runsNow hrun) hmode hst hwaits)
  · exact exec_desc hrun (f := doSkeinQuiesce .mgr d (.skeinResume .mgr d evs)) (by rw [exec, execSkeinResume]) (by rw [doSkeinQuiesce])
      (startQuiesce_resume_waits hsk hmode hst hwaits)
  · exact exec_desc hrun (f := doSkeinQuiesce .mgr d (.skeinReset .mgr d evs)) (by rw [exec, execSkeinReset]) (by rw [doSkeinQuiesce])
      (startQuiesce_resets hsk (dOpcode_of_runsNow hrun) hmode hst hwaits)
  · exact exec_desc hrun (f := doSkeinQuiesce .mgr d (.skeinReset .mgr d evs)) (by rw [exec, execSkeinReset]) (by rw [doSkeinQuiesce])
      (startQuiesce_reset_waits hsk hmode hst hwaits)
  · exact exec_desc hrun (f := doSkeinSwapOut .mgr d evs) (by rw [exec, execSkeinSwapOut]) (by rw [doSkeinSwapOut])
      (startSwapOut_ok hsk hclass hst)
  · exact exec_desc hrun (f := doSkeinSwapIn .mgr d evs) (by rw [exec, execSkeinSwapIn]) (by rw [doSkeinSwapIn])
      (startSwapIn_alone (dOpcode_of_runsNow hrun) hst htake hwaits hfree)
  · exact exec_desc hrun (f := doSkeinDestroy .mgr d evs) (by rw [exec, execSkeinDestroy]) (by rw [doSkeinDestroy]) (startDestroy_ok hsk hst)

end Sys2Proof.Machine
end

section
/-! Skein events: resets, drains, the all-blocked rule and the followers (R30, R34, R267, R272 to R285). -/

namespace Sys2Proof.Machine

section
variable {n : Nat} {b : Block} {sk : Skein} (hsk : getSkein n b = some sk)
include hsk

theorem doResetDone_ok {x : Desc} (hst : sk.st = .resetting)
    (hdesc : resetDesc n (setSkSt n .quiesced (modSkein n (fun s => { s with frozen := none }) b)) = some x) :
    doResetDone n b = complete x cOK 0 (setSkSt n .quiesced (modSkein n (fun s => { s with frozen := none }) b)) := by
  rw [doResetDone, hsk]
  dsimp only
  rw [if_neg (by simp [hst]), hdesc]
  rfl

theorem doResetTimeout_ok {evs : MemEvs} {x : Desc} (hst : sk.st = .resetting) (hdue : sk.resetSince + 100000 ≤ b.tick)
    (hdesc : resetDesc n b = some x) : doResetTimeout evs n b = complete x cTimeout 0 (destroyNow evs n b) := by
  rw [doResetTimeout, hsk]
  dsimp only
  rw [if_neg (by simp [hst, hdue]), hdesc]
  rfl

/-- The drain of a limit that expires is late from then on, and has no descriptor. -/
theorem doLimitExpiry_one {dr : Drain} {i : Nat} {x : Desc} {c : Block} (hdue : sk.drains.filter (drainDue sk.st b.tick) = [dr])
    (hi : dr.desc = some i)
    (hc : modSkein n (fun s =>
      { s with drains := s.drains.map fun d => if drainDue sk.st b.tick d then { d with late := true, desc := none } else d }) b = c)
    (hdesc : findDesc i c = some x) (hheld : (complete x cTimeout 0 c).descs.filter (heldDue n (complete x cTimeout 0 c)) = []) :
    doLimitExpiry n b = complete x cTimeout 0 c := by
  rw [doLimitExpiry, hsk]
  dsimp only
  rw [hc, hdue, List.foldl_cons, List.foldl_nil, hi, Option.bind_some, hdesc]
  dsimp only
  rw [finish, hheld, List.foldl_nil]

theorem tryDrain_quiescing {evs : MemEvs} (hst : sk.st = .quiescing) (hdrained : drained n b = true) (hresuming : resuming n b = false)
    (hacked : acked sk.drains b = true) : tryDrain evs n b = endQuiesce evs n sk.drains b := by
  rw [tryDrain, hsk]
  dsimp only
  rw [if_pos hst, if_neg (by simp [hdrained, hresuming]), if_pos hacked]

/-- The destroy of a drained skein, or of one whose limit has passed, ends where no seal runs and the Reel holds none of its windows. -/
theorem tryDrain_destroying {evs : MemEvs} (hst : sk.st = .destroying)
    (hready : drained n b = true ∨ (sk.drains.any fun d => d.kind == .destroy && d.late) = true)
    (hseal : sealRuns n b = false) (hreel : reelHolds n b = false) : tryDrain evs n b = endDestroy evs n b := by
  rw [tryDrain, hsk]
  dsimp only
  rw [if_neg (by simp [hst]), if_neg (by simp [hst]), if_pos hst]
  refine if_pos ?_
  simpa [hseal, hreel] using hready

theorem doDrainLimit_ok {evs : MemEvs} {dr : Drain} (hst : sk.st = .destroying) (hmem : dr ∈ sk.drains) (hkind : dr.kind = .destroy)
    (hdue : dr.deadline ≤ b.tick) (hseal : sealRuns n b = false) (hreel : reelHolds n b = false) :
    doDrainLimit evs n b = endDestroy evs n (modSkein n (fun s => { s with drains := s.drains.map fun d => { d with late := true } }) b) := by
  have hany : (sk.drains.any fun d => d.kind == .destroy && decide (d.deadline ≤ b.tick)) = true :=
    List.any_eq_true.2 ⟨dr, hmem, by simp [hkind, hdue]⟩
  have hlate : ((sk.drains.map fun d => { d with late := true }).any fun d => d.kind == .destroy && d.late) = true :=
    List.any_eq_true.2 ⟨_, List.mem_map_of_mem hmem, by simp [hkind]⟩
  have hget : getSkein n (modSkein n (fun s => { s with drains := s.drains.map fun d => { d with late := true } }) b) =
      some { sk with drains := sk.drains.map fun d => { d with late := true } } :=
    (getSkein_modSkein_same n _ b).trans (by rw [hsk, Option.map_some])
  rw [doDrainLimit, hsk]
  dsimp only
  rw [if_neg (by simp [hst, hany])]
  exact tryDrain_destroying hget hst (.inr hlate) hseal hreel

end

theorem doAllBlocked_begins {evs : MemEvs} {b : Block} {since waiter chosen victim : Nat} {vs : Skein} (hrule : b.rule = none)
    (hblocked : allBlocked b = true) (hchosen : ruleChosen b = some (since, waiter, chosen)) (hvictim : ruleVictim b = some (victim, vs)) :
    doAllBlocked evs b = ruleNext evs (beginRule evs waiter chosen victim vs b) := by
  rw [doAllBlocked, if_neg (by simp [hrule]), if_neg (by simp [hblocked]), hchosen, hvictim]

section
variable {index : BitVec 16} {die : Nat} {b c : Block} {p : PkgOp}
  (hfind : (b.fab.pkgOps.find? fun p => p.index == index && p.waits.contains die) = some p)
  (hc : setFab (fun f => { f with pkgOps := f.pkgOps.map fun q =>
    if q.desc = p.desc then { p with waits := p.waits.filter fun d => d != die } else q }) b = c)
include hfind hc

theorem doFollowerAck_waits (h : (p.waits.filter fun d => d != die) ≠ []) : doFollowerAck index die b = c := by
  rw [doFollowerAck, hfind]
  dsimp only
  rw [hc]
  exact if_neg (by simpa using h)

/-- The last acknowledgement answers an operation that is done on this die. -/
theorem doFollowerAck_done {x : Desc} {st : BitVec 8} {res : BitVec 160} {forced : Bool} (h : (p.waits.filter fun d => d != die) = [])
    (hdrain : p.drain = none) (hdesc : findDesc p.desc c = some x) (hphase : x.phase = .followers st res forced) :
    doFollowerAck index die b = completeF x st res forced (dropPkg p.desc c) := by
  rw [doFollowerAck, hfind]
  dsimp only
  rw [hc, if_pos (by rw [h]; rfl), pkgWhole]
  dsimp only
  rw [hdrain]
  dsimp only
  rw [hdesc]
  dsimp only
  rw [hphase]

/-- The last acknowledgement lets an operation that waited be applied on this die. -/
theorem doFollowerAck_applies {x : Desc} (h : (p.waits.filter fun d => d != die) = []) (hdrain : p.drain = none)
    (hdesc : findDesc p.desc c = some x) (hphase : x.phase = .agreeing) :
    doFollowerAck index die b = applyOp p.evs { x with phase := .running } (setPhase x.id .running (dropPkg p.desc c)) := by
  rw [doFollowerAck, hfind]
  dsimp only
  rw [hc, if_pos (by rw [h]; rfl), pkgWhole]
  dsimp only
  rw [hdrain]
  dsimp only
  rw [hdesc]
  dsimp only
  rw [hphase]

end

theorem doPackageTimeout_ok {index : BitVec 16} {evs : MemEvs} {b : Block} {p : PkgOp} {x : Desc}
    (hfind : (b.fab.pkgOps.find? fun p => p.index == index && p.since.any fun t => decide (t + p.limit ≤ b.tick)) = some p)
    (hdesc : findDesc p.desc b = some x) (hop : dOpcode x.raw ≠ 0x42) :
    doPackageTimeout index evs b = complete x cTimeout 0 (undoOp evs x (dropPkg p.desc b)) := by
  rw [doPackageTimeout, hfind]
  dsimp only
  rw [hdesc]
  dsimp only
  split
  · exact if_neg hop
  · rfl

/-- Settles O24: each of the skeins' events where its condition holds. -/
theorem skeinEventsComplete : Obligations.SkeinEventsComplete := by
  unfold Obligations.SkeinEventsComplete
  intro s n evs
  refine ⟨fun sk x hsk hst hdesc => ?_, fun sk x hsk hst hdue hdesc => ?_, fun sk dr i x hsk hdue hi hdesc hheld => ?_,
    fun sk hsk hdrained => ⟨fun hst hresuming hacked => ?_, fun hst hseal hreel => ?_⟩,
    fun sk dr hsk hst hmem hkind hdue hseal hreel => ?_, fun since waiter chosen victim vs hrule hblocked hchosen hvictim => ?_,
    fun index die p hfind => ⟨fun h => ?_, fun h hdrain x hdesc => ⟨fun st res forced hphase => ?_, fun hphase => ?_⟩⟩,
    fun index p x hfind hdesc hop => ?_⟩
  · exact exec_settled (f := doResetDone n.toNat) (by rw [exec, execSkeinResetDone]) (doResetDone_ok hsk hst hdesc)
  · exact exec_settled (f := doResetTimeout evs n.toNat) (by rw [exec, execSkeinResetTimeout]) (doResetTimeout_ok hsk hst hdue hdesc)
  · exact exec_settled (f := doLimitExpiry n.toNat) (by rw [exec, execQuiesceLimitExpiry]) (doLimitExpiry_one hsk hdue hi rfl hdesc hheld)
  · exact exec_settled (f := tryDrain evs n.toNat) (by rw [exec, execDrainComplete]) (tryDrain_quiescing hsk hst hdrained hresuming hacked)
  · exact exec_settled (f := tryDrain evs n.toNat) (by rw [exec, execDrainComplete]) (tryDrain_destroying hsk hst (.inl hdrained) hseal hreel)
  · exact exec_settled (f := doDrainLimit evs n.toNat) (by rw [exec, execDrainLimitExpiry])
      (doDrainLimit_ok hsk hst hmem hkind hdue hseal hreel)
  · exact exec_settled (f := doAllBlocked evs) (by rw [exec, execAllBlockedRule]) (doAllBlocked_begins hrule hblocked hchosen hvictim)
  · exact exec_settled (f := doFollowerAck index die.toNat) (by rw [exec, execFollowerAck]) (doFollowerAck_waits hfind rfl h)
  · exact exec_settled (f := doFollowerAck index die.toNat) (by rw [exec, execFollowerAck]) (doFollowerAck_done hfind rfl h hdrain hdesc hphase)
  · exact exec_settled (f := doFollowerAck index die.toNat) (by rw [exec, execFollowerAck])
      (doFollowerAck_applies hfind rfl h hdrain hdesc hphase)
  · exact exec_settled (f := doPackageTimeout index evs) (by rw [exec, execPackageOpTimeout]) (doPackageTimeout_ok hfind hdesc hop)

end Sys2Proof.Machine
end

section
/-! Evidence, integrity checks, trace marks and the carder (R340 to R343, R411 to R416, R478). -/

namespace Sys2Proof.Machine

section
variable {x : Desc} {b : Block}

theorem startEvidence_ok {n : Nat} {sk : Skein} (hring : (ringOwner x.ring).getD 0 = n) (htrng : trngStopped b = false)
    (hsk : evSkein n b = some sk) :
    let e := evRecord n sk (toBytes 32 (BitVec.ofNat 256 (fieldAt x.raw 24 32))) b
    startEvidence x b = complete x cOK (resAt 12 4 e.1.length) (skeinWrite n (fieldAt x.raw 16 8) e.1 e.2) := by
  rw [startEvidence, hring]
  dsimp only
  rw [if_neg (by simp [htrng]), hsk]

theorem startPlyCheck_ok {n : Nat} {w : Secret} {win : Nat} {da db : BitVec 64} {c : Block} (hring : (ringOwner x.ring).getD 0 = n)
    (hlen : pcLen x.raw ≠ 0) (hroom : pcPeriod x.raw = 0 ∨ (standingOf x.ring b).length < 16) (hweft : skeinWeft n b = some w)
    (hcompare : compareRanges (checkEvs x.cmd) (descWork x.raw) w x.raw b = (.ok (win, da, db), c)) :
    startPlyCheck x b = complete x cOK (resAt 12 4 win ||| resAt 16 8 da.toNat ||| resAt 24 8 db.toNat)
      (if pcPeriod x.raw = 0 then c else { c with standing := c.standing ++ [standingOn x c] }) := by
  have hfew : ¬(pcPeriod x.raw != 0 && decide (16 ≤ (standingOf x.ring b).length)) = true := by
    obtain h | h := hroom
    · simp [h]
    · simp [Nat.not_le.2 h]
  rw [startPlyCheck, hring]
  dsimp only
  rw [if_neg hlen, if_neg hfew, hweft]
  dsimp only
  rw [hcompare]

theorem startPlyCheck_end (hlen : pcLen x.raw = 0) (hany : (b.standing.any fun c => c.ring == x.ring && pcA c.raw == pcA x.raw) = true) :
    startPlyCheck x b =
      complete x cOK 0 { b with standing := b.standing.filter fun c => !(c.ring == x.ring && pcA c.raw == pcA x.raw) } := by
  rw [startPlyCheck]
  dsimp only
  rw [if_pos hlen, if_pos hany, finish]

end

theorem doCheckRepeat_due {n base win : Nat} {evs : MemEvs} {b b' : Block} {c : Standing} {w : Secret} {da db : BitVec 64}
    (hasleep : asleep b = false)
    (hfind : (b.standing.find? fun c => c.ring == .skein n && pcA c.raw == base && decide (c.due ≤ b.tick)) = some c)
    (hweft : skeinWeft n b = some w) (hcompare : compareRanges evs carderWork w c.raw (nextCheck c b) = (.ok (win, da, db), b')) :
    doCheckRepeat n base evs b = if win = 0xFFFFFFFF then b' else checkMismatch n base b' := by
  rw [doCheckRepeat]
  dsimp only
  rw [if_neg (by simp [hasleep]), hfind, hweft]
  dsimp only
  rw [hcompare]

theorem doCarderPass_due {evs : MemEvs} {b : Block} (hasleep : asleep b = false) (hstarted : b.dst.started = true)
    (henable : b.regs.fltCarder.getLsbD 0 = true)
    (hdue : b.dst.carderAt.getD 0 + bitField b.regs.fltCarder 31 16 * 1000000 ≤ b.tick) :
    let c := setDistaff (fun d => { d with carderAt := some b.tick }) b
    doCarderPass evs b = if b.dst.carder then bumpHealth 56 1 c
      else setDistaff (fun d => { d with carder := true, carderMark := 0, carderEvs := evs }) c := by
  rw [doCarderPass]
  refine if_neg ?_
  simp only [hasleep, hstarted, henable, Nat.not_lt.2 hdue]
  decide

/-- Settles O25: each command of evidence, checks, marks and the carder where its condition holds. -/
theorem evidenceAndCarderComplete : Obligations.EvidenceAndCarderComplete := by
  unfold Obligations.EvidenceAndCarderComplete
  intro r d evs s
  refine ⟨fun hrun sk htrng hsk => ?_, fun hrun w win da db c hlen hroom hweft hcompare => ?_, fun hrun hlen hany => ?_, fun hrun => ?_,
    fun n base c w win da db b' hasleep hfind hweft hcompare => ?_, fun hasleep hstarted henable hdue => ?_⟩
  · exact exec_desc hrun (f := doEvidence r d) (by rw [exec, execEvidence]) (by rw [doEvidence]) (startEvidence_ok rfl htrng hsk)
  · exact exec_desc hrun (f := doPlyCheck r d evs) (by rw [exec, execPlyCheck]) (by rw [doPlyCheck])
      (startPlyCheck_ok rfl hlen hroom hweft hcompare)
  · exact exec_desc hrun (f := doCheckEnd r d) (by rw [exec, execStandingCheckEnd]) (by rw [doCheckEnd, if_neg (by simp [hlen])])
      (startPlyCheck_end hlen hany)
  · exact exec_desc hrun (f := doTraceMark r d) (by rw [exec, execTraceMark]) (by rw [doTraceMark]) rfl
  · exact exec_settled (f := doCheckRepeat n.toNat base.toNat evs) (by rw [exec, execStandingCheckRepeat])
      (doCheckRepeat_due hasleep hfind hweft hcompare)
  · exact exec_settled (f := doCarderPass evs) (by rw [exec, execCarderPassStart]) (doCarderPass_due hasleep hstarted henable hdue)

end Sys2Proof.Machine
end

section
/-! The operator's telemetry, snapshots and the spool's images (R460 to R479). -/

namespace Sys2Proof.Machine

section
variable {p : Nat} {sess : BitVec 32} {msg : Bytes} {b : Block}

theorem doPolicySet_served (h : groupServed .operator 0x70 1 p sess msg 5 (decide (7 < leField msg 4 1)) b = true) :
    doPolicySet p sess msg b = groupStatus p 0x70 1 cOK (setTel (fun t => { t with policy := leField msg 4 1 }) b) := by
  rw [doPolicySet, groupOp_served (by omega) h]

theorem doCounterRead_served {off size : Nat} (hoff : leField msg 8 4 = off)
    (hsize : (if leField msg 4 1 = 0 then 4096 else if leField msg 4 1 = 1 then 16384 else 8192) = size)
    (h : groupServed .operator 0x70 2 p sess msg 12
      (decide (2 < leField msg 4 1) || !restZero msg 5 8 || off % 4096 != 0 || decide (size ≤ off)) b = true) :
    doCounterRead p sess msg b =
      groupAnswer p 0x70 2 cOK (zeroBytes 11 ++ sliceBytes (sectionOf (leField msg 4 1) b) off 4096) b := by
  rw [doCounterRead, hoff, hsize, groupOp_served (by omega) h]

theorem doMonitorSet_served (h : groupServed .operator 0x70 3 p sess msg 8 (decide (47 < leField msg 4 1)) b = true)
    (hfree : 4 ≤ leField msg 4 1) (hprobe : probeIndexOk (leField msg 5 1) (leField msg 6 2) b = true) :
    doMonitorSet p sess msg b = groupStatus p 0x70 3 cOK
      (putMonitor (leField msg 4 1) { probe := leField msg 5 1, index := leField msg 6 2 } b) := by
  rw [doMonitorSet, groupOp_served (by omega) h]
  exact if_neg (by simp [hprobe, Nat.not_lt.2 hfree])

theorem doMonitorRead_served
    (h : groupServed .operator 0x70 4 p sess msg 6 (decide (47 < leField msg 4 1) || decide (1 < leField msg 5 1)) b = true) :
    let m := getMonitor (leField msg 4 1) b
    let c := groupAnswer p 0x70 4 cOK (zeroBytes 11 ++ m.bytes) b
    doMonitorRead p sess msg b =
      if leField msg 5 1 = 0 then c else putMonitor (leField msg 4 1) { probe := m.probe, index := m.index } c := by
  rw [doMonitorRead]
  dsimp only
  rw [groupOp_served (by omega) h]

theorem doSpoolTrigger_served (h : groupServed .operator 0x70 5 p sess msg 4 false b = true) :
    doSpoolTrigger p sess msg b = groupStatus p 0x70 5 cOK (spoolTrigger 3 b) := by
  rw [doSpoolTrigger, groupOp_served (by omega) h]

end

section
variable {b : Block}

theorem doSnapshot_due (hasleep : asleep b = false) (hstarted : b.dst.started = true) (hdead : lcDead b = false)
    (hperiod : bitField b.regs.telSnap 11 0 ≠ 0) (hdue : b.tel.lastSnap + 1000 * bitField b.regs.telSnap 11 0 ≤ b.tick) :
    doSnapshot b = setTel (fun t => { t with lastSnap := b.tick })
      (hostWrite (bitField b.regs.telSnap 63 12 * 4096) ((healthSection b).take 8)
        (hostWrite (bitField b.regs.telSnap 63 12 * 4096 + 8) (snapshotRest b) b)) := by
  rw [doSnapshot]
  exact if_neg (by simp [hasleep, hstarted, hdead, hperiod, Nat.not_lt.2 hdue])

theorem doWindowClose_full {w : Window} (hwindow : b.tel.spool.window = some w) (hopen : w.closed = false)
    (hfull : w.size ≤ w.post.length ∨ (w.limit ≠ 0 ∧ w.since + w.limit ≤ b.tick)) : doWindowClose b = closeWindowNow b := by
  rw [doWindowClose, hwindow]
  dsimp only
  rw [if_neg (by simp [hopen])]
  exact if_pos (by simpa using hfull)

section
variable {w : Window} (hasleep : asleep b = false) (hstarted : b.dst.started = true) (hwindow : b.tel.spool.window = some w)
include hasleep hstarted hwindow

theorem doImageWrite_closed (hclosed : w.closed = true) (hdump : w.dump = false) : doImageWrite b = writeImage w b := by
  rw [doImageWrite, hwindow]
  exact if_neg (by simp [hasleep, hstarted, hclosed, hdump])

theorem doDumpWrite_dump (hdump : w.dump = true) (hstuck : windowStuck w b = false) :
    doDumpWrite b = setTel (fun t => { t with dumpSlots := [], dumpErase := none }) (writeImage w b) := by
  rw [doDumpWrite, hwindow]
  exact if_neg (by simp [hasleep, hstarted, hdump, hstuck])

end

theorem doDumpErase_due {t : Nat} (herase : b.tel.dumpErase = some t) (hdue : t ≤ b.tick) :
    doDumpErase b = setTel (fun t => { t with dumpSlots := [], dumpErase := none }) b := by
  rw [doDumpErase, herase]
  exact if_neg (Nat.not_lt.2 hdue)

end

/-- Settles O26: each command of telemetry where its condition holds. -/
theorem telemetryCommandsComplete : Obligations.TelemetryCommandsComplete := by
  unfold Obligations.TelemetryCommandsComplete
  intro path sess msg s p b i
  refine ⟨fun h => ?_, fun h => ?_, fun h hfree hprobe => ?_, fun h => ?_, fun h => ?_, fun hasleep hstarted hdead hperiod hdue => ?_,
    fun w hwindow hopen hfull => ?_, fun w hasleep hstarted hwindow hstuck => ⟨fun hclosed hdump => ?_, fun hdump => ?_⟩,
    fun t herase hdue => ?_⟩
  · exact exec_block (f := doPolicySet path.toNat sess msg) (by rw [exec, execPolicySet]) (doPolicySet_served h)
  · exact exec_block (f := doCounterRead path.toNat sess msg) (by rw [exec, execCounterRead]) (doCounterRead_served rfl rfl h)
  · exact exec_block (f := doMonitorSet path.toNat sess msg) (by rw [exec, execMonitorSet]) (doMonitorSet_served h hfree hprobe)
  · exact exec_block (f := doMonitorRead path.toNat sess msg) (by rw [exec, execMonitorRead]) (doMonitorRead_served h)
  · exact exec_block (f := doSpoolTrigger path.toNat sess msg) (by rw [exec, execSpoolTrigger]) (doSpoolTrigger_served h)
  · exact exec_block (f := doSnapshot) (by rw [exec, execSnapshot]) (doSnapshot_due hasleep hstarted hdead hperiod hdue)
  · exact exec_block (f := doWindowClose) (by rw [exec, execSpoolWindowClose]) (doWindowClose_full hwindow hopen hfull)
  · exact exec_block (f := doImageWrite) (by rw [exec, execSpoolImageWrite]) (doImageWrite_closed hasleep hstarted hwindow hclosed hdump)
  · exact exec_block (f := doDumpWrite) (by rw [exec, execHangDumpWrite]) (doDumpWrite_dump hasleep hstarted hwindow hdump hstuck)
  · exact exec_block (f := doDumpErase) (by rw [exec, execDumpSlotErase]) (doDumpErase_due herase hdue)

end Sys2Proof.Machine
end

section
/-! Tenant provisioning and the evidence services (R291 to R295, R340 to R344). -/

namespace Sys2Proof.Machine

theorem evSkein_modSpdm (n p : Nat) (sess : BitVec 32) (f : SpdmSess → SpdmSess) (b : Block) : evSkein n (modSpdm p sess f b) = evSkein n b := by
  rfl

section
variable {p n : Nat} {sess : BitVec 32} {msg : Bytes} {b : Block} {sk : Skein}

/-- The exchange is answered and the pending TPK kept where both public keys check; otherwise the answer is INVALID. -/
theorem doPqStart_served (hn : leField msg 4 2 = n)
    (h : groupServed .host 0x10 1 p sess msg 1721 (decide (1024 ≤ n) || decide (2 ≤ leField msg 6 1) || leField msg 7 1 != 0 ||
      (!(leField msg 6 1 == 1) && (sliceBytes msg 1673 48).any (· != 0))) b = true)
    (hbusy : controlBusy n b = false) (htrng : trngStopped b = false) (hsk : tpkSkein n b = some sk) (hauth : pqAuth sk msg = true) :
    let e := pqExchange p n sess msg (leField msg 6 1 == 1) b
    doPqStart p sess msg b =
      if Config.kemKeyOk (sliceBytes msg 105 1568) && Config.ecPoint (sliceBytes msg 8 97) then groupAnswer p 0x10 1 cOK e.1 e.2
      else groupStatus p 0x10 1 cInvalid b := by
  rw [doPqStart, hn, groupOp_served (by omega) h, if_neg (by simp [hbusy, htrng])]
  cases hkeys : Config.kemKeyOk (sliceBytes msg 105 1568) && Config.ecPoint (sliceBytes msg 8 97) with
  | false => exact if_pos (by simpa [← Bool.not_and] using hkeys)
  | true =>
    rw [if_neg (by simpa [← Bool.not_and] using hkeys), hsk]
    exact if_neg (by simp [hauth])

theorem doPqFinish_right {t : PendTpk} (hn : leField msg 4 2 = n)
    (h : groupServed .host 0x10 2 p sess msg 56 (decide (1024 ≤ n) || leField msg 6 2 != 0) b = true) (hbusy : controlBusy n b = false)
    (hsk : tpkSkein n b = some sk) (hpending : amGet n b.srv.tpks = some t) (hsession : t.session = requester p sess)
    (hrekey : sk.tpk.isSome = t.rekey)
    (hconfirm : hmac384 (keyBytes t.tpk) (ascii "frexis confirm" ++ toBytes 48 t.th) = sliceBytes msg 8 48) :
    doPqFinish p sess msg b = groupStatus p 0x10 2 cOK (confirmTpk n t b) := by
  rw [doPqFinish, hn, groupOp_served (by omega) h, if_neg (by simp [hbusy]), hsk, hpending]
  dsimp only
  rw [if_neg (by simp [hsession, hrekey]), if_neg (by simp [hconfirm])]

theorem doPqSign_session {x : SpdmSess} {th : BitVec 384} (h : groupServed .either 0x20 1 p sess msg 4 false b = true)
    (hfind : findSpdm p sess b = some x) (hsigned : x.signed = some th) :
    doPqSign p sess msg b = groupAnswer p 0x20 1 cOK (zeroBytes 3 ++ signPq (aliasSeed b) (ascii "frexis spdm" ++ toBytes 48 th)) b := by
  rw [doPqSign, groupOp_served (by omega) h, hfind]
  dsimp only
  rw [hsigned]

theorem doPqChain_served (h : groupServed .either 0x20 2 p sess msg 5 (decide (1 < leField msg 4 1)) b = true) :
    doPqChain p sess msg b = groupAnswer p 0x20 2 cOK (zeroBytes 3 ++ (if leField msg 4 1 = 0 then pqPublic (devSeed b)
      else pqPublic (aliasSeed b) ++ toBytes 48 (hFw b) ++ endorse b)) b := by
  rw [doPqChain, groupOp_served (by omega) h]

/-- A record is made, held for its session, and its first part answered. -/
theorem doSkeinEvidence_ok (hn : leField msg 4 2 = n)
    (h : groupServed .either 0x20 3 p sess msg 40 (decide (1024 ≤ n) || leField msg 6 2 != 0) b = true) (hsess : sess ≠ 0)
    (htrng : trngStopped b = false) (hsk : evSkein n b = some sk) :
    let e := evRecord n sk (sliceBytes msg 8 32) (modSpdm p sess (fun s => { s with record := none }) b)
    doSkeinEvidence p sess msg b = groupAnswer p 0x20 3 (if sk.st = .resetting then cResetting else cOK)
      (zeroBytes 3 ++ leBytes 4 e.1.length ++ zeroBytes 4 ++ evPart e.1 0) (modSpdm p sess (fun s => { s with record := some e.1 }) e.2) := by
  rw [doSkeinEvidence, hn, groupOp_served (by omega) h, if_neg hsess, if_neg (by simp [htrng])]
  dsimp only
  rw [evSkein_modSpdm, hsk]

theorem doSkeinEvidencePart_ok {rec : Bytes} {off : Nat} (hoff : leField msg 4 4 = off)
    (h : groupServed .either 0x20 4 p sess msg 8 false b = true) (hsess : sess ≠ 0)
    (hrec : (findSpdm p sess b).bind (·.record) = some rec) (hpage : off % 4096 = 0) (hlt : off < rec.length) :
    doSkeinEvidencePart p sess msg b = groupAnswer p 0x20 4 cOK (zeroBytes 11 ++ evPart rec off) b := by
  rw [doSkeinEvidencePart, hoff, groupOp_served (by omega) h, if_neg hsess, hrec]
  exact if_neg (by simp [hpage, Nat.not_le.2 hlt])

theorem doTpkExpiry_due {t : PendTpk} (hpending : amGet n b.srv.tpks = some t) (hdue : t.since + 1000000 ≤ b.tick) :
    doTpkExpiry n b = dropTpk n b := by
  rw [doTpkExpiry, hpending]
  exact if_neg (Nat.not_lt.2 hdue)

end

/-- Settles O27: each request of the tenant's groups where its condition holds. -/
theorem tenantGroupsComplete : Obligations.TenantGroupsComplete := by
  unfold Obligations.TenantGroupsComplete
  intro path sess msg s p b n
  refine ⟨fun sk h hbusy htrng hsk hauth => ?_, fun sk t h hbusy hsk hpending hsession hrekey hconfirm => ?_, fun x th h hfind hsigned => ?_,
    fun h => ?_, fun sk h hsess htrng hsk => ?_, fun rec h hsess hrec hpage hlt => ?_, fun k t hpending hdue => ?_⟩
  · exact exec_block (f := doPqStart path.toNat sess msg) (by rw [exec, execPqStart]) (doPqStart_served rfl h hbusy htrng hsk hauth)
  · exact exec_block (f := doPqFinish path.toNat sess msg) (by rw [exec, execPqFinish])
      (doPqFinish_right rfl h hbusy hsk hpending hsession hrekey hconfirm)
  · exact exec_block (f := doPqSign path.toNat sess msg) (by rw [exec, execPqSign]) (doPqSign_session h hfind hsigned)
  · exact exec_block (f := doPqChain path.toNat sess msg) (by rw [exec, execPqChain]) (doPqChain_served h)
  · exact exec_block (f := doSkeinEvidence path.toNat sess msg) (by rw [exec, execSkeinEvidence]) (doSkeinEvidence_ok rfl h hsess htrng hsk)
  · exact exec_block (f := doSkeinEvidencePart path.toNat sess msg) (by rw [exec, execSkeinEvidencePart])
      (doSkeinEvidencePart_ok rfl h hsess hrec hpage hlt)
  · exact exec_block (f := doTpkExpiry k.toNat) (by rw [exec, execTpkPendingExpiry]) (doTpkExpiry_due hpending hdue)

end Sys2Proof.Machine
end

section
/-! The operator's key messages to the slot-class skein (R328 to R333). -/

namespace Sys2Proof.Machine

theorem groupServed_not_bad {use : GroupUse} {g op p size : Nat} {sess : BitVec 32} {msg : Bytes} {bad : Bool} {b : Block}
    (h : groupServed use g op p sess msg size bad b = true) : bad = false := by
  simp only [groupServed, Bool.and_eq_true, Bool.not_eq_true'] at h
  exact h.2

section
variable {op p size n : Nat} {sess : BitVec 32} {msg : Bytes} {bad : Bool} {b : Block}

theorem slotServed_iff : slotServed op p sess msg size bad n b = true ↔ groupServed .operator 0x40 op p sess msg size bad b = true ∧
    slotService b = true ∧ controlBusy n b = false ∧ ∃ sk, slotClassSkein b = some (n, sk) ∧ sk.st ≠ .destroying := by
  cases hsk : slotClassSkein b with
  | none => simp [slotServed, hsk]
  | some e => obtain ⟨m, sk⟩ := e; simp [slotServed, hsk]; grind

/-- A message that is served on the slot-class skein runs its operation on it. -/
theorem slotOp_served {cmd : Instr} {k : Nat → Block → Block} (hsize : size ≤ 8256) (h : slotServed op p sess msg size bad n b = true) :
    slotOp op p sess msg size bad cmd k b = k n b := by
  obtain ⟨hgroup, hservice, hbusy, sk, hsk, hst⟩ := slotServed_iff.1 h
  rw [slotOp, groupOp_served hsize hgroup, hsk]
  dsimp only
  rw [if_neg (by simp [hst, hservice]), if_neg (by simp [hbusy])]

theorem slotKeyInstall_ok {k : Nat} {c : Block}
    (h : installKey n .E (leField msg 4 1) (leField msg 5 1) (leField msg 6 1 == 1) (ofBytes 256 (sliceBytes msg 16 32)) b = (.ok k, c)) :
    slotKeyInstall p msg n b = groupAnswer p 0x40 1 cOK ([0] ++ leBytes 2 k) c := by
  unfold slotKeyInstall
  split
  case h_1 h' =>
    cases h.symm.trans h'
    rfl
  case h_2 h' => cases h.symm.trans h'

theorem slotKeyRotate_epoch {k : Nat} (hk : leField msg 4 2 = k) (hkey : checkKey n k b = none)
    (hepoch : (leField msg 6 1).testBit 0 = true) :
    let a := slotAdvance (((getKey k b).map (·.region)).getD 0) b
    slotKeyRotate p msg n b = groupStatus p 0x40 2 a.1 a.2 := by
  rw [slotKeyRotate, hk]
  dsimp only
  rw [hkey]
  exact if_pos hepoch

theorem slotKeyRotate_key {k : Nat} (hk : leField msg 4 2 = k) (hkey : checkKey n k b = none)
    (hepoch : (leField msg 6 1).testBit 0 = false) :
    slotKeyRotate p msg n b = groupStatus p 0x40 2 cOK
      (rotateKey none k (if (leField msg 6 1).testBit 1 then none else some (ofBytes 256 (sliceBytes msg 16 32))) b) := by
  rw [slotKeyRotate, hk]
  dsimp only
  rw [hkey]
  exact if_neg (by simp [hepoch])

theorem slotKeyRetire_ok (hkey : checkKey n (leField msg 4 2) b = none) :
    slotKeyRetire p msg n b = groupStatus p 0x40 3 cOK (retireKey none (leField msg 4 2) b) := by rw [slotKeyRetire, hkey]

/-! A part of a member list. The installation is held behind a variable, so that no check of a reduction evaluates it. -/

section
variable (hfirst : leField msg 4 2 = 0)
include hfirst

theorem slotMembers_part (hlt : leField msg 6 2 < leField msg 8 2) :
    slotMembers p msg n b = groupStatus p 0x40 5 cOK
      (setSrv (fun v => { v with slotList := some (msg.drop 16, leField msg 8 2) }) b) := by
  unfold slotMembers
  obtain ⟨install, hinstall⟩ := exists_eq (a' := installMembers)
  rw [← hinstall, hfirst]
  dsimp only
  rw [if_pos rfl]
  dsimp only
  rw [if_neg (by omega), if_pos (by omega), List.nil_append]

theorem slotMembers_last {ms : List (Nat × Member)} (heq : leField msg 6 2 = leField msg 8 2)
    (hlist : memberList (msg.drop 16) (leField msg 8 2) = some ms) :
    let a := installMembers n ms (setSrv (fun v => { v with slotList := none }) b)
    slotMembers p msg n b = groupStatus p 0x40 5 a.1 a.2 := by
  unfold slotMembers
  obtain ⟨install, hinstall⟩ := exists_eq (a' := installMembers)
  rw [← hinstall, hfirst]
  dsimp only
  rw [if_pos rfl]
  dsimp only
  rw [if_neg (by omega), if_neg (by omega), List.nil_append, hlist]

end

end

/-- Settles O28: each key message on the slot-class skein that is served. -/
theorem slotKeyMessagesComplete : Obligations.SlotKeyMessagesComplete := by
  unfold Obligations.SlotKeyMessagesComplete
  intro path sess msg n s
  refine ⟨fun k c h hinstall => ?_, fun h hkey => ⟨fun hepoch => ?_, fun hepoch => ?_⟩, fun h hkey => ?_, fun h => ?_,
    fun h hfirst => ⟨fun hlt => ?_, fun ms heq hlist => ?_⟩⟩
  · refine exec_settled (f := doSlotKeyInstall path.toNat sess msg) (by rw [exec, execSlotKeyInstall]) ?_
    rw [doSlotKeyInstall, slotOp_served (by omega) h, slotKeyInstall_ok hinstall]
  · refine exec_settled (f := doSlotKeyRotate path.toNat sess msg) (by rw [exec, execSlotKeyRotate]) ?_
    rw [doSlotKeyRotate, slotOp_served (by omega) h, slotKeyRotate_epoch rfl hkey hepoch]
  · refine exec_settled (f := doSlotKeyRotate path.toNat sess msg) (by rw [exec, execSlotKeyRotate]) ?_
    rw [doSlotKeyRotate, slotOp_served (by omega) h, slotKeyRotate_key rfl hkey hepoch]
  · refine exec_settled (f := doSlotKeyRetire path.toNat sess msg) (by rw [exec, execSlotKeyRetire]) ?_
    rw [doSlotKeyRetire, slotOp_served (by omega) h, slotKeyRetire_ok hkey]
  · refine exec_settled (f := doSlotSecretSet path.toNat sess msg) (by rw [exec, execSlotSecretSet]) ?_
    rw [doSlotSecretSet, slotOp_served (by omega) h]
  all_goals
    have hbad := groupServed_not_bad (slotServed_iff.1 h).1
    simp only [Bool.or_eq_false_iff, decide_eq_false_iff_not] at hbad
    obtain ⟨⟨⟨⟨-, -⟩, hcount⟩, -⟩, -⟩ := hbad
    refine exec_settled (f := doSlotMembers path.toNat sess msg) (by rw [exec, execSlotMembers]) ?_
  · rw [doSlotMembers, slotOp_served (by omega) h, slotMembers_part hfirst hlt]
  · rw [doSlotMembers, slotOp_served (by omega) h, slotMembers_last hfirst heq hlist]

end Sys2Proof.Machine
end

section
/-! Firmware operations, life-cycle transitions and the operator's binding (R348 to R365). -/

namespace Sys2Proof.Machine

section
variable {op p size : Nat} {sess : BitVec 32} {msg : Bytes} {bad status free : Bool} {b : Block}

theorem group30Served_not_bad (h : group30Served op p sess msg size bad status free b = true) : bad = false := by
  simp only [group30Served, Bool.and_eq_true, Bool.not_eq_true'] at h
  obtain ⟨⟨⟨⟨-, hbad⟩, -⟩, -⟩, -⟩ := h
  exact hbad

/-- A message of group 0x30 that is served runs its operation, on whichever path it came. -/
theorem group30_served {k : Block → Block} (hsize : size ≤ 8256) (h : group30Served op p sess msg size bad status free b = true) :
    group30 op p sess msg size bad status free k b = k b := by
  simp only [group30Served, Bool.and_eq_true, beq_iff_eq, Bool.not_eq_true'] at h
  obtain ⟨⟨⟨⟨⟨⟨⟨hgroup, hop⟩, hlen⟩, hzero⟩, hbad⟩, hasleep⟩, hstarted⟩, hpath⟩ := h
  have hrun : (if msg.length != size || leField msg 2 2 != 0 || bad then spdmError p eInvalidRequest b else k b) = k b :=
    if_neg (by simp [hlen, hzero, hbad])
  rw [group30]
  dsimp only
  rw [if_neg (by simp [hgroup, hop, hlen, Nat.not_lt.2 hsize]), if_neg (by simp [hasleep, hstarted]), hrun]
  by_cases hmailbox : p = 3
  · rw [if_pos hmailbox] at hpath ⊢
    cases status with
    | true => rfl
    | false =>
      simp only [Bool.false_or, Bool.and_eq_true, Bool.not_eq_true'] at hpath
      obtain ⟨hopen, hfree⟩ := hpath
      rw [if_neg (by simp), if_neg (by simp [hopen]), if_neg (by simp [hfree])]
  · rw [if_neg hmailbox] at hpath ⊢
    simp only [Bool.and_eq_true] at hpath
    obtain ⟨hexists, hpath⟩ := hpath
    rw [if_neg (by simp [hexists])]
    split at hpath
    case isTrue hopen =>
      rw [if_pos (by simpa using hopen)]
      exact if_neg (by simpa using hpath)
    case isFalse hopen =>
      simp only [Bool.and_eq_true, Bool.or_eq_true, beq_iff_eq, Option.isNone_iff_eq_none] at hpath
      obtain ⟨hserved, hbar⟩ := hpath
      rw [if_neg (by simpa using hopen), spdmGate_served hserved, hrun]
      split
      · rfl
      · obtain ⟨⟨hfree, hzero⟩, hsess⟩ | hbar := hbar
        · simp_all
        · rw [hbar]

/-! ### Firmware -/

theorem doFwBegin_served (h : group30Served 1 p sess msg 4 false false false b = true) (hrunning : (running b).st ≠ 3)
    (hruns : lcRuns b = false) : doFwBegin p sess msg b = fwAnswer p 1 0 (setOther { st := 1, img := [] } b) := by
  rw [doFwBegin, group30_served (by omega) h]
  exact if_neg (by simp [hrunning, hruns])

theorem doFwWrite_served {off len : Nat} (hoff : leField msg 4 4 = off) (hlen : leField msg 8 2 = len)
    (h : group30Served 2 p sess msg (16 + len) (len = 0 || decide (4096 < len) || !restZero msg 10 16) false false b = true)
    (hloading : (otherBank b).st = 1) (hfits : off + len ≤ 1048576) :
    doFwWrite p sess msg b =
      fwAnswer p 2 0 (setOther { otherBank b with img := patchBytes (otherBank b).img off (msg.drop 16) } b) := by
  have hbad := group30Served_not_bad h
  simp only [Bool.or_eq_false_iff, decide_eq_false_iff_not] at hbad
  obtain ⟨⟨-, hmost⟩, -⟩ := hbad
  rw [doFwWrite, hoff, hlen, group30_served (by omega) h]
  exact if_neg (by simp [hloading, Nat.not_lt.2 hfits])

theorem doFwStage_served (h : group30Served 3 p sess msg 4 false false false b = true) (hloading : (otherBank b).st = 1) :
    let r := imageReason (otherBank b).img b
    doFwStage p sess msg b = fwAnswer p 3 r (setOther (if r = 0 then { otherBank b with st := 2 } else {}) b) := by
  rw [doFwStage, group30_served (by omega) h]
  exact if_neg (by simp [hloading])

theorem doFwActivate_served (h : group30Served 4 p sess msg 4 false false false b = true) (hstaged : (otherBank b).st = 2)
    (hwraps : oldWraps b = false) :
    doFwActivate p sess msg b = raiseViews { cls := 5 } (setDst 11 true (endSessions none (fwAnswer p 4 0 b))) := by
  rw [doFwActivate, group30_served (by omega) h, if_neg (by simp [hstaged])]
  exact if_neg (by simp [hwraps])

theorem doFwConfirm_served {fail : Option (BitVec 9)} (h : group30Served 5 p sess msg 4 false false false b = true)
    (htrial : (running b).st = 3) (hsupply : bankSvn (running b) ≤ arbCounter b ∨ b.pwr.backupGood = true) :
    let r := burnSteps (arbCounter b) (bankSvn (running b)) (fail.map (·.toNat)) b
    let c := lcsRefresh (lcsNext r.2) r.2
    doFwConfirm p sess msg fail b =
      if r.1 then fwAnswer p 5 0 (setRunning { running b with st := 4 } c) else fwAnswer p 5 10 c := by
  obtain ⟨burn, hburn⟩ := exists_eq (a' := burnSteps)
  rw [doFwConfirm, ← hburn, group30_served (by omega) h]
  dsimp only
  have hburns : ¬ (decide (arbCounter b < bankSvn (running b)) && !b.pwr.backupGood) = true := by
    obtain h | h := hsupply
    · simp [Nat.not_lt.mpr h]
    · simp [h]
  rw [if_neg (by simp [htrial]), if_neg hburns]
  by_cases hok : (burn (arbCounter b) (bankSvn (running b)) (fail.map (·.toNat)) b).1 = true
  · rw [if_neg (by simp [hok]), if_pos hok]
  · rw [if_pos (by simpa using hok), if_neg hok]

theorem doFwStatus_served (h : group30Served 6 p sess msg 4 false false false b = true) :
    doFwStatus p sess msg b = groupAnswer p 0x30 6 cOK ([0, 0, 0] ++ measValue 4 b ++ measValue 7 b) b := by
  rw [doFwStatus, group30_served (by omega) h]

/-- The staged bank runs as TRIAL where it passes, and the bank that ran goes on otherwise. -/
theorem doActivationRun_ok {selfTest : Bool} (hdue : b.regs.dstStatus.getLsbD 11 = true) (hresetting : ∀ e ∈ b.skeins, e.2.st ≠ .resetting)
    (hladder : b.ladder.owner ≠ 1) :
    let c := setDst 11 false b
    doActivationRun selfTest b = raiseViews { cls := 5 }
      (if imageReason (otherBank c).img c = 0 ∧ selfTest = true then runStaged c else setRunning { running c with st := 4 } (setOther {} c)) := by
  have hnone : (b.skeins.any fun e => e.2.st == .resetting) = false := by simpa using hresetting
  intro c
  rw [doActivationRun, hnone]
  refine (if_neg (by simp only [hdue, hladder]; decide)).trans (congrArg (raiseViews _) ?_)
  by_cases hok : imageReason (otherBank c).img c = 0 ∧ selfTest = true
  · rw [if_pos hok]
    exact if_neg (by simp [c] at hok ⊢; exact hok)
  · rw [if_neg hok]
    exact if_pos (by simp [c] at hok ⊢; grind)

/-! ### The life cycle -/

theorem doLcStatus_served (h : group30Served 0x11 p sess msg 4 false true false b = true) :
    doLcStatus p sess msg b = groupAnswer p 0x30 0x11 cOK ([0, 0, 0] ++ toBytes 4 b.regs.lockState ++ toBytes 16 b.regs.deviceId ++
      toBytes 16 b.regs.serial ++ otpBytes lcBase 288 b) b := by
  rw [doLcStatus, group30_served (by omega) h]

/-- A transition is accepted where there is no reason against it, and answers the reason otherwise. -/
theorem doLcTransition_served {took : BitVec 64} {evs : MemEvs} {from' : LcPath}
    (hfrom : (if p = 3 then .mailbox else if sess = 0 then .outside else .session) = from')
    (h : group30Served 0x10 p sess msg 7460 (!restZero msg 40 48 || decide (1 < leField msg 6 1)) false false b = true) :
    doLcTransition p sess msg took evs b =
      if lcReason from' msg b = 0 then lcAccept p sess from' msg took evs b else fwAnswer p 0x10 (lcReason from' msg b) b := by
  rw [doLcTransition, hfrom, group30_served (by omega) h]
  cases lcReason from' msg b <;> rfl

/-- An operator's record is burnt where there is no reason against it. -/
theorem doOperatorBind_served {took : BitVec 768} {i : Nat} {burnt : Bytes} {c : Block} (hi : leField msg 4 1 = i)
    (hburnt : ((List.range 96).map fun j => (sliceBytes msg 40 96).getD j 0 &&& byteAt took j) = burnt)
    (hc : otpBurnBytes (lcBase + 288 + 96 * i) burnt b = c)
    (h : group30Served 0x12 p sess msg 7548 (leField msg 7 1 != 0) false (opCurrent b).isNone b = true) :
    doOperatorBind p sess msg took b = if bindReason msg b ≠ 0 then fwAnswer p 0x12 (bindReason msg b) b
      else if burnt ≠ sliceBytes msg 40 96 then fwAnswer p 0x12 10 c else fwAnswer p 0x12 0 (if i = 1 then otpBurn 94 1 c else c) := by
  rw [doOperatorBind, group30_served (by omega) h]
  cases bindReason msg b with
  | zero =>
    dsimp only
    rw [hi, hburnt, hc]
    refine Eq.trans ?_ (if_neg (fun h => h rfl)).symm
    by_cases hall : burnt = sliceBytes msg 40 96
    · exact (if_neg (by simp [hall])).trans (if_neg (fun h => h hall)).symm
    · exact (if_pos (by simp [hall])).trans (if_pos hall).symm
  | succ r => rfl

theorem doLcStateBurn_ok {took : BitVec 64} {x : LcPend} (hlc : b.dst.lc = some x) (hgone : x.reply.isSome = true → b.skeins = [])
    (hsupply : (lcErased x b).pwr.backupGood = true)
    (htook : lcWord (x.target + 256 * x.slot) &&& took = lcWord (x.target + 256 * x.slot)) :
    doLcStateBurn true took b =
      lcBurnt x (otpBurn (lcSlotWord x.slot + 1) (lcWord (x.target + 256 * x.slot) &&& took) (lcErased x b)) := by
  have hready : ¬(x.reply.isSome && !b.skeins.isEmpty) = true := by
    cases hr : x.reply.isSome with
    | false => simp
    | true => simp [hgone hr]
  rw [doLcStateBurn, hlc]
  dsimp only
  rw [if_neg hready, if_neg (by simp), if_neg (by simp [hsupply])]
  exact if_neg (by simp [htook])

section
variable {took : BitVec 768} {fail : Option (BitVec 9)} {evs : MemEvs} (hgroup : leField msg 0 1 = 0x30)
include hgroup

theorem doLcMailbox_begin (hop : leField msg 1 1 = 1) : doLcMailbox msg took fail evs b = effect (.fwBegin 3 0 msg) b := by
  unfold doLcMailbox
  rw [if_neg (by simp [hgroup]), hop]
  rfl

theorem doLcMailbox_status (hop : leField msg 1 1 = 0x11) : doLcMailbox msg took fail evs b = effect (.lcStatus 3 0 msg) b := by
  unfold doLcMailbox
  rw [if_neg (by simp [hgroup]), hop]
  rfl

end

end

/-- Settles O29: each operation of group 0x30 and each step of the life cycle where its condition holds. -/
theorem firmwareAndLifeCycleComplete : Obligations.FirmwareAndLifeCycleComplete := by
  unfold Obligations.FirmwareAndLifeCycleComplete
  intro path sess msg s p b
  refine ⟨fun h hrunning hruns => ?_, fun h hloading hfits => ?_, fun h hloading => ?_, fun h hstaged hwraps => ?_,
    fun fail h htrial hsupply => ?_, fun h => ?_, fun h => ?_, fun took evs h => ?_, fun took h => ?_,
    fun selfTest hdue hresetting hladder => ?_, fun took x hlc hgone hsupply htook => ?_, fun took fail evs hgroup hop => ?_,
    fun took fail evs hgroup hop => ?_⟩
  · exact exec_block (f := doFwBegin path.toNat sess msg) (by rw [exec, execFwBegin]) (doFwBegin_served h hrunning hruns)
  · exact exec_block (f := doFwWrite path.toNat sess msg) (by rw [exec, execFwWrite]) (doFwWrite_served rfl rfl h hloading hfits)
  · exact exec_block (f := doFwStage path.toNat sess msg) (by rw [exec, execFwStage]) (doFwStage_served h hloading)
  · exact exec_settled (f := doFwActivate path.toNat sess msg) (by rw [exec, execFwActivate]) (doFwActivate_served h hstaged hwraps)
  · exact exec_block (f := doFwConfirm path.toNat sess msg fail) (by rw [exec, execFwConfirm]) (doFwConfirm_served h htrial hsupply)
  · exact exec_block (f := doFwStatus path.toNat sess msg) (by rw [exec, execFwStatus]) (doFwStatus_served h)
  · exact exec_block (f := doLcStatus path.toNat sess msg) (by rw [exec, execLcStatus]) (doLcStatus_served h)
  · exact exec_settled (f := doLcTransition path.toNat sess msg took evs) (by rw [exec, execLcTransition]) (doLcTransition_served rfl h)
  · exact exec_block (f := doOperatorBind path.toNat sess msg took) (by rw [exec, execOperatorBind]) (doOperatorBind_served rfl rfl rfl h)
  · exact exec_settled (f := doActivationRun selfTest) (by rw [exec, execFwActivationRun]) (doActivationRun_ok hdue hresetting hladder)
  · exact exec_settled (f := doLcStateBurn true took) (by rw [exec, execLcStateBurn]) (doLcStateBurn_ok hlc hgone hsupply htook)
  · exact exec_settled (f := doLcMailbox msg took fail evs) (by rw [exec, execLcMailbox]) (doLcMailbox_begin hgroup hop)
  · exact exec_settled (f := doLcMailbox msg took fail evs) (by rw [exec, execLcMailbox]) (doLcMailbox_status hgroup hop)

end Sys2Proof.Machine
end

section
/-! The fronthaul ports: streams, transmit and receive (R215 to R228). -/

namespace Sys2Proof.Machine

section
variable {p : Nat} {sess : BitVec 32} {msg : Bytes} {b : Block}

theorem doStreamSet_served (h : groupServed .operator 0x50 1 p sess msg 24 (fthSetBad msg b) b = true) :
    doStreamSet p sess msg b = groupStatus p 0x50 1 cOK (modFth (leField msg 4 1) (fthSet msg) b) := by
  rw [doStreamSet, groupOp_served (by omega) h]

theorem doSaInstall_served (h : groupServed .operator 0x50 2 p sess msg 96 (saBad msg b) b = true) :
    doSaInstall p sess msg b = groupStatus p 0x50 2 cOK (modFth (leField msg 4 1) (saPut msg) b) := by
  rw [doSaInstall, groupOp_served (by omega) h]

theorem doSaRetire_served (h : groupServed .operator 0x50 3 p sess msg 8 (retireBad msg b) b = true) :
    doSaRetire p sess msg b = groupStatus p 0x50 3 cOK (modFth (leField msg 4 1) (saDrop msg) b) := by
  rw [doSaRetire, groupOp_served (by omega) h]

theorem doStreamStatus_served {f : Nat} (hf : leField msg 4 1 = f)
    (h : groupServed .operator 0x50 4 p sess msg 8 (decide (b.row.fthStreams ≤ f) || !restZero msg 5 8) b = true) :
    doStreamStatus p sess msg b = groupAnswer p 0x50 4 cOK ([0, 0, 0] ++ leBytes 1 ((getFth f b).cur.getD 255) ++
      leBytes 1 (b2n (getFth f b).next.isSome) ++ zeroBytes 6 ++ leBytes 8 (getFth f b).lastPn ++
      (List.range 8).flatMap fun i => leBytes 8 (amGetD 0 i (getFth f b).drops)) b := by
  rw [doStreamStatus, hf, groupOp_served (by omega) h]

end

section
variable {f : Nat} {fr : Bytes} {b : Block} (hf : f < b.row.fthStreams) (hopen : fthClosed b = false)
  (henable : (getFth f b).enable = true)
include hf hopen henable

/-- A frame of a clear EtherType passes as it is. -/
theorem doFthTransmit_clear (hlen : frameLenBad fr.length = false) (hclear : (getFth f b).clear.contains (etherAt fr 12) = true) :
    doFthTransmit f fr true false b = bumpGlob (720 + 8 * f) fr.length (emit (.eth f true fr) b) := by
  rw [doFthTransmit, if_neg (Nat.not_le.2 hf), if_neg (by simp [hopen])]
  dsimp only
  rw [if_neg (by simp [henable]), if_pos hclear, if_neg (by simp), if_neg (by simp [hlen])]

/-- Any other frame leaves protected under the current SA, whose PN is used up. -/
theorem doFthTransmit_protected {an : Nat} {x : MacSa} {st : FthStream} {c : Block} (hlen : frameLenBad fr.length = false)
    (hclear : (getFth f b).clear.contains (etherAt fr 12) = false) (hst : macSwitch b.tim.t (getFth f b) = st) (hcur : st.cur = some an)
    (hsa : st.sa 0 an = some x) (hspent : x.spent = false) (hc : takePn f st an x (modFth f (fun _ => st) b) = c) :
    doFthTransmit f fr true false b = bumpGlob (720 + 8 * f) fr.length
      (emit (.eth f true (macProtect x st.sci an x.pn fr)) (sampleTime 3 f (submitFth f an x.pn fr.length c))) := by
  have hfound : (st.cur.bind fun an => (st.sa 0 an).map fun x => (an, x)) = some (an, x) := by simp [hcur, hsa]
  rw [doFthTransmit, if_neg (Nat.not_le.2 hf), if_neg (by simp [hopen])]
  dsimp only
  rw [if_neg (by simp [henable]), if_neg (by rw [hclear]; exact Bool.false_ne_true), hst, hfound]
  dsimp only
  rw [if_neg (by simp [hspent]), hc, if_neg (by simp), if_neg (by simp [hlen])]

/-- A protected frame with the right ICV and a PN inside the window is delivered in plain. -/
theorem doFthReceive_ok {t : SecTag} {sc n pn : Nat} {sci : Bytes} {x : MacSa} {ct : Bytes} (htype : etherAt fr 12 = macsecType)
    (htag : parseSecTag fr = some t) (hn : fr.length - t.len - 16 = n) (hpn : fullPn x t.pn = pn)
    (hct : sliceBytes fr (12 + t.len) (n - 12) = ct) (hlen : frameLenBad n = false)
    (hsc : findSc (getFth f b) t = some (sc, sci)) (hsa : (getFth f b).sa sc t.an = some x)
    (hicv : gcmTag x.key (macIv x sci pn) (fr.take (12 + t.len)) ct = sliceBytes fr (12 + t.len + (n - 12)) 16)
    (hwindow : max x.low (x.pn - (getFth f b).window) ≤ pn) :
    doFthReceive f fr true false b = bumpGlob (784 + 8 * f) n
      (emit (.eth f false (fr.take 12 ++ gcmCrypt x.key (macIv x sci pn) ct))
        (modFth f (fun s => s.putSa sc t.an { x with pn := max x.pn (pn + 1) }) (submitFth f (4 * sc + t.an) pn n b))) := by
  have hfound : ((findSc (getFth f b) t).bind fun e => ((getFth f b).sa e.1 t.an).map fun x => (e, x)) = some ((sc, sci), x) := by
    simp [hsc, hsa]
  rw [doFthReceive, if_neg (Nat.not_le.2 hf), if_neg (by simp [hopen]), if_neg (by simp)]
  dsimp only
  rw [if_neg (by simp [henable]), if_neg (by simp [htype]), htag]
  dsimp only
  rw [hn, if_neg (by simp [hlen]), hfound]
  dsimp only
  rw [hpn, hct, if_neg (by simp [hicv]), if_neg (Nat.not_lt.2 hwindow)]

end

/-- Settles O30: each request of group 0x50 that is served, and the frames that pass. -/
theorem fronthaulComplete : Obligations.FronthaulComplete := by
  unfold Obligations.FronthaulComplete
  intro path sess msg s p b f
  refine ⟨fun h => ?_, fun h => ?_, fun h => ?_, fun h => ?_,
    fun k fr hf hopen henable hlen => ⟨fun hclear => ?_, fun an x hclear hcur hsa hspent => ?_⟩,
    fun k fr t sc sci x hf hopen henable htype htag hlen hsc hsa hicv hwindow => ?_⟩
  · exact exec_settled (f := doStreamSet path.toNat sess msg) (by rw [exec, execStreamSet]) (doStreamSet_served h)
  · exact exec_settled (f := doSaInstall path.toNat sess msg) (by rw [exec, execSaInstall]) (doSaInstall_served h)
  · exact exec_settled (f := doSaRetire path.toNat sess msg) (by rw [exec, execSaRetire]) (doSaRetire_served h)
  · exact exec_settled (f := doStreamStatus path.toNat sess msg) (by rw [exec, execStreamStatus]) (doStreamStatus_served rfl h)
  · exact exec_settled (f := doFthTransmit k.toNat fr true false) (by rw [exec, execFronthaulTransmit])
      (doFthTransmit_clear hf hopen henable hlen hclear)
  · exact exec_settled (f := doFthTransmit k.toNat fr true false) (by rw [exec, execFronthaulTransmit])
      (doFthTransmit_protected hf hopen henable hlen hclear rfl hcur hsa hspent rfl)
  · exact exec_settled (f := doFthReceive k.toNat fr true false) (by rw [exec, execFronthaulReceive])
      (doFthReceive_ok hf hopen henable htype htag rfl rfl rfl hlen hsc hsa hicv hwindow)

end Sys2Proof.Machine
end

section
/-! The host ports: IDE TLPs, the IDE capability, links and the key management of IDE (R238 to R252, R483). -/

namespace Sys2Proof.Machine

/-! ### TLPs and configuration accesses -/

section
variable {h i sub : Nat} {k : Bool} {hdr data mac : Bytes} {b : Block} (hport : h < b.row.hostPorts) (hi : i ≤ 64) (hsub : sub ≤ 2)
  (hactive : b.pwr.st = .active) (hstarted : b.dst.started = true)
include hport hi hsub hactive hstarted

/-- In Non-Flit Mode a TLP passes as it is. -/
theorem doIdeTlp_nonFlit {o c : Bool} (hflit : (getPort h b).flit = false) :
    doIdeTlp h i sub k hdr data mac o c b = emit (.tlpIn h (hdr ++ data)) b := by
  rw [doIdeTlp, if_neg (by simp [Nat.not_le.2 hport, Nat.not_lt.2 hi, Nat.not_lt.2 hsub]), if_neg (by simp [hactive]),
    if_neg (by simp [hstarted]), if_pos (by simp [hflit])]

/-- A TLP of a Secure stream with the right MAC delivers its payload and uses one counter of its set. -/
theorem doIdeTlp_secure {j : Nat} {ks : IdeSet} {c : Block} (hflit : (getPort h b).flit = true) (hsecure : (getStream h i b).secure = true)
    (hj : setIndex false sub k = j) (hset : amGet j (getStream h i b).sets = some ks)
    (hmac : (gcmTag ks.key (ideIv ks.ctr) hdr data).take 12 = mac) (hctr : ks.ctr ≠ 0xFFFFFFFFFFFFFFFF)
    (hc : submitLink false (ledgerLink (18 + h) i ks.ctr.toNat) noSlot 5 ((data.length + 15) / 16 + 1) b = c) :
    doIdeTlp h i sub k hdr data mac true true b = emit (.tlpIn h (hdr ++ gcmCrypt ks.key (ideIv ks.ctr) data))
      (bumpGlob (704 + 8 * h) data.length
        (modStream h i (fun s => { s with sets := amSet j { ks with ctr := ks.ctr + 1 } s.sets }) c)) := by
  obtain ⟨insecure, hinsecure⟩ := exists_eq (a' := streamInsecure)
  rw [doIdeTlp, ← hinsecure, if_neg (by simp [Nat.not_le.2 hport, Nat.not_lt.2 hi, Nat.not_lt.2 hsub]), if_neg (by simp [hactive]),
    if_neg (by simp [hstarted]), if_neg (by simp [hflit])]
  dsimp only
  rw [hj, hset]
  dsimp only
  rw [hc, if_neg (by simpa [hsecure, hmac] using hctr)]

end

section
variable {h func off : Nat} {data : BitVec 32} {be : BitVec 4} {b : Block} (hport : h < b.row.hostPorts) (hfunc : func ≤ 1024)
  (hstarted : b.dst.started = true)
include hport hfunc hstarted

theorem doCfgAccess_read :
    let dw := (off / 4 + 1024 - Config.ideCapOffset / 4) % 1024
    doCfgAccess h func off true data be b = emit (.cfg h (mergeBits (cfgFixedBits h func dw b)
      (amGetD 0 (func * 4096 + off / 4 * 4) (getPort h b).cap) (cfgWritable dw))) b := by
  rw [doCfgAccess, if_neg (by simp [Nat.not_le.2 hport, Nat.not_lt.2 hfunc, hstarted])]
  rfl

theorem doCfgAccess_write :
    let key := func * 4096 + off / 4 * 4
    let dw := (off / 4 + 1024 - Config.ideCapOffset / 4) % 1024
    doCfgAccess h func off false data be b = emit (.cfg h 0) (modPort h (fun p =>
      { p with cap := amPut 0 key (mergeBits (amGetD 0 key (getPort h b).cap) data (laneMask be &&& cfgWritable dw)) p.cap }) b) := by
  rw [doCfgAccess, if_neg (by simp [Nat.not_le.2 hport, Nat.not_lt.2 hfunc, hstarted])]
  rfl

end

/-- A reset of a function whose TDI is locked to the port puts the TDI into ERROR. -/
theorem doFuncEvent_held {h func : Nat} {b : Block} (hfunc : func ≠ 0) (hle : func ≤ 1024) (hstarted : b.dst.started = true)
    (hheld : (getTdi (func - 1) b).held = true) (hport : (getTdi (func - 1) b).port = h) :
    doFuncEvent h func b = putTdi (func - 1) { getTdi (func - 1) b with st := .error } b := by
  rw [doFuncEvent, if_neg (by simp [hfunc, Nat.not_lt.2 hle, hstarted])]
  exact if_pos (by simp [hheld, hport])

theorem doHostLink_down {h : Nat} {b : Block} (hport : h < b.row.hostPorts) :
    doHostLink h false true b = modPort h (fun p => { p with linkUp := false }) b := by
  rw [doHostLink, if_neg (Nat.not_le.2 hport)]
  rfl

theorem doHostLink_up {h : Nat} {flit : Bool} {b : Block} (hport : h < b.row.hostPorts) :
    doHostLink h true flit b = modPort h (fun p => { p with linkUp := true, flit := flit }) b := by
  rw [doHostLink, if_neg (Nat.not_le.2 hport)]
  rfl

/-! ### Key management -/

@[simp] theorem getStream_modStream_same (h i : Nat) (f : IdeStream → IdeStream) (b : Block) :
    getStream h i (modStream h i f b) = f (getStream h i b) := by
  simp [getStream, modStream, modPort, getPort, setHost]

section
variable {p : Nat} {sess : BitVec 32} {b : Block} (hserved : hostServed p sess b = true) (hflit : (getPort (p - 1) b).flit = true)
include hserved

/-- A message of a host path's session that is mutually authenticated is served. -/
theorem hostSess_served {f : SpdmSess → Block → Block} : ∃ s, liveSess p sess b = some s ∧ hostSess p sess f b = f s b := by
  simp only [hostServed, Bool.and_eq_true] at hserved
  obtain ⟨⟨hgate, hpath⟩, hauthd⟩ := hserved
  split at hauthd
  case h_2 => cases hauthd
  case h_1 s hs =>
    refine ⟨s, hs, ?_⟩
    rw [hostSess, spdmGate_served hgate, hs]
    exact if_pos (by simp only [hpath, hauthd]; decide)

include hflit

theorem doQuery_served : doQuery p sess b = pciAnswer p (queryBody (p - 1) b) b := by
  obtain ⟨s, -, hrun⟩ := hostSess_served hserved (f := fun _ b =>
    if !(getPort (p - 1) b).flit then kmAnswer p 1 4 0 0 b else pciAnswer p (queryBody (p - 1) b) b)
  rw [doQuery]
  exact hrun.trans (if_neg (by simp [hflit]))

section
variable {stream sub j : Nat} {tx k : Bool} (hstream : stream ≤ 64) (hsub : sub ≤ 2) (hj : setIndex tx sub k = j)
include hstream hsub hj

/-- A message on a key set of a stream in Flit Mode answers by what its operation on the set says. -/
theorem doKm_served {object : Nat} {run : Nat → Nat → Block → Bool × Block} {ok : Bool} {c : Block} (hrun : run (p - 1) j b = (ok, c)) :
    doKm object p sess stream sub tx k run b =
      kmAnswer p object (if ok then 0 else 4) stream (b2n k + 2 * b2n tx + 16 * sub) c := by
  rw [doKm]
  obtain ⟨s, -, hs⟩ := hostSess_served hserved (f := fun _ b =>
    let h := p - 1
    let sel := b2n k + 2 * b2n tx + 16 * sub
    if !(getPort h b).flit || 64 < stream || 2 < sub then kmAnswer p object 4 stream sel b
    else
      let (ok, b) := run h (setIndex tx sub k) b
      kmAnswer p object (if ok then 0 else 4) stream sel b)
  refine hs.trans ((if_neg (by simp [hflit, Nat.not_lt.2 hstream, Nat.not_lt.2 hsub])).trans ?_)
  rw [hj, hrun]

theorem doKeyProg_unused {key : Key} {ifv : BitVec 64} (hunused : ∀ x, amGet j (getStream (p - 1) stream b).sets = some x → x.started = false) :
    doKeyProg p sess stream sub tx k key ifv b = kmAnswer p 3 0 stream (b2n k + 2 * b2n tx + 16 * sub)
      (modStream (p - 1) stream (fun s => { s with sets := amSet j { key := key, ctr := ifv } s.sets }) b) := by
  rw [doKeyProg]
  refine doKm_served hserved hflit hstream hsub hj (ok := true) ?_
  cases hset : amGet j (getStream (p - 1) stream b).sets with
  | none => rfl
  | some x =>
    obtain ⟨xkey, ctr, started⟩ := x
    obtain rfl : started = false := hunused _ hset
    rfl

theorem doKSetGo_programmed {x : IdeSet} (hset : amGet j (getStream (p - 1) stream b).sets = some x) :
    doKSetGo p sess stream sub tx k b = kmAnswer p 6 0 stream (b2n k + 2 * b2n tx + 16 * sub)
      (modStream (p - 1) stream (fun s => (s.go j sub tx k x).up) b) := by
  rw [doKSetGo]
  exact doKm_served hserved hflit hstream hsub hj (ok := true) (by rw [hset])

theorem doKSetStop_insecure (hsecure : (getStream (p - 1) stream b).secure = false) :
    let used := tx && amGet sub (getStream (p - 1) stream b).txSet == some (b2n k)
    doKSetStop p sess stream sub tx k b = kmAnswer p 6 0 stream (b2n k + 2 * b2n tx + 16 * sub)
      (modStream (p - 1) stream (fun s =>
        { s with sets := amDel j s.sets, txSet := if used then amDel sub s.txSet else s.txSet }) b) := by
  rw [doKSetStop]
  refine doKm_served hserved hflit hstream hsub hj (ok := true) ?_
  dsimp only
  rw [getStream_modStream_same]
  exact if_neg (by simp [hsecure])

end

end

/-- Settles O31: TLPs, configuration accesses, links, and the key management's messages that are served. -/
theorem hostPortsComplete : Obligations.HostPortsComplete := by
  unfold Obligations.HostPortsComplete
  intro s path sess b p
  refine ⟨fun port stream sub k hdr data mac hport hi hsub hactive hstarted =>
      ⟨fun hflit o c => ?_, fun ks hflit hsecure hset hmac hctr => ?_⟩,
    fun port func off data be hport hfunc hstarted => ⟨?_, ?_⟩, fun port func hfunc hle hstarted hheld hheldPort => ?_,
    fun port flit hport => ⟨?_, ?_⟩, fun hserved hflit => ⟨?_, fun stream sub tx k key ifv hstream hsub =>
      ⟨fun hunused => ?_, fun x hset => ?_, fun hsecure => ?_⟩⟩⟩
  · exact exec_settled (f := doIdeTlp port.toNat stream.toNat sub.toNat k hdr data mac o c) (by rw [exec, execIdeTlpReceive])
      (doIdeTlp_nonFlit hport hi hsub hactive hstarted hflit)
  · exact exec_settled (f := doIdeTlp port.toNat stream.toNat sub.toNat k hdr data mac true true) (by rw [exec, execIdeTlpReceive])
      (doIdeTlp_secure hport hi hsub hactive hstarted hflit hsecure rfl hset hmac hctr rfl)
  · exact exec_block (f := doCfgAccess port.toNat func.toNat off.toNat true data be) (by rw [exec, execCfgAccess])
      (doCfgAccess_read hport hfunc hstarted)
  · exact exec_block (f := doCfgAccess port.toNat func.toNat off.toNat false data be) (by rw [exec, execCfgAccess])
      (doCfgAccess_write hport hfunc hstarted)
  · have hne : func.toNat ≠ 0 := fun h => hfunc (BitVec.eq_of_toNat_eq (by simpa using h))
    have hevent := doFuncEvent_held hne hle hstarted hheld hheldPort
    exact ⟨exec_settled (f := doFuncEvent port.toNat func.toNat) (by rw [exec, execFunctionLevelReset]) hevent,
      exec_settled (f := doFuncEvent port.toNat func.toNat) (by rw [exec, execBarReprogrammed]) hevent⟩
  · exact exec_block (f := doHostLink port.toNat false true) (by rw [exec, execHostLinkDown]) (doHostLink_down hport)
  · exact exec_block (f := doHostLink port.toNat true flit) (by rw [exec, execHostLinkUp]) (doHostLink_up hport)
  · exact exec_settled (f := doQuery path.toNat sess) (by rw [exec, execQuery]) (doQuery_served hserved hflit)
  · exact exec_settled (f := doKeyProg path.toNat sess stream.toNat sub.toNat tx k key ifv) (by rw [exec, execKeyProg])
      (doKeyProg_unused hserved hflit hstream hsub rfl hunused)
  · exact exec_settled (f := doKSetGo path.toNat sess stream.toNat sub.toNat tx k) (by rw [exec, execKSetGo])
      (doKSetGo_programmed hserved hflit hstream hsub rfl hset)
  · exact exec_settled (f := doKSetStop path.toNat sess stream.toNat sub.toNat tx k) (by rw [exec, execKSetStop])
      (doKSetStop_insecure hserved hflit hstream hsub rfl hsecure)

end Sys2Proof.Machine
end

section
/-! TDISP requests, MCTP control commands and I3C command codes (R244 to R253). -/

namespace Sys2Proof.Machine

/-! ### TDISP -/

section
variable {p f : Nat} {sess : BitVec 32} {b : Block}

theorem doTdispVersion_served (h : hostServed p sess b = true) : doTdispVersion p sess f 0x81 b = tdispMsg p 0x01 f [1, 0x10] b := by
  obtain ⟨s, -, hrun⟩ := hostSess_served h (f := fun _ b =>
    if 0x81 = 0x81 then tdispMsg p 0x01 f [1, 0x10] b else tdispError p f tUnsupported b)
  rw [doTdispVersion, if_neg (by decide)]
  exact hrun.trans (if_pos rfl)

theorem doTdispCaps_served (h : hostServed p sess b = true) : doTdispCaps p sess f b = tdispMsg p 0x02 f (Config.stdBody 2 []) b := by
  obtain ⟨s, -, hrun⟩ := hostSess_served h (f := fun _ b => tdispMsg p 0x02 f (Config.stdBody 2 []) b)
  rw [doTdispCaps]
  exact hrun

section
variable (h : tdiServed p sess f b = true)
include h

theorem tdiServed_spec : hostServed p sess b = true ∧ f ≠ 0 ∧ f ≤ 1024 ∧
    ((getTdi (f - 1) b).held = true → (getTdi (f - 1) b).sess = sess ∧ (getTdi (f - 1) b).port + 1 = p) := by
  simp only [tdiServed, Bool.and_eq_true, bne_iff_ne, decide_eq_true_eq, Bool.or_eq_true, Bool.not_eq_true', beq_iff_eq] at h
  obtain ⟨⟨⟨hhost, hf⟩, hle⟩, hheld⟩ := h
  refine ⟨hhost, hf, hle, fun hh => hheld.resolve_left ?_⟩
  simp [hh]

/-- A request that is served for a TDI runs on it. -/
theorem onTdi_served {k : SpdmSess → Nat → TdiRec → Block → Block} :
    ∃ s, liveSess p sess b = some s ∧ onTdi p sess f k b = k s (f - 1) (getTdi (f - 1) b) b := by
  obtain ⟨hhost, hf, hle, hheld⟩ := tdiServed_spec h
  obtain ⟨s, hs, hrun⟩ := hostSess_served hhost (f := fun s b =>
    if f = 0 || 1024 < f then tdispError p f tInvalidInterface b
    else
      let t := getTdi (f - 1) b
      if t.held && (t.sess != sess || t.port + 1 != p) then tdispError p f tInvalidRequest b else k s (f - 1) t b)
  refine ⟨s, hs, ?_⟩
  rw [onTdi]
  refine hrun.trans ((if_neg (by simp [hf, Nat.not_lt.2 hle])).trans (if_neg ?_))
  cases hh : (getTdi (f - 1) b).held with
  | false => simp
  | true =>
    obtain ⟨hsess, hport⟩ := hheld hh
    simp [hsess, hport]

theorem lockedElsewhere_served : lockedElsewhere p f b = false := by
  obtain ⟨-, -, -, hheld⟩ := tdiServed_spec h
  cases hh : (getTdi (f - 1) b).held with
  | false => simp [lockedElsewhere, hh]
  | true => simp [lockedElsewhere, (hheld hh).2]

/-- A lockable TDI is locked to port, stream and session, under a nonce that is drawn. -/
theorem doTdiLock_lockable {stream : Nat} {mmio : BitVec 64} {flags : BitVec 16} {x : SpdmSess} (hx : liveSess p sess b = some x)
    (hlockable : lockable p (f - 1) stream (getTdi (f - 1) b) b = true) :
    let d := draw 256 b
    let t : TdiRec := ⟨.locked, p - 1, stream, d.1, mmio, flags, sess, x.chainDigest⟩
    doTdiLock p sess f stream mmio flags b = tdispMsg p 0x03 f (toBytes 32 d.1) (putTdi (f - 1) t d.2) := by
  rw [doTdiLock, if_neg (by simp [lockedElsewhere_served h])]
  obtain ⟨s, hs, hrun⟩ := onTdi_served h (k := fun s n t b =>
    if !lockable p n stream t b then tdispError p f tInvalidState b
    else
      let (nonce, b) := draw 256 b
      let t : TdiRec :=
        { st := .locked, port := p - 1, stream := stream, nonce := nonce, mmioOff := mmio, flags := flags, sess := sess,
          chain := s.chainDigest }
      tdispMsg p 0x03 f (toBytes 32 nonce) (putTdi n t b))
  obtain rfl : x = s := Option.some.inj (hx.symm.trans hs)
  exact hrun.trans (if_neg (by simp [hlockable]))

theorem doTdiReport_held {off len : Nat} {r : Bytes} (hr : tdiReport (f - 1) (getTdi (f - 1) b) b = r)
    (hheld : (getTdi (f - 1) b).held = true) (hoff : off < r.length) :
    let part := (r.drop off).take len
    doTdiReport p sess f off len b =
      tdispMsg p 0x04 f (leBytes 2 part.length ++ leBytes 2 (r.length - off - part.length) ++ part) b := by
  rw [doTdiReport]
  obtain ⟨s, -, hrun⟩ := onTdi_served h (k := fun _ n t b =>
    if !t.held then tdispError p f tInvalidState b
    else
      let r := tdiReport n t b
      if r.length ≤ off then tdispError p f tInvalidRequest b
      else
        let part := (r.drop off).take len
        tdispMsg p 0x04 f (leBytes 2 part.length ++ leBytes 2 (r.length - off - part.length) ++ part) b)
  refine hrun.trans ((if_neg (by simp [hheld])).trans ?_)
  dsimp only
  rw [hr, if_neg (Nat.not_le.2 hoff)]

theorem doTdiState_served : doTdiState p sess f b =
    tdispMsg p 0x05 f [match (getTdi (f - 1) b).st with | .unlocked => 0 | .locked => 1 | .run => 2 | .error => 3] b := by
  rw [doTdiState]
  obtain ⟨s, -, hrun⟩ := onTdi_served h (k := fun _ _ t b =>
    tdispMsg p 0x05 f [match t.st with | .unlocked => 0 | .locked => 1 | .run => 2 | .error => 3] b)
  exact hrun

theorem doTdiStart_locked {nonce : BitVec 256} (hst : (getTdi (f - 1) b).st = .locked) (hnonce : (getTdi (f - 1) b).nonce = nonce) :
    doTdiStart p sess f nonce b =
      tdispMsg p 0x06 f [] (putTdi (f - 1) { getTdi (f - 1) b with st := .run, nonce := 0 } b) := by
  rw [doTdiStart]
  obtain ⟨s, -, hrun⟩ := onTdi_served h (k := fun _ n t b =>
    if t.st != .locked then tdispError p f tInvalidState b
    else if t.nonce != nonce then tdispError p f tInvalidNonce b
    else tdispMsg p 0x06 f [] (putTdi n { t with st := .run, nonce := 0 } b))
  exact hrun.trans ((if_neg (by simp [hst])).trans (if_neg (by simp [hnonce])))

theorem doTdiStop_served : doTdiStop p sess f b = tdispMsg p 0x07 f [] (unpark (f - 1) (putTdi (f - 1) {} b)) := by
  rw [doTdiStop]
  obtain ⟨s, -, hrun⟩ := onTdi_served h (k := fun _ n _ b => tdispMsg p 0x07 f [] (unpark n (putTdi n {} b)))
  exact hrun

end

end

/-- Settles O32: each TDISP request where its condition holds. -/
theorem tdispComplete : Obligations.TdispComplete := by
  unfold Obligations.TdispComplete
  intro s path sess func b p f t
  refine ⟨fun h => ⟨?_, ?_⟩, fun h => ⟨fun stream mmio flags x hx hlockable => ?_, fun off len hheld hoff => ?_, ?_,
    fun nonce hst hnonce => ?_, ?_⟩⟩
  · exact exec_settled (f := doTdispVersion path.toNat sess func.toNat 0x81) (by rw [exec, execGetTdispVersion]; rfl) (doTdispVersion_served h)
  · exact exec_settled (f := doTdispCaps path.toNat sess func.toNat) (by rw [exec, execGetTdispCapabilities]) (doTdispCaps_served h)
  · exact exec_settled (f := doTdiLock path.toNat sess func.toNat stream.toNat mmio flags) (by rw [exec, execLockInterfaceRequest])
      (doTdiLock_lockable h hx hlockable)
  · exact exec_settled (f := doTdiReport path.toNat sess func.toNat off.toNat len.toNat) (by rw [exec, execGetDeviceInterfaceReport])
      (doTdiReport_held h rfl hheld hoff)
  · exact exec_settled (f := doTdiState path.toNat sess func.toNat) (by rw [exec, execGetDeviceInterfaceState]) (doTdiState_served h)
  · exact exec_settled (f := doTdiStart path.toNat sess func.toNat nonce) (by rw [exec, execStartInterfaceRequest])
      (doTdiStart_locked h hst hnonce)
  · exact exec_settled (f := doTdiStop path.toNat sess func.toNat) (by rw [exec, execStopInterfaceRequest]) (doTdiStop_served h)

/-! ### MCTP control -/

section
variable {p : Nat} {b : Block} (h : mctpServed p b = true)
include h

theorem mctp_served {cmd : Nat} {k : Block → Bytes × Block} {r : Bytes} {c : Block} (hk : k b = (r, c)) :
    mctp p cmd k b = answer p ([0, BitVec.ofNat 8 cmd] ++ r) c := by
  simp only [mctpServed, Bool.and_eq_true, Bool.not_eq_true', Bool.or_eq_true, beq_iff_eq] at h
  obtain ⟨⟨⟨hasleep, hstarted⟩, hexists⟩, hserved⟩ := h
  have hdropped : ¬(unserved b && p != 0 && !lcDead b) = true := by
    obtain (h | h) | h := hserved <;> simp [h]
  rw [mctp, if_neg (by simp [hasleep, hstarted, hexists]), if_neg hdropped, hk]

theorem doSetEid_set {op : Nat} {eid : BitVec 8} (hop : op < 2) (hzero : eid ≠ 0) (hall : eid ≠ 255) :
    doSetEid p op eid.toNat b = answer p ([0, 1] ++ [0, 0, eid, 0]) (modPath p (fun x => { x with eid := eid.toNat }) b) := by
  have hz : eid.toNat ≠ 0 := fun h => hzero (BitVec.eq_of_toNat_eq h)
  have ha : eid.toNat ≠ 255 := fun h => hall (BitVec.eq_of_toNat_eq h)
  rw [doSetEid]
  refine mctp_served h (r := [0, 0, eid, 0]) ((if_neg ?_).trans ?_)
  · simp only [Bool.or_eq_true, decide_eq_true_eq]
    omega
  · rw [BitVec.ofNat_toNat, BitVec.setWidth_eq]

theorem doGetEid_served : doGetEid p b = answer p ([0, 2] ++ [0, BitVec.ofNat 8 (getPath p b).eid, 0, 0]) b := by
  rw [doGetEid]
  exact mctp_served h rfl

theorem doMctpVersion_served (type : BitVec 8) :
    let body : Bytes := if type = 0xFF ∨ type = 0 then [0, 1, 0xF1, 0xF3, 0xFF, 0x00]
      else if type = 5 ∨ type = 6 then [0, 1] ++ Config.stdBody 4 [type] else [0x80]
    doMctpVersion p type.toNat b = answer p ([0, 4] ++ body) b := by
  have hiff (n : Nat) (hn : n < 256) : type.toNat = n ↔ type = BitVec.ofNat 8 n :=
    ⟨fun h => BitVec.eq_of_toNat_eq (by rw [h, BitVec.toNat_ofNat, Nat.mod_eq_of_lt hn]), fun h => by rw [h, BitVec.toNat_ofNat, Nat.mod_eq_of_lt hn]⟩
  intro body
  rw [doMctpVersion]
  refine mctp_served h (r := body) ?_
  simp only [body, hiff 255 (by omega), hiff 0 (by omega), hiff 5 (by omega), hiff 6 (by omega), Bool.or_eq_true, decide_eq_true_eq,
    BitVec.ofNat_toNat, BitVec.setWidth_eq]
  split
  case isTrue hbase => exact congrArg (·, b) (if_pos hbase).symm
  case isFalse hbase =>
    refine Eq.trans ?_ (congrArg (·, b) (if_neg hbase).symm)
    split
    case isTrue hspdm => exact congrArg (·, b) (if_pos hspdm).symm
    case isFalse hspdm => exact congrArg (·, b) (if_neg hspdm).symm

theorem doMctpTypes_served {len : Nat} (hlen : len ≤ 8256) : doMctpTypes p 0 5 len b = answer p ([0, 5] ++ [0, 2, 5, 6]) b := by
  rw [doMctpTypes, if_neg (by simpa using hlen), if_neg (by decide)]
  exact mctp_served h rfl

end

/-! ### I3C command codes -/

section
variable {b : Block}

theorem ccc_served {k : Block → Block} (h : cccServed none b = true) : ccc k b = k b := by
  simp only [cccServed, Bool.and_eq_true, decide_eq_true_eq] at h
  obtain ⟨⟨hactive, hstarted⟩, -⟩ := h
  exact if_neg (by simp [hactive, hstarted])

theorem cccFor_served {dest : Option (BitVec 7)} {k : Block → Block} (h : cccServed dest b = true) : cccFor dest k b = k b := by
  simp only [cccServed, Bool.and_eq_true, decide_eq_true_eq] at h
  obtain ⟨⟨hactive, hstarted⟩, hdest⟩ := h
  rw [cccFor, ccc, if_neg (by simp [hactive, hstarted])]
  cases dest with
  | none => rfl
  | some a => exact if_pos (by simpa using hdest)

theorem cccGet_served {dest : BitVec 7} {bs : Block → Bytes} (h : cccServed (some dest) b = true) :
    cccGet dest bs b = emit (.i3c (bs b)) b := by
  rw [cccGet]
  exact cccFor_served h

theorem doEntdaa_served {da : Nat} (h : cccServed none b = true) (hnone : b.host.i3c.da = none) :
    doEntdaa da b = setI3c (fun i => { i with da := some da }) b := by
  rw [doEntdaa, ccc_served h]
  exact if_neg (by simp [hnone])

theorem doSetdasa_served {sa da : Nat} (h : cccServed none b = true) (hnone : b.host.i3c.da = none) (hne : sa ≠ 0) (hsa : sa = b.regs.i3cSa) :
    doSetdasa sa da b = setI3c (fun i => { i with da := some da }) b := by
  rw [doSetdasa, ccc_served h]
  exact if_neg (by simp [hnone, ← hsa, hne])

theorem doRstdaa_served (h : cccServed none b = true) : doRstdaa b = setI3c (fun i => { i with da := none }) b := by
  rw [doRstdaa]
  exact ccc_served h

end

/-- Settles O33: each MCTP control command that is served, and each command code that reaches the target. -/
theorem mctpAndI3cComplete : Obligations.MctpAndI3cComplete := by
  unfold Obligations.MctpAndI3cComplete
  intro s path b p
  refine ⟨fun h => ⟨fun op eid hop hzero hall => ?_, ?_, fun type => ?_, fun len hlen => ?_⟩,
    fun h => ⟨fun da hnone => ?_, fun sa da hnone hne hsa => ?_, ?_⟩,
    fun dest h => ⟨fun ev => ⟨?_, ?_⟩, fun len => ⟨?_, fun ibi => ?_⟩⟩, fun dest h => ⟨?_, ?_, ?_, ?_, ?_, ?_⟩⟩
  · exact exec_block (f := doSetEid path.toNat op.toNat eid.toNat) (by rw [exec, execSetEndpointId]) (doSetEid_set h hop hzero hall)
  · exact exec_block (f := doGetEid path.toNat) (by rw [exec, execGetEndpointId]) (doGetEid_served h)
  · exact exec_block (f := doMctpVersion path.toNat type.toNat) (by rw [exec, execGetMctpVersionSupport]) (doMctpVersion_served h type)
  · exact exec_block (f := doMctpTypes path.toNat 0 5 len.toNat) (by rw [exec, execGetMessageTypeSupport]; rfl) (doMctpTypes_served h hlen)
  · exact exec_block (f := doEntdaa da.toNat) (by rw [exec, execEntdaa]) (doEntdaa_served h hnone)
  · exact exec_block (f := doSetdasa sa.toNat da.toNat) (by rw [exec, execSetdasa])
      (doSetdasa_served h hnone (fun hz => hne (BitVec.eq_of_toNat_eq hz)) hsa)
  · exact exec_block (f := doRstdaa) (by rw [exec, execRstdaa]) (doRstdaa_served h)
  · exact exec_block (f := doEnec dest ev) (by rw [exec, execEnec]) (by rw [doEnec]; exact cccFor_served h)
  · exact exec_block (f := doDisec dest ev) (by rw [exec, execDisec]) (by rw [doDisec]; exact cccFor_served h)
  · exact exec_block (by rw [exec, execSetmwl]) (cccFor_served h)
  · exact exec_block (by rw [exec, execSetmrl]) (cccFor_served h)
  · exact exec_block (by rw [exec, execGetpid]) (cccGet_served h)
  · exact exec_block (by rw [exec, execGetbcr]) (cccGet_served h)
  · exact exec_block (by rw [exec, execGetdcr]) (cccGet_served h)
  · exact exec_block (by rw [exec, execGetstatus]) (cccGet_served h)
  · exact exec_block (by rw [exec, execGetmwl]) (cccGet_served h)
  · exact exec_block (by rw [exec, execGetmrl]) (cccGet_served h)

end Sys2Proof.Machine
end

section
/-! SPDM: negotiation, identity, measurements and sessions (R254 to R259, R301, R326). -/

namespace Sys2Proof.Machine

theorem spdmGate_passes {p : Nat} {version : Bool} {k : Block → Block} {b : Block} (h : spdmServed p b = true) :
    spdmGate p version k b = k b := by
  simp only [spdmServed, Bool.and_eq_true, Bool.not_eq_true'] at h
  obtain ⟨⟨⟨⟨⟨hasleep, hstarted⟩, hexists⟩, hdead⟩, hunserved⟩, hbusy⟩ := h
  simp [spdmGate, hasleep, hstarted, hexists, hdead, hunserved, hbusy]

section
variable {p : Nat} {sess : BitVec 32} {msg : Bytes} {b : Block}

/-- A request in its place runs its operation. -/
theorem spdmReq_asked {code version stage : Nat} {use : SpdmWhere} {k : Block → Block}
    (h : spdmAsked p sess msg code version stage use b = true) : spdmReq p sess msg code version stage use k b = k b := by
  simp only [spdmAsked, Bool.and_eq_true, beq_iff_eq, decide_eq_true_eq] at h
  obtain ⟨⟨⟨⟨⟨⟨⟨hcode, hversion⟩, hmin⟩, hmax⟩, hserved⟩, hstage⟩, hsess⟩, hfits⟩ := h
  have hknown : ¬(sess != 0 && (findSpdm p sess b).isNone) = true := by
    cases hf : findSpdm p sess b with
    | some x => simp
    | none => simpa [hf] using hsess
  rw [spdmReq.eq_def]
  dsimp only
  rw [if_neg (Nat.not_lt.2 hmax), if_neg hknown, if_neg (by simp [hcode]), spdmGate_passes hserved, if_neg (by simp [hversion]),
    if_neg (Nat.not_lt.2 hmin), if_neg (by simpa using hstage)]
  exact if_pos hfits

/-! ### Negotiation and certificates -/

theorem doGetVersion_asked (h : spdmAsked p sess msg 0x84 0x10 0 .outside b = true) : doGetVersion p sess msg b =
    negotiated p 1 msg [0x10, 0x04, 0, 0, 0, 1, 0x00, 0x13] id (modPath p (fun x => { eid := x.eid }) b) := by
  rw [doGetVersion, spdmReq_asked h]

theorem doGetCapabilities_asked (h : spdmAsked p sess msg 0xE1 0x13 1 .outside b = true) (hlen : msg.length = 20) (hzero : leField msg 4 1 = 0)
    (hmin : 42 ≤ leField msg 12 4) (hmax : leField msg 12 4 ≤ leField msg 16 4) :
    doGetCapabilities p sess msg b = negotiated p 2 msg capsResp (fun x => { x with reqCaps := leField msg 8 4 }) b := by
  rw [doGetCapabilities, spdmReq_asked h]
  exact if_neg (by simp [hlen, hzero, Nat.not_lt.2 hmin, Nat.not_lt.2 hmax])

theorem doNegotiate_asked (h : spdmAsked p sess msg 0xE3 0x13 2 .outside b = true) (hgood : algBad msg = false) :
    doNegotiate p sess msg b = negotiated p 3 msg (algResp msg) id b := by
  rw [doNegotiate, spdmReq_asked h]
  exact if_neg (by simp [hgood])

theorem doGetDigests_asked (h : spdmAsked p sess msg 0x81 0x13 3 .either b = true) :
    doGetDigests p sess msg b = certAnswer p sess msg ([0x13, 0x01, 1, 1] ++ sha384Bytes (slotChain b)) b := by
  rw [doGetDigests, spdmReq_asked h]

theorem doGetCertificate_asked {off len : Nat} (hoff : leField msg 4 2 = off)
    (hpart : min (min (leField msg 6 2) ((slotChain b).length - off)) 8184 = len)
    (h : spdmAsked p sess msg 0x82 0x13 3 .either b = true) (hlen : msg.length = 8) (hzero : leField msg 2 1 = 0)
    (hlt : off < (slotChain b).length) :
    doGetCertificate p sess msg b = certAnswer p sess msg ([0x13, 0x02, 0, 0] ++ leBytes 2 len ++
      leBytes 2 ((slotChain b).length - off - len) ++ sliceBytes (slotChain b) off len) b := by
  rw [doGetCertificate, spdmReq_asked h]
  dsimp only
  rw [hoff, hpart]
  exact if_neg (by simp [hlen, hzero, Nat.not_le.2 hlt])

/-! ### Signed responses -/

theorem doChallenge_asked (h : spdmAsked p sess msg 0x83 0x13 3 .outside b = true) (hlen : msg.length = 44) (hzero : leField msg 2 1 = 0)
    (hsummary : summaryOk (leField msg 3 1) = true) (htrng : trngStopped b = false) :
    doChallenge p sess msg b = challengeAuth p sess msg b := by
  rw [doChallenge, spdmReq_asked h]
  exact (if_neg (by simp [hlen, hzero, hsummary])).trans (if_neg (by simp [htrng]))

theorem doGetMeasurements_asked (h : spdmAsked p sess msg 0xE0 0x13 3 .either b = true) (hattr : leField msg 2 1 < 8)
    (htrng : trngStopped b = false) (hlen : msg.length = (if (leField msg 2 1).testBit 0 then 45 else 12))
    (hslot : (leField msg 2 1).testBit 0 = true → leField msg 36 1 = 0) :
    doGetMeasurements p sess msg b = measurements p sess msg b := by
  have hgood : ¬(8 ≤ leField msg 2 1 || msg.length != (if (leField msg 2 1).testBit 0 then 45 else 12) ||
      ((leField msg 2 1).testBit 0 && leField msg 36 1 != 0)) = true := by
    rw [hlen]
    cases hsig : (leField msg 2 1).testBit 0 with
    | false => simp [Nat.not_le.2 hattr]
    | true => simp [Nat.not_le.2 hattr, hslot hsig]
  rw [doGetMeasurements, spdmReq_asked h]
  exact (if_neg hgood).trans (if_neg (by simp [htrng]))

/-! ### Sessions -/

/-- A session opens where the requester's point is on the curve. -/
theorem doKeyExchange_asked (h : spdmAsked p sess msg 0xE4 0x13 3 .outside b = true) (hbusy : b.lcBusy = false)
    (hlen : msg.length = 138 + leField msg 136 2) (hzero : leField msg 3 1 = 0) (hsummary : summaryOk (leField msg 2 1) = true)
    (hfull : sessionsFull p b = false) (htrng : trngStopped b = false) :
    doKeyExchange p sess msg b = if Config.ecPoint (dhPoint msg) then openSpdm p msg b else spdmError p eInvalidRequest b := by
  rw [doKeyExchange, spdmReq_asked h]
  dsimp only
  rw [if_neg (by simp [hbusy])]
  cases hpoint : Config.ecPoint (dhPoint msg) with
  | false => exact if_pos (by simp)
  | true => exact (if_neg (by simp [hlen, hzero, hsummary])).trans ((if_neg (by simp [hfull])).trans (if_neg (by simp [htrng])))

/-- Without mutual authentication a right confirmation completes a session, and a wrong one ends it. -/
theorem doFinish_asked {x : SpdmSess} (h : spdmAsked p sess msg 0xE5 0x13 3 .handshake b = true) (hfind : findSpdm p sess b = some x)
    (hauth : x.mustAuth = false) (hsig : leField msg 2 1 = 0) (hzero : leField msg 3 1 = 0) (hlen : msg.length = 52) :
    doFinish p sess msg b =
      if sliceBytes msg 4 48 = sliceBytes (Config.finishMac x.secret (x.trans ++ msg.take 4)) 0 48 then
        answer p [0x13, 0x65, 0, 0] (modSpdm p sess (fun s => { s with live := true }) b)
      else sessionFails p sess 0x06 b := by
  rw [doFinish, spdmReq_asked h, hfind]
  dsimp only
  rw [hsig, hauth, if_neg (by simp [hzero, hlen]), if_neg (by simp)]
  by_cases hmac : sliceBytes msg 4 48 = sliceBytes (Config.finishMac x.secret (x.trans ++ msg.take 4)) 0 48
  · rw [if_pos hmac]
    exact if_neg (by simpa using hmac)
  · rw [if_neg hmac]
    exact if_pos (by simpa using hmac)

theorem doEndSession_asked (h : spdmAsked p sess msg 0xEC 0x13 3 .either b = true) (hsome : (findSpdm p sess b).isSome = true)
    (hlen : msg.length = 4) (hattr : leField msg 2 1 ≤ 1) (hzero : leField msg 3 1 = 0) :
    doEndSession p sess msg b = endSpdm p sess (answer p [0x13, 0x6C, 0, 0] b) := by
  rw [doEndSession, spdmReq_asked h, if_neg (by simpa [Option.isSome_iff_ne_none] using hsome)]
  exact if_neg (by simp [hlen, hzero, Nat.not_lt.2 hattr])

/-! ### The encapsulated flow -/

section
variable {x : SpdmSess} (hfind : findSpdm p sess b = some x)
include hfind

theorem doGetEncap_asked (h : spdmAsked p sess msg 0xEA 0x13 3 .handshake b = true) (hmust : x.mustAuth = true) (hauthd : x.authd = false) :
    doGetEncap p sess msg b = answer p [0x13, 0x6A, 1, 0, 0x13, 0x81, 0, 0]
      (modSpdm p sess (fun s => { s with encap := 1, encapId := 1, chain := [] }) b) := by
  rw [doGetEncap, spdmReq_asked h, hfind]
  exact if_neg (by simp [hmust, hauthd])

/-- The requester's digests are kept, and its chain is asked for from the start. -/
theorem doDeliverEncap_digests {r : Bytes} (hr : msg.drop 4 = r) (h : spdmAsked p sess msg 0xEB 0x13 3 .handshake b = true)
    (hencap : x.encap = 1) (hid : leField msg 2 1 = x.encapId) (hzero : leField msg 3 1 = 0) (hversion : leField r 0 1 = 0x13)
    (hcode : leField r 1 1 = 1) (hslot : (leField r 3 1).testBit 0 = true) (hlen : 52 ≤ r.length) :
    doDeliverEncap p sess msg b = askCert p sess { x with reqDigest := sliceBytes r 4 48, chain := [] } 0 b := by
  rw [doDeliverEncap, spdmReq_asked h, hfind]
  dsimp only
  rw [hr, if_neg (by omega), if_neg (by simp [hid, hzero, hversion]), if_pos hencap]
  exact if_neg (by simp only [hcode, hslot, Nat.not_lt.2 hlen]; decide)

end

end

/-- Settles O34: each SPDM request in its place where its condition holds. -/
theorem spdmComplete : Obligations.SpdmComplete := by
  unfold Obligations.SpdmComplete
  intro s path sess msg b p
  refine ⟨fun h => ?_, fun h hlen hzero hmin hmax => ?_, fun h hgood => ?_, fun h => ?_, fun h hlen hzero hlt => ?_,
    fun h hlen hzero hsummary htrng => ?_, fun h hattr htrng hlen hslot => ?_, fun h hbusy hlen hzero hsummary hfull htrng => ?_,
    fun x h hfind hauth hsig hzero hlen => ?_, fun h hsome hlen hattr hzero => ?_, fun x h hfind hmust hauthd => ?_,
    fun x h hfind hencap hid hzero hversion hcode hslot hlen => ?_⟩
  · exact exec_block (f := doGetVersion path.toNat sess msg) (by rw [exec, execGetVersion]) (doGetVersion_asked h)
  · exact exec_block (f := doGetCapabilities path.toNat sess msg) (by rw [exec, execGetCapabilities])
      (doGetCapabilities_asked h hlen hzero hmin hmax)
  · exact exec_block (f := doNegotiate path.toNat sess msg) (by rw [exec, execNegotiateAlgorithms]) (doNegotiate_asked h hgood)
  · exact exec_block (f := doGetDigests path.toNat sess msg) (by rw [exec, execGetDigests]) (doGetDigests_asked h)
  · exact exec_block (f := doGetCertificate path.toNat sess msg) (by rw [exec, execGetCertificate])
      (doGetCertificate_asked rfl rfl h hlen hzero hlt)
  · exact exec_block (f := doChallenge path.toNat sess msg) (by rw [exec, execChallenge]) (doChallenge_asked h hlen hzero hsummary htrng)
  · exact exec_block (f := doGetMeasurements path.toNat sess msg) (by rw [exec, execGetMeasurements])
      (doGetMeasurements_asked h hattr htrng hlen hslot)
  · exact exec_block (f := doKeyExchange path.toNat sess msg) (by rw [exec, execKeyExchange])
      (doKeyExchange_asked h hbusy hlen hzero hsummary hfull htrng)
  · exact exec_block (f := doFinish path.toNat sess msg) (by rw [exec, execFinish]) (doFinish_asked h hfind hauth hsig hzero hlen)
  · exact exec_block (f := doEndSession path.toNat sess msg) (by rw [exec, execEndSession]) (doEndSession_asked h hsome hlen hattr hzero)
  · exact exec_block (f := doGetEncap path.toNat sess msg) (by rw [exec, execGetEncapsulatedRequest]) (doGetEncap_asked hfind h hmust hauthd)
  · exact exec_block (f := doDeliverEncap path.toNat sess msg) (by rw [exec, execDeliverEncapsulatedResponse])
      (doDeliverEncap_digests hfind rfl h hencap hid hzero hversion hcode hslot hlen)

end Sys2Proof.Machine
end

section
/-! Frames that verify: each check that receiving makes is one that the verification makes (R211, R214, R227, R233, R234), and what
each kind of request then does (R206, R207, R221, R222, R229 to R232). -/

namespace Sys2Proof.Machine

section
variable {kind port origin si : Nat} {f p : Bytes} {s : Session} {h : Header} {b : Block}

/-- A frame that verifies on a weft port is accepted and used. -/
theorem recvWeft_verified {use : Nat → Session → Header → Bytes → Block → Block}
    (hverified : weftVerified kind port origin f b = some (si, s, h, p)) :
    recvWeft kind port origin f use b = use si s h p (takeFrame si port h b) ∧ h.kind = kind ∧ isFedPort port = false := by
  rw [weftVerified_eq] at hverified
  split at hverified
  case isTrue => cases hverified
  case isFalse hport =>
    simp only [Bool.or_eq_true, not_or, decide_eq_true_eq] at hport
    obtain ⟨⟨⟨hasleep, hup⟩, hcount⟩, hfed⟩ := hport
    obtain ⟨h', hparse, hverified⟩ := Option.bind_eq_some_iff.1 hverified
    split at hverified
    case isTrue => cases hverified
    case isFalse hform =>
      simp only [Bool.or_eq_true, not_or, decide_eq_true_eq] at hform
      obtain ⟨⟨⟨⟨⟨hknown, hkind⟩, hdie⟩, hsession⟩, hflits⟩, hns⟩ := hform
      obtain ⟨s', hsess, hverified⟩ := Option.bind_eq_some_iff.1 hverified
      split at hverified
      case isTrue => cases hverified
      case isFalse hlive =>
        obtain ⟨k, hkey, hverified⟩ := Option.bind_eq_some_iff.1 hverified
        obtain ⟨p', hopen, hverified⟩ := Option.bind_eq_some_iff.1 hverified
        split at hverified
        case isTrue => cases hverified
        case isFalse hreplay =>
          cases hverified
          refine ⟨?_, by simpa using hkind, by simpa using hfed⟩
          simp only [Bool.or_eq_true, not_or] at hlive
          obtain ⟨hopening, hgone⟩ := hlive
          unfold recvWeft
          rw [if_neg (by simp only [Bool.or_eq_true, not_or, decide_eq_true_eq]; exact ⟨⟨hasleep, hup⟩, hcount⟩), hparse]
          dsimp only
          rw [if_neg hknown, if_neg hkind,
            if_neg (by simp only [Bool.or_eq_true, not_or, decide_eq_true_eq]; exact ⟨⟨⟨hdie, hsession⟩, hflits⟩, hns⟩), hsess]
          dsimp only
          rw [if_neg (by simpa only [Bool.or_eq_true, not_or] using hopening), if_neg hgone, hkey]
          dsimp only
          rw [hopen]
          exact if_neg hreplay

theorem weftVerified_kind (hverified : weftVerified kind port origin f b = some (si, s, h, p)) : h.kind = kind := by
  obtain ⟨-, hkind, -⟩ := recvWeft_verified hverified (use := fun _ _ _ _ b => b)
  exact hkind

end

/-! ### Requests -/

/-- A group's session carries multicast stores alone. -/
theorem kind_ne_group {s : Session} {h : Header} (hcarries : carries s h = true) (hkind : h.kind ≠ 4) : s.kind ≠ 2 := by
  intro hgroup
  rw [carries, hgroup] at hcarries
  exact hkind (by simpa using hcarries)

theorem serveIn_accepts {x : Inbound} {kind : TxnKind} {addr : Nat} {mask : BitVec 64} {data : List Line} {word : BitVec 32} {tag : BitVec 64}
    {evs : MemEvs} {b : Block} (hbar : linesBar x kind addr word tag b = none) :
    serveIn x kind addr mask data word tag evs b = acceptLines x kind addr mask data word tag evs b := by
  rw [serveIn, hbar]

/-- The answer's payload is the element that a fetch is given. -/
def givenValue (w : Option (BitVec 64)) : Bytes := match w with
  | some w => valueBytes w.toNat
  | none => []

section
variable {x : Inbound} {h : Header} {p : Bytes} {requester : Nat × BitVec 16} {evs : MemEvs} {b : Block}

theorem serveFrame_read (hkind : h.kind = 1) (hmin : 1 ≤ h.param) (hmax : h.param ≤ 4)
    (hbar : linesBar { x with lines := h.param } .read h.addr.toNat 0 0 b = none) :
    serveFrame x h p requester evs b = acceptLines { x with lines := h.param } .read h.addr.toNat 0 [] 0 0 evs b := by
  unfold serveFrame
  dsimp only
  rw [hkind]
  exact (if_neg (by simp [Nat.not_lt.2 hmax]; omega)).trans (serveIn_accepts hbar)

theorem serveFrame_write (hkind : h.kind = 2) (hbar : linesBar { x with lines := h.flits / 2 } .write h.addr.toNat 0 0 b = none) :
    serveFrame x h p requester evs b = acceptLines { x with lines := h.flits / 2 } .write h.addr.toNat
      (if h.flits = 2 then BitVec.ofNat 64 h.extra else fullMask)
      ((List.range (h.flits / 2)).map fun j => ofBytes 512 (sliceBytes p (64 * j) 64)) 0 0 evs b := by
  unfold serveFrame
  dsimp only
  rw [hkind]
  exact serveIn_accepts hbar

theorem serveFrame_combined (hkind : h.kind = 5)
    (hbar : linesBar { x with lines := 1, count := h.extra % 65536 } .ply h.addr.toNat (BitVec.ofNat 32 h.param) 0 b = none) :
    serveFrame x h p requester evs b = acceptLines { x with lines := 1, count := h.extra % 65536 } .ply h.addr.toNat fullMask
      ((List.range (h.flits / 2)).map fun j => ofBytes 512 (sliceBytes p (64 * j) 64)) (BitVec.ofNat 32 h.param) 0 evs b := by
  unfold serveFrame
  dsimp only
  rw [hkind]
  exact serveIn_accepts hbar

theorem serveFrame_resolve {a : BitVec 8} {w : Option (BitVec 64)} {c : Block} (hkind : h.kind = 7)
    (hjudge : hwJudge requester.1 x.skein requester.2 (BitVec.ofNat 64 h.nonce) false true b = (.reply a w, c)) :
    serveFrame x h p requester evs b = answerIn x a (givenValue w) c := by
  obtain ⟨judge, hhidden⟩ := exists_eq (a' := hwJudge)
  unfold serveFrame
  rw [← hhidden] at hjudge ⊢
  dsimp only
  rw [hkind]
  rw [hjudge]
  rfl

section
variable (hkind : h.kind = 3) (hfetch : (plyWord (BitVec.ofNat 32 h.param)).fetch = true ↔ h.flits = 1)
include hkind hfetch

/-- A ply operation that is not sequenced is idempotent and fetches nothing. -/
theorem serveFrame_plyPlain (hns : h.ns = false) (hplain : (plyWord (BitVec.ofNat 32 h.param)).fetch = false)
    (hadd : (plyWord (BitVec.ofNat 32 h.param)).op ≠ 1) (hcas : (plyWord (BitVec.ofNat 32 h.param)).op ≠ 6)
    (hbar : linesBar { x with lines := 1 } .ply h.addr.toNat (BitVec.ofNat 32 h.param) (BitVec.ofNat 64 h.extra) b = none) :
    serveFrame x h p requester evs b = acceptLines { x with lines := 1 } .ply h.addr.toNat fullMask [ofBytes 512 p]
      (BitVec.ofNat 32 h.param) (BitVec.ofNat 64 h.extra) evs b := by
  have hflits : h.flits ≠ 1 := fun h1 => by simp [hfetch.2 h1] at hplain
  obtain ⟨judge, hhidden⟩ := exists_eq (a' := hwJudge)
  unfold serveFrame
  rw [← hhidden]
  dsimp only
  rw [hkind]
  exact (if_neg (by simp [hplain, hflits, hadd, hcas])).trans ((if_neg (by simp [hns])).trans (serveIn_accepts hbar))

variable (hns : h.ns = true)
include hns

theorem serveFrame_plyApplied {c : Block} (hjudge : hwJudge requester.1 x.skein requester.2 (BitVec.ofNat 64 h.nonce)
      (plyWord (BitVec.ofNat 32 h.param)).fetch false b = (.apply, c))
    (hbar : linesBar { x with lines := 1, seqd := some (requester.1, BitVec.ofNat 64 h.nonce) } .ply h.addr.toNat (BitVec.ofNat 32 h.param)
      (BitVec.ofNat 64 h.extra) c = none) :
    serveFrame x h p requester evs b = acceptLines { x with lines := 1, seqd := some (requester.1, BitVec.ofNat 64 h.nonce) } .ply
      h.addr.toNat fullMask [ofBytes 512 p] (BitVec.ofNat 32 h.param) (BitVec.ofNat 64 h.extra) evs c := by
  have hgood : ((plyWord (BitVec.ofNat 32 h.param)).fetch != (h.flits == 1)) = false := by
    rw [bne_eq_false_iff_eq, Bool.eq_iff_iff, hfetch, beq_iff_eq]
  obtain ⟨judge, hhidden⟩ := exists_eq (a' := hwJudge)
  unfold serveFrame
  rw [← hhidden] at hjudge ⊢
  dsimp only
  rw [hkind]
  refine (if_neg (by simp [hgood, hns])).trans ((if_pos hns).trans ?_)
  rw [hjudge]
  exact serveIn_accepts hbar

theorem serveFrame_plyAnswered {a : BitVec 8} {w : Option (BitVec 64)} {c : Block} (hjudge : hwJudge requester.1 x.skein requester.2
      (BitVec.ofNat 64 h.nonce) (plyWord (BitVec.ofNat 32 h.param)).fetch false b = (.reply a w, c)) :
    serveFrame x h p requester evs b = answerIn x a (givenValue w) c := by
  have hgood : ((plyWord (BitVec.ofNat 32 h.param)).fetch != (h.flits == 1)) = false := by
    rw [bne_eq_false_iff_eq, Bool.eq_iff_iff, hfetch, beq_iff_eq]
  obtain ⟨judge, hhidden⟩ := exists_eq (a' := hwJudge)
  unfold serveFrame
  rw [← hhidden] at hjudge ⊢
  dsimp only
  rw [hkind]
  refine (if_neg (by simp [hgood, hns])).trans ((if_pos hns).trans ?_)
  rw [hjudge]
  rfl

end

end

section
variable {kind si : Nat} {port : BitVec 8} {f p : Bytes} {evs : MemEvs} {s : Session} {h : Header} {b : Block}

/-- A request frame that its session carries is served. -/
theorem doFrame_served (hplain : kind ≠ 4 ∧ kind ≠ 6 ∧ kind ≠ 8)
    (hverified : weftVerified kind port.toNat 0 f b = some (si, s, h, p)) (hcarries : carries s h = true) :
    let i := inOf (some si) s.skein h 0 (takeFrame si port.toNat h b)
    doFrame kind port f evs b =
      serveFrame i.1 h p (requesterId s.peer.endpoint s.peer.channel, BitVec.ofNat 16 s.peer.bind) evs i.2 := by
  obtain ⟨hmcast, hmessage, hcoherence⟩ := hplain
  obtain ⟨hrecv, hkind, hfed⟩ := recvWeft_verified hverified (use := fun si s h p b =>
    if s.kind = 2 && (h.kind == 3 || h.kind == 5) then refuseIn si s h cInvalid b
    else if !carries s h then refuseIn si s h cNotPermitted b
    else
      let (x, b) := inOf (some si) s.skein h 0 b
      serveFrame x h p (requesterId s.peer.endpoint s.peer.channel, BitVec.ofNat 16 s.peer.bind) evs b)
  have hpair : s.kind ≠ 2 := kind_ne_group hcarries (hkind ▸ hmcast)
  rw [doFrame, if_neg (by simp [hfed]), if_neg hmcast, if_neg hmessage, if_neg hcoherence, doWeftRequest]
  exact hrecv.trans ((if_neg (by simp [hpair])).trans (if_neg (by simp [hcarries])))

/-- A multicast store is written as a plain write, and answered on the session with its sender. -/
theorem doFrame_mcast {q : Nat × Session} (hverified : weftVerified 4 port.toNat 0 f b = some (si, s, h, p)) (hgroup : s.kind = 2)
    (hpair : findSess 0 s.skein s.peer.member (takeFrame si port.toNat h b) = some q) (hparam : h.param = 0)
    (hbar : linesBar (inOf (some q.1) s.skein h 1 (takeFrame si port.toNat h b)).1 .write h.addr.toNat 0 0
      (inOf (some q.1) s.skein h 1 (takeFrame si port.toNat h b)).2 = none) :
    let x := inOf (some q.1) s.skein h 1 (takeFrame si port.toNat h b)
    doFrame 4 port f evs b = acceptLines x.1 .write h.addr.toNat fullMask [ofBytes 512 p] 0 0 evs x.2 := by
  obtain ⟨reply, hhidden⟩ := exists_eq (a' := replySess)
  have hreply : reply si s (takeFrame si port.toNat h b) = (q.1, takeFrame si port.toNat h b) := by
    rw [hhidden, replySess, if_neg (by simp [hgroup]), hpair]
  obtain ⟨hrecv, -, hfed⟩ := recvWeft_verified hverified (use := fun si s h p b =>
    if s.kind != 2 then refuseIn si s h cNotPermitted b
    else
      let (pair, b) := reply si s b
      let (x, b) := inOf (some pair) s.skein h 1 b
      if h.param != 0 then answerIn x cInvalid [] b
      else serveIn x .write h.addr.toNat fullMask [ofBytes 512 p] 0 0 evs b)
  rw [doFrame, if_neg (by simp [hfed]), if_pos rfl, doMcast, ← hhidden]
  refine hrecv.trans ((if_neg (by simp [hgroup])).trans ?_)
  rw [hreply]
  exact (if_neg (by simp [hparam])).trans (serveIn_accepts hbar)

/-- A message to a skein's mailbox is delivered, and its status answered. -/
theorem doFrame_message {mb : Mailbox} {a : BitVec 8} {c : Block} (hverified : weftVerified 6 port.toNat 0 f b = some (si, s, h, p))
    (hcarries : carries s h = true) (hmailbox : (getSkein s.skein (takeFrame si port.toNat h b)).bind (·.mailbox) = some mb)
    (hdeliver : deliver evs mb s h p (takeFrame si port.toNat h b) = (a, c)) : doFrame 6 port f evs b = refuseIn si s h a c := by
  obtain ⟨del, hhidden⟩ := exists_eq (a' := deliver)
  obtain ⟨hrecv, -, hfed⟩ := recvWeft_verified hverified (use := fun si s h p b =>
    if !carries s h then refuseIn si s h cNotPermitted b
    else match (getSkein s.skein b).bind (·.mailbox) with
      | none => refuseIn si s h cQuota b
      | some mb =>
        let (st, b) := del evs mb s h p b
        refuseIn si s h st b)
  rw [← hhidden] at hdeliver
  rw [doFrame, if_neg (by simp [hfed]), if_neg (by decide), if_pos rfl, doMessage, ← hhidden]
  refine hrecv.trans ((if_neg (by simp [hcarries])).trans ?_)
  rw [hmailbox]
  dsimp only
  rw [hdeliver]

/-- A group is opened at a free index. -/
theorem doGroupOpen_free {gi : Nat} (hgi : leField p 0 2 = gi) (hverified : weftVerified 0x23 port.toNat 0 f b = some (si, s, h, p))
    (hcarries : carries s h = true) (hpair : s.kind = 0) (hmin : 3968 ≤ gi) (hmax : gi < 4096)
    (hfree : (getSess gi (takeFrame si port.toNat h b)).isNone = true) (hroom : heldSess s.skein (takeFrame si port.toNat h b) < 1024) :
    let c := takeFrame si port.toNat h b
    doGroupOpen port.toNat f b =
      refuseIn si s h cOK (spoolFree 1 10 s.skein gi 0 (putSess gi (groupOf s gi (sliceBytes p 2 8) c) c)) := by
  obtain ⟨hrecv, -, hfed⟩ := recvWeft_verified hverified (use := fun si s h p b =>
    let gi := leField p 0 2
    if !carries s h || s.kind != 0 then refuseIn si s h cNotPermitted b
    else if gi < 3968 || 4096 ≤ gi then refuseIn si s h cInvalid b
    else
      if (getSess gi b).isSome || 1024 ≤ heldSess s.skein b then refuseIn si s h cQuota b
      else refuseIn si s h cOK (spoolFree 1 10 s.skein gi 0 (putSess gi (groupOf s gi (sliceBytes p 2 8) b) b)))
  rw [Option.isNone_iff_eq_none] at hfree
  rw [doGroupOpen, weftOnly_weft hfed]
  refine hrecv.trans ?_
  dsimp only
  rw [hgi, if_neg (by simp [hcarries, hpair]), if_neg (by simp [Nat.not_lt.2 hmin, Nat.not_le.2 hmax])]
  exact if_neg (by simp [hfree, Nat.not_le.2 hroom])

end

/-! ### Coherence -/

/-- Records and attention events leave the set-up registers. -/
theorem keptByEvents_regs (r : Regs) : KeptByEvents fun b => b.regs = r where
  tel _ _ hb := hb
  ring q f b hb := by cases q <;> exact hb
  view q f b hb := by cases q <;> exact hb
  ctrs _ _ _ _ hb := hb
  glob _ _ _ hb := hb
  missed hb := hb
  emit _ _ hb := hb
  array _ _ hb := hb
  unitId hb := hb
  stream _ _ _ _ hb := hb
  tdi _ _ hb := hb

@[simp] theorem takeFed_regs (port : Nat) (h : Header) (p : Bytes) (b : Block) : (takeFed port h p b).regs = b.regs := by
  have hk := keptByEvents_regs b.regs
  unfold takeFed
  refine hk.submitLink _ _ _ _ _ ?_
  split
  · exact hk.ctrs _ _ _ (hk.glob _ _ rfl)
  · exact hk.glob _ _ rfl

section
variable {port src : Nat} {f p : Bytes} {h : Header} {b : Block}

/-- A frame that verifies on a federation port is accepted and used. -/
theorem recvFed_verified {kind : Nat} {use : Nat → Header → Bytes → Block → Block} (hverified : fedVerified kind port f b = some (src, h, p)) :
    recvFed kind port f use b = use src h p (takeFed port h p b) ∧ h.kind = kind ∧ isFedPort port = true := by
  unfold fedVerified at hverified
  split at hverified
  case isTrue => cases hverified
  case isFalse hport =>
    simp only [Bool.or_eq_true, not_or] at hport
    obtain ⟨⟨hasleep, hup⟩, hfed⟩ := hport
    obtain ⟨fp, hget, hverified⟩ := Option.bind_eq_some_iff.1 hverified
    obtain ⟨h', hparse, hverified⟩ := Option.bind_eq_some_iff.1 hverified
    split at hverified
    case isTrue => cases hverified
    case isFalse hform =>
      simp only [Bool.or_eq_true, not_or] at hform
      obtain ⟨⟨⟨⟨⟨⟨⟨⟨⟨hknown, hset⟩, hmcast⟩, hcombined⟩, hmessage⟩, hkind⟩, hopenPort⟩, hsession⟩, hflits⟩, hns⟩ := hform
      obtain ⟨k, hkey, hverified⟩ := Option.bind_eq_some_iff.1 hverified
      obtain ⟨p', hopen, hverified⟩ := Option.bind_eq_some_iff.1 hverified
      split at hverified
      case isTrue => cases hverified
      case isFalse hreplay =>
        cases hverified
        refine ⟨?_, by simpa using hkind, by simpa using hfed⟩
        unfold recvFed
        rw [if_neg (by simp only [Bool.or_eq_true, not_or]; exact ⟨hasleep, hup⟩), hget, hparse]
        dsimp only
        rw [if_neg (by simp only [Bool.or_eq_true, not_or]; exact ⟨⟨⟨⟨hknown, hset⟩, hmcast⟩, hcombined⟩, hmessage⟩),
          if_neg (by simp only [Bool.or_eq_true, not_or]; exact ⟨hkind, hopenPort⟩),
          if_neg (by simp only [Bool.or_eq_true, not_or]; exact ⟨⟨hsession, hflits⟩, hns⟩), hkey]
        dsimp only
        rw [hopen]
        exact if_neg hreplay

end

section
variable {port : BitVec 8} {f : Bytes} {b : Block}

/-- A coherence frame for this die is presented. -/
theorem doCoherence_here {src : Nat} {p : Bytes} {h : Header} (hverified : fedVerified 8 port.toNat f b = some (src, h, p))
    (hdie : h.die = b.regs.dieIndex) : doCoherence port f none b = emit (.coherence p) (takeFed port.toNat h p b) := by
  obtain ⟨-, hkind, hfed⟩ := recvFed_verified hverified (use := fun _ _ _ b => b)
  rw [doCoherence, doFrame, if_pos hfed, doFed, (recvFed_verified hverified).1]
  exact (if_neg (by simp [hdie])).trans (if_pos hkind)

/-- One for another die goes out on the port toward it. -/
theorem doCoherence_out {die : BitVec 2} {slot : BitVec 6} {out : Nat} (hopen : closed b = false) (hlen : f.length ≤ 256)
    (hport : fedPortTo die.toNat b = some out) :
    doCoherence port f (some (die, slot)) b = (sendFed out die.toNat slot.toNat b.regs.dieIndex 8 none 0 0 0 f b).2 := by
  rw [doCoherence, if_neg (by simp [hopen, Nat.not_lt.2 hlen]), hport]

end

/-- Settles O35: each kind of request that verifies, and coherence. -/
theorem weftRequestsComplete : Obligations.WeftRequestsComplete := by
  unfold Obligations.WeftRequestsComplete
  intro port f evs st si s h p
  refine ⟨fun hv hcarries hmin hmax hbar => ?_, fun hv hcarries hbar => ?_, fun hv hcarries hfetch =>
      ⟨fun hns hplain hadd hcas hbar => ?_, fun o hns ho => ⟨fun happly hbar => ?_, fun a w hreply => ?_⟩⟩,
    fun hv hcarries hbar => ?_, fun a w c' hv hcarries hjudge => ?_, fun q hv hgroup hpair hparam hbar => ?_,
    fun mb a c' hv hcarries hmailbox hdeliver => ?_, fun hv hcarries hpair hmin hmax hfree hroom => ?_, fun src hv hdie => ?_,
    fun die slot out hopen hlen hout => ?_⟩
  · refine exec_fab (exec_weftRead ..) ((doFrame_served (by decide) hv hcarries).trans ?_)
    exact serveFrame_read (weftVerified_kind hv) hmin hmax hbar
  · refine exec_fab (exec_weftWrite ..) ((doFrame_served (by decide) hv hcarries).trans ?_)
    exact serveFrame_write (weftVerified_kind hv) hbar
  · refine exec_fab (exec_weftPly ..) ((doFrame_served (by decide) hv hcarries).trans ?_)
    exact serveFrame_plyPlain (weftVerified_kind hv) hfetch hns hplain hadd hcas hbar
  · refine exec_fab (exec_weftPly ..) ((doFrame_served (by decide) hv hcarries).trans ?_)
    exact serveFrame_plyApplied (weftVerified_kind hv) hfetch hns (ho.trans (Prod.ext happly rfl)) hbar
  · refine exec_fab (exec_weftPly ..) ((doFrame_served (by decide) hv hcarries).trans ?_)
    exact serveFrame_plyAnswered (weftVerified_kind hv) hfetch hns (ho.trans (Prod.ext hreply rfl))
  · refine exec_fab (exec_weftCombined ..) ((doFrame_served (by decide) hv hcarries).trans ?_)
    exact serveFrame_combined (weftVerified_kind hv) hbar
  · refine exec_fab (exec_weftResolve ..) ((doFrame_served (by decide) hv hcarries).trans ?_)
    exact serveFrame_resolve (weftVerified_kind hv) hjudge
  · exact exec_fab (exec_weftMcast ..) (doFrame_mcast hv hgroup hpair hparam hbar)
  · exact exec_fab (exec_weftMessage ..) (doFrame_message hv hcarries hmailbox hdeliver)
  · exact exec_fab (exec_weftGroupOpen ..) (doGroupOpen_free rfl hv hcarries hpair hmin hmax hfree hroom)
  · exact exec_fab (f := doCoherence port f none) (by rw [exec, execWeftCoherence]) (doCoherence_here hv hdie)
  · exact exec_fab (f := doCoherence port f (some (die, slot))) (by rw [exec, execWeftCoherence]) (doCoherence_out hopen hlen hout)

end Sys2Proof.Machine
end

section
/-! Replies of peers, and how sessions open, are accepted and close (R217 to R219, R223). -/

namespace Sys2Proof.Machine

section
variable {kind port origin si : Nat} {f p : Bytes} {s : Session} {h : Header} {b : Block}

/-- A reply to an outstanding request is used, and what waited goes on. -/
theorem doWeftReply_hit {r : OutReq} {c : Block} (hc : takeFrame si port h b = c)
    (hverified : weftVerified kind port origin f b = some (si, s, h, p))
    (hhit : (c.fab.out.find? fun r => r.session == some si && repliesTo kind r.kind && r.kind != 4 && r.nonce == some h.extra &&
      (kind != 0x11 || BitVec.ofNat 8 (h.param % 256) != cOK || h.flits == 2 * r.lines)) = some r) :
    doWeftReply kind port origin f b =
      pumpOut (useReply r (BitVec.ofNat 8 (h.param % 256)) p (h.flits != 0) (sampleTime 0x13 port c)) := by
  rw [doWeftReply, (recvWeft_verified hverified).1, hc]
  dsimp only
  rw [hhit]

end

/-- The command of a reply on a weft port uses it. -/
theorem doReply_hit {kind origin si : Nat} {port : BitVec 8} {f p : Bytes} {s : Session} {h : Header} {r : OutReq} {b c : Block}
    (hc : takeFrame si port.toNat h b = c) (hverified : weftVerified kind port.toNat origin f b = some (si, s, h, p))
    (hhit : (c.fab.out.find? fun r => r.session == some si && repliesTo kind r.kind && r.kind != 4 && r.nonce == some h.extra &&
      (kind != 0x11 || BitVec.ofNat 8 (h.param % 256) != cOK || h.flits == 2 * r.lines)) = some r) :
    doReply kind port origin f b =
      pumpOut (useReply r (BitVec.ofNat 8 (h.param % 256)) p (h.flits != 0) (sampleTime 0x13 port.toNat c)) := by
  obtain ⟨-, -, hfed⟩ := recvWeft_verified hverified (use := fun _ _ _ _ b => b)
  rw [doReply, if_neg (by simp [hfed]), doWeftReply_hit hc hverified hhit]

section
variable {port : Nat} {b : Block} (hasleep : asleep b = false) (hup : b.fab.up.contains port = true) (hfed : isFedPort port = false)
  (hport : port < b.row.weftPorts)
include hasleep hup hfed hport

/-- An OPEN meant for a skein of this block makes a half-open session. -/
theorem doOpen_ok {o a : OpenF} {t c n i : Nat} {ts : List Nat} {b₀ b₁ b₂ b₃ : Block} (hkind : o.kind < 2) (htargets : openTargets o b = t :: ts)
    (hchoice : choose (ts.length + 1) b = (c, b₁)) (hn : (t :: ts).getD c t = n) (htaken : openTaken n o b₁ = false)
    (hroom : heldSess n b₁ < 1024) (hlist : readMember [] n o.member b₁ = (cOK, b₀)) (hsess : takeSess (dropOldHalf b₀) = (some i, b₂))
    (hown : ownFields o.kind i n b₂ = some (a, b₃)) : doOpen port o b = halfOpen i n o a b₃ := by
  obtain ⟨member, hmember⟩ := exists_eq (a' := readMember)
  obtain ⟨take, htake⟩ := exists_eq (a' := takeSess)
  obtain ⟨own, hfields⟩ := exists_eq (a' := ownFields)
  rw [← hmember] at hlist
  rw [← htake] at hsess
  rw [← hfields] at hown
  rw [doOpen, ← hmember, ← htake, ← hfields, weftOnly_weft hfed]
  refine (if_neg (by simp only [hasleep, hup, Nat.not_le.2 hport, Nat.not_le.2 hkind]; decide)).trans ?_
  rw [htargets]
  dsimp only
  rw [hchoice]
  dsimp only
  rw [hn, if_neg (by simp [htaken, Nat.not_le.2 hroom]), hlist]
  dsimp only
  rw [if_neg (by simp), hsess]
  dsimp only
  rw [hown]

/-- An ACCEPT with the listed member's fields and the right tag makes an opening session live. -/
theorem doAccept_ok {session : Nat} {x : Session} {a : OpenF} {tag : BitVec 128} {b₀ : Block}
    (hlist : readMember [] x.skein x.peer.member b = (cOK, b₀)) (hsess : getSess session b = some x) (hopening : x.st = .opening)
    (hpair : x.kind ≠ 2) (hkind : a.kind = x.kind) (hlisted : acceptListed x a b = true) (htag : acceptTag session x a b = tag) :
    doAccept port session a tag b = pumpOut (flushReplies session (acceptSess session x a b₀)) := by
  obtain ⟨member, hmember⟩ := exists_eq (a' := readMember)
  rw [← hmember] at hlist
  rw [doAccept, ← hmember, weftOnly_weft hfed]
  refine (if_neg (by simp only [hasleep, hup, Nat.not_le.2 hport]; decide)).trans ?_
  rw [hsess]
  dsimp only
  rw [if_neg (by simp [hopening, hpair]), if_neg (by simp [hkind, hlisted, htag]), hlist]
  exact if_neg (by simp)

end

theorem doClose_verified {port si : Nat} {f p : Bytes} {s : Session} {h : Header} {b : Block}
    (hverified : weftVerified 0x22 port 0 f b = some (si, s, h, p)) :
    doClose port f b = pumpOut (endSess si cKeyRetired (takeFrame si port h b)) := by
  obtain ⟨hrecv, -, hfed⟩ := recvWeft_verified hverified (use := fun si _ _ _ b => pumpOut (endSess si cKeyRetired b))
  rw [doClose, weftOnly_weft hfed, hrecv]

/-- Settles O36: replies to outstanding requests, and the session frames where their conditions hold. -/
theorem weftAnswersComplete : Obligations.WeftAnswersComplete := by
  unfold Obligations.WeftAnswersComplete
  intro port f st si s h p r
  refine ⟨fun hv hhit => ?_, fun hv hhit => ?_, fun origin hv hhit => ?_,
    fun o a t ts i b₀ b₂ b₃ hasleep hup hfed hport hkind htargets htaken hroom hlist hsess hown => ?_,
    fun i a tag x b₀ hasleep hup hfed hport hlist hsess hopening hpair hkind hlisted htag => ?_, fun hv => ?_⟩
  · exact exec_fab (exec_weftReadResp ..) (doReply_hit rfl hv hhit)
  · exact exec_fab (exec_weftWriteResp ..) (doReply_hit rfl hv hhit)
  · exact exec_fab (exec_weftPlyResp ..) (doReply_hit rfl hv hhit)
  · exact exec_fab (f := doOpen port.toNat o) (by rw [exec, execWeftOpen])
      (doOpen_ok hasleep hup hfed hport hkind htargets rfl rfl htaken hroom hlist hsess hown)
  · exact exec_fab (f := doAccept port.toNat i.toNat a tag) (by rw [exec, execWeftAccept])
      (doAccept_ok hasleep hup hfed hport hlist hsess hopening hpair hkind hlisted htag)
  · exact exec_fab (exec_weftClose ..) (doClose_verified hv)

end Sys2Proof.Machine
end

section
/-! Timeouts, resends, losses and link events of the weft and the federation (R203, R204, R216, R218, R223, R230, R234, R237). -/

namespace Sys2Proof.Machine

/-! ### Outstanding requests -/

section
variable {id : Nat} {r : OutReq} {b : Block} (hfind : findOut id b = some r)
include hfind

theorem doRequestTimeout_due (hfirst : r.timedOut = false) (hdue : r.since + r.limit ≤ b.tick) (hsrc : r.src.isSome = true) :
    let c := setOut id (fun r => { r with timedOut := true }) (report r cTimeout [] b)
    let late := { r with timedOut := true }
    doRequestTimeout id b = if r.nonce.isNone then endReq late cAborted [] none c
      else if r.kind = 4 then pumpOut (recast late c) else if r.seqd then resend late c else c := by
  rw [doRequestTimeout, hfind]
  exact if_neg (by simpa [hfirst, Nat.not_lt.2 hdue, Option.isSome_iff_ne_none] using hsrc)

theorem doPlyResend_due (hseqd : r.seqd = true) (hsent : r.nonce.isSome = true) (hfirst : r.timedOut = false)
    (hdue : r.resume = true ∨ r.lastSent + 100 ≤ b.tick) :
    doPlyResend id b = (seqPeers r (fun x => !x.timedOut && (x.resume || decide (x.lastSent + 100 ≤ b.tick))) b).foldl (fun b x => resend x b) b := by
  rw [doPlyResend, hfind]
  exact if_pos (by simpa [hseqd, hsent, hfirst] using hdue)

theorem doResolveResend_due (hseqd : r.seqd = true) (hlate : r.timedOut = true) (hdue : r.lastSent + 100 ≤ b.tick) :
    doResolveResend id b = resend r b := by
  rw [doResolveResend, hfind]
  exact if_pos (by simp [hseqd, hlate, hdue])

end

/-! ### Sessions -/

section
variable {si : Nat} {x : Session} {b : Block} (hsess : getSess si b = some x)
include hsess

theorem doOpenTimeout_due (hst : x.st = .opening) (hpair : x.kind ≠ 2) (hdue : x.since + x.limit ≤ b.tick) :
    doOpenTimeout si b = endSess si cTimeout b := by
  rw [doOpenTimeout, hsess]
  exact if_neg (by simp [hst, hpair, Nat.not_lt.2 hdue])

theorem doSessionLoss_due {r : OutReq} (hst : x.st = .live) (houtstanding : argMin (·.since) (outOn si b) = some r)
    (hdue : lossDue x.lastRx x.loss r ≤ b.tick) : doSessionLoss si b = endSess si cKeyRetired b := by
  rw [doSessionLoss, hsess]
  dsimp only
  rw [houtstanding]
  exact if_neg (by simp [hst, Nat.not_lt.2 hdue])

theorem doSessionIdle_due (hst : x.st = .live) (hpair : x.kind ≠ 2) (hidle : sessBusy si x b = false) (hdue : x.lastFrame + 65536 ≤ b.tick) :
    doSessionIdle si b = closeSess si b := by
  rw [doSessionIdle, hsess]
  exact if_neg (by simp [hst, hpair, hidle, Nat.not_lt.2 hdue])

theorem doSecretClose_due {t : Nat} (hclose : x.closeBy = some t) (hready : sessBusy si x b = false ∨ t ≤ b.tick) :
    doSecretClose si b = pumpOut (closeSess si b) := by
  rw [doSecretClose, hsess]
  dsimp only
  rw [hclose]
  refine if_neg ?_
  obtain h | h := hready <;> simp [h]

end

/-! ### Links and the federation -/

theorem doLinkUp_down {port : Nat} {b : Block} (hdown : b.fab.up.contains port = false) (hport : port < b.row.weftPorts ∨ isFedPort port = true) :
    let c := setFab (fun x => { x with
      up := port :: x.up,
      out := x.out.map fun r => if r.seqd && r.nonce.isSome && (r.die.isSome == isFedPort port) then { r with resume := true } else r }) b
    doLinkUp port b = c.fab.sessions.foldl (fun b e => flushReplies e.1 b) c := by
  rw [doLinkUp]
  refine if_neg ?_
  simp only [hdown, Bool.false_or, Bool.not_eq_true', Bool.or_eq_false_iff, decide_eq_false_iff_not]
  obtain h | h := hport <;> simp [h]

theorem doFedPortLoss_due {port : Nat} {b : Block} {x : FedPort} {r : OutReq} (hget : getFed port b = some x) (hopen : x.isOpen = true)
    (houtstanding : argMin (·.since) (sentOn port b) = some r) (hdue : lossDue x.lastRx x.loss r ≤ b.tick) :
    doFedPortLoss port b = loseDie port b := by
  rw [doFedPortLoss, hget]
  dsimp only
  rw [houtstanding]
  exact if_neg (by simp [hopen, Nat.not_lt.2 hdue])

theorem doBringup_bound {die : Nat} {device : BitVec 128} {key : Key} {rands : BitVec 512} {list : List (Nat × Option Nat)}
    {binds : List (Nat × Nat)} {b : Block} (hbrings : bringsUp die b = true) (hbound : b.fab.binding.contains device = true) :
    let c := joinDie die device key rands list binds b
    doBringup die device true key rands list binds b =
      pumpOut (fedStatusSync (setRegs (fun r => { r with fedStatus := setBits r.fedStatus 0 0 1 }) c)) := by
  rw [doBringup, if_neg (by simp [hbrings])]
  exact if_neg (by simp only [hbound]; decide)

/-- Settles O37: each event of the weft and the federation where its condition holds. -/
theorem weftEventsComplete : Obligations.WeftEventsComplete := by
  unfold Obligations.WeftEventsComplete
  intro s b
  refine ⟨fun req r hfind hfirst hdue hsrc => ?_, fun req r hfind hseqd hsent hfirst hdue => ?_, fun req r hfind hseqd hlate hdue => ?_,
    fun i x hsess => ⟨fun hst hpair hdue => ?_, fun r hst hout hdue => ?_, fun hst hpair hidle hdue => ?_, fun t hclose hready => ?_⟩,
    fun port => ?_, fun port hdown hport => ?_, fun port x r hget hopen hout hdue => ?_,
    fun die device key rands list binds hbrings hbound => ?_⟩
  · exact exec_fab (f := doRequestTimeout req.toNat) (by rw [exec, execRequestTimeout]) (doRequestTimeout_due hfind hfirst hdue hsrc)
  · exact exec_fab (f := doPlyResend req.toNat) (by rw [exec, execPlyResend]) (doPlyResend_due hfind hseqd hsent hfirst hdue)
  · exact exec_fab (f := doResolveResend req.toNat) (by rw [exec, execResolveResend]) (doResolveResend_due hfind hseqd hlate hdue)
  · exact exec_fab (f := doOpenTimeout i.toNat) (by rw [exec, execOpenTimeout]) (doOpenTimeout_due hsess hst hpair hdue)
  · exact exec_fab (f := doSessionLoss i.toNat) (by rw [exec, execSessionLoss]) (doSessionLoss_due hsess hst hout hdue)
  · exact exec_fab (f := doSessionIdle i.toNat) (by rw [exec, execSessionIdle]) (doSessionIdle_due hsess hst hpair hidle hdue)
  · exact exec_fab (f := doSecretClose i.toNat) (by rw [exec, execSecretClose]) (doSecretClose_due hsess hclose hready)
  · exact exec_fab (f := doLinkDown port.toNat) (by rw [exec, execLinkDown]) (by rw [doLinkDown])
  · exact exec_fab (f := doLinkUp port.toNat) (by rw [exec, execLinkUp]) (doLinkUp_down hdown hport)
  · exact exec_fab (f := doFedPortLoss port.toNat) (by rw [exec, execFederationPortLoss]) (doFedPortLoss_due hget hopen hout hdue)
  · exact exec_fab (f := doBringup die.toNat device true key rands list binds) (by rw [exec, execFederationBringup])
      (doBringup_bound hbrings hbound)

end Sys2Proof.Machine
end

section
/-! Sweeps of the stores, the firmware's watchdog, the controller's restart and hanging units (R400 to R410). -/

namespace Sys2Proof.Machine

section
variable {b : Block} (hstarted : b.dst.started = true) (hasleep : asleep b = false) (hhalted : b.fwHalted = false)
  (hrestart : b.fwRestart = none) (hlate : b.fwKick + 10000 ≤ b.tick)
include hstarted hasleep hhalted hrestart hlate

/-- A watchdog that expires again within 1,000,000 ticks makes a block reset due. -/
theorem doWatchdog_again {t : Nat} (hexpiry : b.fwExpiry = some t) (hsoon : b.tick < t + 1000000) :
    doWatchdog b = dueReset b.tick 3 (setDistaff (fun d => { d with stalled := 0x16 }) { b with fwExpiry := some b.tick }) := by
  rw [doWatchdog, if_neg (by simp [hstarted, hasleep, hhalted, hrestart, Nat.not_lt.2 hlate]), hexpiry]
  exact if_pos (by simpa using hsoon)

theorem doWatchdog_first (hlong : ∀ t, b.fwExpiry = some t → t + 1000000 ≤ b.tick) :
    doWatchdog b = beginRestart { b with fwExpiry := some b.tick } := by
  rw [doWatchdog, if_neg (by simp [hstarted, hasleep, hhalted, hrestart, Nat.not_lt.2 hlate])]
  cases hexpiry : b.fwExpiry with
  | none => exact if_neg (by simp)
  | some t => exact if_neg (by simpa using hlong t hexpiry)

end

section
variable {b : Block}

/-- The end of the controller's restart, in the block in which its firmware runs again. -/
def restartEnds (c : Block) : Block :=
  raiseViews { cls := 5 } (spoolFree 1 4 ownBlock 8 1 (setDst 10 false { c with fwRestart := none, fwKick := c.tick }))

/-- The restart ends with the running bank where it passes, else with the previous one where that passes, else goes on. -/
theorem doRestartDone_running (hrestart : b.fwRestart.isSome = true) :
    let back := { otherBank b with st := 4 }
    doRestartDone b =
      if imageReason (running b).img b = 0 then restartEnds b
      else if (otherBank b).st = 5 ∧ imageReason (otherBank b).img b = 0 then
        restartEnds (deriveCdi1 (setDistaff (fun d =>
          if runsB b then { d with bankB := {}, bankA := back } else { d with bankA := {}, bankB := back }) b))
      else b := by
  intro back
  rw [doRestartDone, if_neg (by simpa [Option.isSome_iff_ne_none] using hrestart)]
  by_cases hgood : imageReason (running b).img b = 0
  · rw [if_pos hgood]
    refine (if_neg (by simp [hgood])).trans (congrArg restartEnds ?_)
    exact if_pos (by simp [hgood])
  · rw [if_neg hgood]
    by_cases hback : (otherBank b).st = 5 ∧ imageReason (otherBank b).img b = 0
    · rw [if_pos hback]
      refine (if_neg (by simp [hback])).trans (congrArg restartEnds ?_)
      refine (if_neg (by simp [hgood])).trans ?_
      cases runsB b <;> rfl
    · rw [if_neg hback]
      exact if_pos (by simpa [hgood] using Decidable.not_and_iff_or_not.1 hback)

theorem doRestartTimeout_due {t : Nat} (hrestart : b.fwRestart = some t) (hdue : t + 5000 ≤ b.tick) :
    doRestartTimeout b = dueReset b.tick 3 (setDistaff (fun d => { d with stalled := 0x16 }) b) := by
  rw [doRestartTimeout, hrestart]
  exact if_neg (Nat.not_lt.2 hdue)

theorem doUnitHang_hung {unit : Nat} (hasleep : asleep b = false) (hhung : unitHung unit b = true) :
    doUnitHang unit b = dueReset b.tick 1 (setDistaff (fun d => { d with stalled := unit }) b) := by
  rw [doUnitHang]
  exact if_neg (by simp [hasleep, hhung])

end

/-- Settles O38: each fault event where its condition holds. -/
theorem faultEventsComplete : Obligations.FaultEventsComplete := by
  unfold Obligations.FaultEventsComplete
  intro s b
  refine ⟨fun errs => ?_, fun hstarted hasleep hhalted hrestart hlate => ⟨fun t hexpiry hsoon => ?_, fun hlong => ?_⟩, fun hrestart => ?_,
    fun t hrestart hdue => ?_, fun unit hasleep hhung => ?_⟩
  · exact exec_settled (f := doEccSweep errs) (by rw [exec, execEccSweep]) (by rw [doEccSweep])
  · exact exec_settled (f := doWatchdog) (by rw [exec, execFirmwareWatchdogExpiry])
      (doWatchdog_again hstarted hasleep hhalted hrestart hlate hexpiry hsoon)
  · exact exec_settled (f := doWatchdog) (by rw [exec, execFirmwareWatchdogExpiry])
      (doWatchdog_first hstarted hasleep hhalted hrestart hlate hlong)
  · exact exec_settled (f := doRestartDone) (by rw [exec, execControllerRestartDone]) (doRestartDone_running hrestart)
  · exact exec_settled (f := doRestartTimeout) (by rw [exec, execControllerRestartTimeout]) (doRestartTimeout_due hrestart hdue)
  · exact exec_block (f := doUnitHang unit.toNat) (by rw [exec, execUnitHang]) (doUnitHang_hung hasleep hhung)

end Sys2Proof.Machine
end

section
/-! Steals, comparisons of re-spins, suspect sweeps and hangs of the whorl array (R150 to R158, R401 to R404). -/

namespace Sys2Proof.Machine

section
variable {b : Block}

theorem doSteal_victim {sp v : Nat} (hin : spindleIn sp b = true) (hqueue : queueOf sp b = []) (hstart : startersOf sp b ≠ [])
    (hvictim : stealVictim sp b = some v) : doSteal sp b = stealFrom sp v (stealTurn sp b) := by
  rw [doSteal, if_neg (by simpa [hin, hqueue] using hstart), hvictim]

section
variable {p c t : Nat} {rp rc rt : Block128} {k : Check} (hcheck : checkOf p c b = some k)
include hcheck

theorem doRespin_equal (heq : rp = rc) : doRespin p c t rp rc rt b = endCheck k b := by
  rw [doRespin, hcheck]
  exact if_pos heq

/-- Different results are judged by a third whorl of a third spindle. -/
theorem doRespin_different (hne : rp ≠ rc) (hthird : thirdOk p c t b = true) :
    doRespin p c t rp rc rt b = settleSuspects (respinCaught p c t (rt != rp) (rt != rc) (endCheck k b)) := by
  rw [doRespin, hcheck]
  exact (if_neg hne).trans (if_pos hthird)

end

theorem doSweepEnd_oldest {evs : MemEvs} {x : Sweep} {xs : List Sweep} (hsweeps : b.wh.sweeps = x :: xs) :
    let j := sweepSet evs x.entries (setWh (fun w => { w with sweeps := xs }) b)
    doSweepEnd evs b = settleSuspects (endSweep x j.1 j.2) := by
  obtain ⟨judge, hjudge⟩ := exists_eq (a' := sweepSet)
  rw [doSweepEnd, ← hjudge, hsweeps]

theorem doWhorlHang_hung {w : Nat} (hhung : whorlHung w b = true) :
    let c := setWh (fun x => { x with lastHang := amSet w b.tick x.lastHang }) b
    doWhorlHang w b = settleSuspects (if hungBefore w b then hangAgain w c else resetWhorl w c) := by
  rw [doWhorlHang]
  exact if_neg (by simp [hhung])

section
variable {w : Nat} {u : UReset} (hfind : (b.wh.resetWhorls.find? fun u => u.index == w) = some u)
include hfind

/-- A whorl that passes its reset's test returns, with a record. -/
theorem doWhorlResetDone_pass : doWhorlResetDone w true b = hangRecord 2 2 w u.replayed
    (setWh (fun x => { x with resetWhorls := x.resetWhorls.filter fun u => u.index != w }) b) := by
  rw [doWhorlResetDone, hfind]
  rfl

theorem doWhorlResetDone_fail : doWhorlResetDone w false b = settleSuspects (beginSweep
    { kind := 2, whorl := w, entries := [], replayed := u.replayed, incomplete := false, slots := 0 }
    (setWh (fun x => { x with resetWhorls := x.resetWhorls.filter fun u => u.index != w }) b)) := by
  rw [doWhorlResetDone, hfind]
  rfl

theorem doWhorlResetTimeout_due (hdue : u.since + 50 ≤ b.tick) : doWhorlResetTimeout w b = hangRecord 2 3 w u.replayed
    (retireWhorls [w] (setWh (fun x => { x with resetWhorls := x.resetWhorls.filter fun u => u.index != w }) b)) := by
  rw [doWhorlResetTimeout, hfind]
  exact if_neg (Nat.not_lt.2 hdue)

end

theorem doSpindleHang_hung {sp : Nat} (hhung : spindleHung sp b = true) : doSpindleHang sp b = settleSuspects (resetSpindle sp b) := by
  rw [doSpindleHang, if_pos hhung]

section
variable {sp : Nat} {u : UReset}

theorem doSpindleResetDone_found (hfind : (b.wh.resetSpindles.find? fun u => u.index == sp) = some u) :
    doSpindleResetDone sp b = hangRecord 3 4 sp u.replayed
      (setWh (fun x => { x with resetSpindles := x.resetSpindles.filter fun u => u.index != sp }) b) := by
  rw [doSpindleResetDone, hfind]

theorem doSpindleResetTimeout_due (hfind : (b.wh.resetSpindles.find? fun u => u.index == sp) = some u) (hdue : u.since + 50 ≤ b.tick) :
    doSpindleResetTimeout sp b = isolateSpindle u b := by
  rw [doSpindleResetTimeout, hfind]
  exact if_neg (Nat.not_lt.2 hdue)

theorem doIsolationTimeout_due (hfind : (b.wh.isolating.find? fun u => u.index == sp) = some u) (hdue : u.since + 50 ≤ b.tick) :
    doIsolationTimeout sp b = dueReset b.tick 2 (setDistaff (fun d => { d with stalled := 4 }) b) := by
  rw [doIsolationTimeout, hfind]
  exact if_neg (Nat.not_lt.2 hdue)

end

end

/-- Settles O39: each event of the whorl array where its condition holds. -/
theorem whorlEventsComplete : Obligations.WhorlEventsComplete := by
  unfold Obligations.WhorlEventsComplete
  intro s b dropW
  refine ⟨fun sp v hin hqueue hstart hvictim => ?_, fun p c t rp rc rt k hcheck => ⟨fun heq => ?_, fun hne hthird => ?_⟩,
    fun evs x xs hsweeps => ?_, fun w hhung => ?_, fun w u hfind => ⟨?_, ?_, fun hdue => ?_⟩, fun sp hhung => ?_,
    fun sp u hfind => ⟨?_, fun hdue => ?_⟩, fun sp u hfind hdue => ?_⟩
  · exact exec_block (f := doSteal sp.toNat) (by rw [exec, execStealRequest]) (doSteal_victim hin hqueue hstart hvictim)
  · exact exec_settled (f := doRespin p.toNat c.toNat t.toNat rp rc rt) (by rw [exec, execRespinCompare]) (doRespin_equal hcheck heq)
  · exact exec_settled (f := doRespin p.toNat c.toNat t.toNat rp rc rt) (by rw [exec, execRespinCompare])
      (doRespin_different hcheck hne hthird)
  · exact exec_settled (f := doSweepEnd evs) (by rw [exec, execSuspectSweepEnd]) (doSweepEnd_oldest hsweeps)
  · exact exec_settled (f := doWhorlHang w.toNat) (by rw [exec, execWhorlHang]) (doWhorlHang_hung hhung)
  · exact exec_settled (f := doWhorlResetDone w.toNat true) (by rw [exec, execWhorlResetDone]) (doWhorlResetDone_pass hfind)
  · exact exec_settled (f := doWhorlResetDone w.toNat false) (by rw [exec, execWhorlResetDone]) (doWhorlResetDone_fail hfind)
  · exact exec_settled (f := doWhorlResetTimeout w.toNat) (by rw [exec, execWhorlResetTimeout]) (doWhorlResetTimeout_due hfind hdue)
  · exact exec_settled (f := doSpindleHang sp.toNat) (by rw [exec, execSpindleHang]) (doSpindleHang_hung hhung)
  · exact exec_settled (f := doSpindleResetDone sp.toNat) (by rw [exec, execSpindleResetDone]) (doSpindleResetDone_found hfind)
  · exact exec_settled (f := doSpindleResetTimeout sp.toNat) (by rw [exec, execSpindleResetTimeout]) (doSpindleResetTimeout_due hfind hdue)
  · exact exec_settled (f := doIsolationTimeout sp.toNat) (by rw [exec, execSpindleIsolationTimeout]) (doIsolationTimeout_due hfind hdue)

end Sys2Proof.Machine
end

section
/-! Field tests and group 0x60 (R417 to R430). -/

namespace Sys2Proof.Machine

/-- The end of the oldest test: its engines are judged, and its record and completion follow. -/
theorem doTestEnd_oldest {failed : List Nat} {vectors : BitVec 32} {evs : MemEvs} {b c : Block} {x : FieldTest} {xs : List FieldTest}
    (htests : b.dst.tests = x :: xs) (hbegun : x.begun = true) (htodo : x.todo = [])
    (hc : backFromTest b.wh.testing (setDistaff (fun d => { d with tests := xs }) b) = c) :
    let e := enginesOf x.scope x.index c
    let bad (code i : Nat) : Bool := failed.contains (unitCode code i)
    let j := judgeTest x bad c
    let l := sweepSet evs j.1.entries j.2
    let f := if x.fault = 0 then takeFaultId l.2 else (x.fault, l.2)
    doTestEnd failed vectors evs b =
      settleSuspects (closeTest x (e.lanes.filter (bad 9)) j.1 l.1 f.1 (testResult e bad j.1 f.1 vectors.toNat) f.2) := by
  obtain ⟨judge, hjudge⟩ := exists_eq (a' := judgeTest)
  obtain ⟨sweep, hsweep⟩ := exists_eq (a' := sweepSet)
  rw [doTestEnd, ← hjudge, ← hsweep, htests]
  dsimp only
  rw [if_neg (by simp [hbegun, htodo]), hc]

section
variable {p : Nat} {sess : BitVec 32} {msg : Bytes} {b : Block}

theorem doPackWrite_served {off len : Nat} (hoff : leField msg 4 4 = off) (hlen : leField msg 8 2 = len)
    (h : groupServed .operator 0x60 1 p sess msg (16 + len)
      (len = 0 || decide (4096 < len) || decide (262144 < off + len) || !restZero msg 10 16) b = true) :
    doPackWrite p sess msg b = groupStatus p 0x60 1 cOK
      (setDistaff (fun d => { d with staging := some (sess, patchBytes (stagingOf sess b) off (msg.drop 16)) }) b) := by
  have hbad := groupServed_not_bad h
  simp only [Bool.or_eq_false_iff, decide_eq_false_iff_not] at hbad
  obtain ⟨⟨⟨-, hmost⟩, -⟩, -⟩ := hbad
  rw [doPackWrite, hoff, hlen, groupOp_served (by omega) h]

/-- A staged pack is stored where it passes its checks, and the first check's status answered otherwise. -/
theorem doPackCommit_served {img : Bytes} (himg : stagingOf sess b = img)
    (h : groupServed .operator 0x60 2 p sess msg 5 (decide (1 < leField msg 4 1)) b = true) :
    doPackCommit p sess msg b = if packStatus img b = cOK then
        groupAnswer p 0x60 2 cOK (zeroBytes 3 ++ leBytes 4 (leField img 4 4)) (storePack img (leField msg 4 1 == 1) b)
      else groupStatus p 0x60 2 (packStatus img b) b := by
  rw [doPackCommit, groupOp_served (by omega) h]
  dsimp only
  rw [himg]
  by_cases hok : packStatus img b = cOK
  · exact (if_neg (by simp [hok])).trans (if_pos hok).symm
  · exact (if_pos (by simpa using hok)).trans (if_neg hok).symm

theorem doPackDrop_held {id : Nat} (hid : leField msg 4 4 = id) (h : groupServed .operator 0x60 3 p sess msg 8 false b = true)
    (hheld : (b.dst.packs.any fun p => p.id == id) = true) :
    doPackDrop p sess msg b = groupStatus p 0x60 3 cOK (setDistaff (fun d => { d with packs := d.packs.filter fun p => p.id != id }) b) := by
  rw [doPackDrop, hid, groupOp_served (by omega) h]
  exact if_pos hheld

theorem doFtRun_ok (h : groupServed .operator 0x60 4 p sess msg 12 (decide (5 < leField msg 4 1) || leField msg 5 1 != 0) b = true)
    (hindex : testIndexOk (leField msg 4 1) (leField msg 6 2) b = true) (hpack : packOk (leField msg 8 4) false b = true) :
    doFtRun p sess msg b = groupAnswer p 0x60 4 cOK (zeroBytes 3 ++ leBytes 4 (takeFaultId b).1) (addTest
      { desc := none, scope := leField msg 4 1, index := leField msg 6 2, pack := leField msg 8 4, fault := (takeFaultId b).1 }
      (takeFaultId b).2) := by
  rw [doFtRun, groupOp_served (by omega) h]
  exact (if_neg (by simp [hindex])).trans (if_neg (by simp [hpack]))

theorem doFaultRead_held {w : BitVec 1024} (h : groupServed .operator 0x60 5 p sess msg 8 false b = true)
    (hheld : faultHeld (leField msg 4 4) b = some w) :
    doFaultRead p sess msg b = groupAnswer p 0x60 5 cOK (zeroBytes 3 ++ toBytes 128 w) b := by
  rw [doFaultRead, groupOp_served (by omega) h, hheld]

section
variable {w : BitVec 1024} {evs : MemEvs} (h : groupServed .operator 0x60 6 p sess msg 12 (leField msg 8 4 % 4096 != 0) b = true)
  (hheld : faultHeld (leField msg 4 4) b = some w)
include h hheld

theorem doFaultList_empty (hempty : fieldAt w 40 4 = 0) : doFaultList p sess msg evs b = groupAnswer p 0x60 6 cOK (zeroBytes 11) b := by
  obtain ⟨read, hread⟩ := exists_eq (a' := readExtent)
  rw [doFaultList, ← hread, groupOp_served (by omega) h, hheld]
  dsimp only
  rw [if_pos (by omega), List.take_nil, List.drop_nil, List.take_nil, List.append_nil]

/-- The part asked for of a record's list. -/
theorem doFaultList_part {e : Extent} {xs : List Line} {c : Block} (hsome : fieldAt w 40 4 ≠ 0)
    (hextent : findExtent (.fault (leField msg 4 4)) b = some e) (hlines : readExtent evs e b = (.ok xs, c)) :
    doFaultList p sess msg evs b = groupAnswer p 0x60 6 cOK
      (zeroBytes 11 ++ (((lineBytes xs).take (16 * fieldAt w 40 4)).drop (leField msg 8 4)).take 4096) c := by
  obtain ⟨read, hread⟩ := exists_eq (a' := readExtent)
  rw [← hread] at hlines
  rw [doFaultList, ← hread, groupOp_served (by omega) h, hheld]
  dsimp only
  rw [if_neg (by omega), hextent]
  dsimp only
  rw [hlines]

end

theorem doLaneSet_served {lane : Nat} (hlane : leField msg 4 1 = lane)
    (h : groupServed .operator 0x60 7 p sess msg 6 (decide (b.row.stackCount ≤ lane) || decide (1 < leField msg 5 1)) b = true) :
    doLaneSet p sess msg b = groupStatus p 0x60 7 cOK (setDistaff (fun d => { d with
      lanesOff := if leField msg 5 1 = 1 then d.lanesOff.filter (· != lane) else lane :: d.lanesOff.filter (· != lane) }) b) := by
  rw [doLaneSet, hlane, groupOp_served (by omega) h]

theorem doBlockReset_served (h : groupServed .operator 0x60 8 p sess msg 4 false b = true) :
    doBlockReset p sess msg b = groupStatus p 0x60 8 cOK (dueReset (b.tick + 10000) 4 b) := by
  rw [doBlockReset, groupOp_served (by omega) h]

end

/-- Settles O40: field tests, and each operation of group 0x60 that is served. -/
theorem fieldTestsComplete : Obligations.FieldTestsComplete := by
  unfold Obligations.FieldTestsComplete
  refine ⟨fun r d s hrun => ?_, fun s failed vectors evs x xs htests hbegun htodo => ?_, fun path sess msg s =>
    ⟨fun h => ?_, fun h => ?_, fun h hheld => ?_, fun h hindex hpack => ?_, fun w h hheld => ?_,
      fun w evs h hheld => ⟨fun hempty => ?_, fun e xs c hsome hextent hlines => ?_⟩, fun h => ?_, fun h => ?_⟩⟩
  · exact exec_desc hrun (f := doFieldTest r d) (by rw [exec, execFieldTest]) (by rw [doFieldTest]) rfl
  · exact exec_settled (f := doTestEnd failed vectors evs) (by rw [exec, execFieldTestEnd]) (doTestEnd_oldest htests hbegun htodo rfl)
  · exact exec_block (f := doPackWrite path.toNat sess msg) (by rw [exec, execPackWrite]) (doPackWrite_served rfl rfl h)
  · exact exec_block (f := doPackCommit path.toNat sess msg) (by rw [exec, execPackCommit]) (doPackCommit_served rfl h)
  · exact exec_block (f := doPackDrop path.toNat sess msg) (by rw [exec, execPackDrop]) (doPackDrop_held rfl h hheld)
  · exact exec_block (f := doFtRun path.toNat sess msg) (by rw [exec, execFtRun]) (doFtRun_ok h hindex hpack)
  · exact exec_block (f := doFaultRead path.toNat sess msg) (by rw [exec, execFaultRead]) (doFaultRead_held h hheld)
  · exact exec_block (f := doFaultList path.toNat sess msg evs) (by rw [exec, execFaultList]) (doFaultList_empty h hheld hempty)
  · exact exec_block (f := doFaultList path.toNat sess msg evs) (by rw [exec, execFaultList])
      (doFaultList_part h hheld hsome hextent hlines)
  · exact exec_block (f := doLaneSet path.toNat sess msg) (by rw [exec, execLaneSet]) (doLaneSet_served rfl h)
  · exact exec_block (f := doBlockReset path.toNat sess msg) (by rw [exec, execBlockReset]) (doBlockReset_served h)

end Sys2Proof.Machine
end

section
/-! ## START, the supplies, REST, OFF and the wakes (14_supplies_power_time, 04_epoch_boot_and_sealing): O41 -/
namespace Sys2Proof.Machine

variable {b : Block} {src : WakeSource}

/-! ### Starts and block resets -/

theorem doStart_starts {a : StartIn} (h : startsNow a b = true) :
    let c := setTim (fun t => { t with t := 0 }) (if b.pwr.st = .off then clearVolatile b else b)
    let tries := regenerate 8 a.races (readOtp a c)
    doStart a b = startEnds a (startSecrets a tries.2 (startLoads a tries.1 c)) := by
  rw [doStart]
  exact if_neg (by simp [h])

theorem doResetEdge_due {at' : Nat} {cause : Nat} (hdue : b.dst.resetDue = some (at', cause)) (hat : at' ≤ b.tick)
    (hstarted : b.dst.started = true) (hst : b.pwr.st ≠ .off) : doResetEdge b = resetBlock cause b := by
  rw [doResetEdge, hdue]
  exact if_neg (by simp [hat, hstarted, hst])

/-! ### The supplies -/

theorem doMainLost_good (h : b.pwr.mainGood = true) :
    doMainLost b = if b.pwr.backupGood then switchOver true (setPwr (fun p => { p with mainGood := false }) b) else bothLost b := by
  rw [doMainLost, if_neg (by simp [h])]
  cases b.pwr.backupGood <;> rfl

theorem doMainRestored_onBackup (hmain : b.pwr.mainGood = false) (hback : b.pwr.onBackup = true) :
    doMainRestored b = switchOver false (setPwr (fun p => { p with mainGood := true }) b) := by
  rw [doMainRestored]
  exact (if_neg (by simp [hmain])).trans (if_pos hback)

theorem doBackupLost_good (h : b.pwr.backupGood = true) :
    doBackupLost b = if b.pwr.mainGood then setPwr (fun p => { p with backupGood := false }) b else bothLost b := by
  rw [doBackupLost, if_neg (by simp [h])]
  cases b.pwr.mainGood <;> rfl

theorem doCoreLoss_powered (hst : b.pwr.st ≠ .off) (hcore : b.pwr.coreOn = true) :
    doCoreLoss b = setPwr (fun p => { p with
      st := .active, coreOn := false, nextStart := some 4, heldEv := p.heldEv ++ [(6, 0)] }) (clearVolatile b) := by
  rw [doCoreLoss]
  exact if_neg (by simp [hst, hcore])

theorem doBrownOut_lowPower {kept : Bool} (hst : b.pwr.st ≠ .active) :
    let left := if kept then setHost (fun h => { h with i3c := { h.i3c with da := b.host.i3c.da } }) (clearVolatile b) else loseRetention b
    let st : PState := if b.pwr.st = .off then .off else .active
    doBrownOut kept b = setPwr (fun p => { p with
      st := st, nextStart := some 3, heldEv := p.heldEv ++ [(6, 0)], wakeReq := false }) left := by
  rw [doBrownOut]
  exact if_neg hst

/-! ### REST and OFF -/

theorem doRequest_entry {req : Nat} {q : Tgt} {evs : MemEvs} {v : BitVec 64} (hreg : isReg q 0x500 false = true)
    (hv : writeValue q b = some v) (hhon : writesHonoured 0x500 b = true) (hreq : bitField v 1 0 = req) (hnot : req + req ≠ 3)
    (hnone : refuser (req == 2) b = none) : doRequest req q evs b = beginEntry req evs (answerWrite b) := by
  rw [doRequest, if_neg (by simp [hreg]), hv]
  dsimp only
  rw [if_neg (by rw [hreq]; exact hnot), if_neg (by simp [hreq, hhon]), hnone]

/-! ### The wakes -/

/-- An I3C wake needs the target's dynamic address; outside the active state its header is not acknowledged. -/
theorem doWake_wakes (hda : src = .i3c → b.host.i3c.da.isSome = true) :
    doWake src b = wake src (if src = .i3c ∧ b.pwr.st ≠ .active then emit (.i3cNack (b.host.i3c.da.getD 0)) b else b) := by
  rw [doWake.eq_def]
  cases src with
  | i3c =>
    obtain ⟨a, ha⟩ := Option.isSome_iff_exists.mp (hda rfl)
    rw [ha]
    by_cases hst : b.pwr.st = .active <;> simp [hst]
  | alarm => simp
  | doorbell n => simp

theorem wake_entering {req : Nat} (hst : b.pwr.st = .active) (hentry : b.pwr.entry = some req) :
    wake src b = abortEntry src req b := by
  rw [wake.eq_def, hst, hentry]

theorem wake_active (hst : b.pwr.st = .active) (hentry : b.pwr.entry = none) : wake src b = b := by
  rw [wake.eq_def, hst, hentry]

theorem wake_rest (hst : b.pwr.st = .rest) : wake src b = endRest b := by
  rw [wake.eq_def, hst]

theorem wake_off (hst : b.pwr.st = .off) (hsrc : ∀ n, src ≠ .doorbell n) :
    wake src b = setPwr (fun p => { p with wakeReq := true }) b := by
  rw [wake.eq_def, hst]
  cases src with
  | i3c => rfl
  | alarm => rfl
  | doorbell n => exact absurd rfl (hsrc n)

theorem nacked_pwr {p : Prop} [Decidable p] {o : Output} : (if p then emit o b else b).pwr = b.pwr := by
  split <;> rfl

theorem doAlarm_active (hdue : alarmDue b = true) (hst : b.pwr.st = .active) (hentry : b.pwr.entry = none) :
    doAlarm b = raiseBlock 7 0 (spoolFree 1 3 ownBlock 8 0 (setRegs (fun r => { r with timAlarm := 0 }) b)) := by
  rw [doAlarm, if_neg (by simp [hdue]), if_pos hst, wake_active hst hentry, alarmActs, if_neg (by simp [hdue])]

theorem doAlarm_lowPower (hdue : alarmDue b = true) (hst : b.pwr.st ≠ .active) :
    doAlarm b = wake .alarm (spoolFree 1 3 ownBlock 8 0 (setRegs (fun r => { r with timAlarm := 0 }) b)) := by
  rw [doAlarm, if_neg (by simp [hdue]), if_neg hst]

/-- Settles O41: a lemma for each command about the function of the model that its arm runs, under the clause's premises. -/
theorem startAndPowerComplete : Obligations.StartAndPowerComplete := by
  unfold Obligations.StartAndPowerComplete
  intro s b
  refine ⟨fun a h => ?_, fun at' cause hdue hat hstarted hst => ?_, fun h => ?_, fun hmain hback => ?_, fun h => ?_, fun hst hcore => ?_,
    fun kept hst => ?_, fun q evs v hopen hreg hv hhon => ⟨fun hreq hnone => ?_, fun hreq hnone => ?_⟩, ?_,
    fun hdue => ⟨fun hst hentry => ?_, fun hst => ?_⟩⟩
  · exact exec_settled (f := doStart a) (by rw [exec, execStart]) (doStart_starts h)
  · exact exec_block (f := doResetEdge) (by rw [exec, execBlockResetEdge]) (doResetEdge_due hdue hat hstarted hst)
  · exact exec_block (f := doMainLost) (by rw [exec, execVaoMainLost]) (doMainLost_good h)
  · exact exec_block (f := doMainRestored) (by rw [exec, execVaoMainRestored]) (doMainRestored_onBackup hmain hback)
  · exact exec_block (f := doBackupLost) (by rw [exec, execVaoBackupLost]) (doBackupLost_good h)
  · exact exec_block (f := doCoreLoss) (by rw [exec, execCoreSupplyLoss]) (doCoreLoss_powered hst hcore)
  · exact exec_block (f := doBrownOut kept) (by rw [exec, execDistaffBrownOut]) (doBrownOut_lowPower hst)
  · exact exec_access hopen (f := doRequest 1 q evs) (by rw [exec, execRequestRest])
      (doRequest_entry hreg hv hhon hreq (by decide) hnone)
  · exact exec_access hopen (f := doRequest 2 q evs) (by rw [exec, execRequestOff])
      (doRequest_entry hreg hv hhon hreq (by decide) hnone)
  · intro src hda c
    have hwake : doWake src s.blk = wake src c := doWake_wakes hda
    have hpwr : c.pwr = b.pwr := nacked_pwr
    refine ⟨fun req hst hentry => ?_, fun hst => ?_, fun hst hsrc => ?_⟩
    · have hc : c = b := if_neg fun h => h.2 hst
      exact exec_settled (f := doWake src) (by rw [exec, execWake]) (by rw [hwake, hc]; exact wake_entering hst hentry)
    · exact exec_settled (f := doWake src) (by rw [exec, execWake]) (hwake.trans (wake_rest (hpwr ▸ hst)))
    · exact exec_settled (f := doWake src) (by rw [exec, execWake]) (hwake.trans (wake_off (hpwr ▸ hst) hsrc))
  · exact exec_settled (f := doAlarm) (by rw [exec, execAlarm]) (doAlarm_active hdue hst hentry)
  · exact exec_settled (f := doAlarm) (by rw [exec, execAlarm]) (doAlarm_lowPower hdue hst)

end Sys2Proof.Machine
end

section
/-! ## Time, the slot strobe and the TAP (14_supplies_power_time, 11_evidence_and_life_cycle, 16_ports_and_delivery): O42 -/
namespace Sys2Proof.Machine

variable {b : Block}

/-! ### The tick and the time bus -/

theorem doTickLost_running (h : b.tim.substitute = false) :
    let c := setTim (fun t => { t with substitute := true }) b
    doTickLost b = setQuality (qualityNow c) c := by
  rw [doTickLost]
  exact if_neg (by simp [h])

theorem doTickRegained_substituted (h : b.tim.substitute = true) :
    let c := setTim (fun t => { t with substitute := false }) b
    doTickRegained b = setQuality (qualityNow c) c := by
  rw [doTickRegained]
  exact if_neg (by simp [h])

/-- Whether the bus value is near a whole second rests on T and the time set-up, not on when the bus was seen. -/
theorem nearSecond_seeBus (v : BitVec 64) : nearSecond v (seeBus b) = nearSecond v b := rfl

theorem doPpsEdge_near {v : BitVec 64} (htod : b.regs.timCtrl.getLsbD 0 = true) (hpps : b.regs.timCtrl.getLsbD 1 = true)
    (htick : b.tim.substitute = false) (hnear : nearSecond v b = true) :
    doPpsEdge (some v) b = takeLock v (setTim (fun t => { t with ppsAt := some b.tick }) (seeBus b)) := by
  rw [doPpsEdge, if_neg (by simp [htod, hpps, htick])]
  exact if_pos ((nearSecond_seeBus v).trans hnear)

theorem doBusSample_withoutPps {v : BitVec 64} (htod : b.regs.timCtrl.getLsbD 0 = true) (hpps : b.regs.timCtrl.getLsbD 1 = false)
    (htick : b.tim.substitute = false) (hquality : b.tim.quality ≠ 3) : doBusSample v b = takeLock v (seeBus b) := by
  rw [doBusSample, if_neg (by simp [htod]), if_neg (by rw [hpps, htick]; simpa using hquality)]

theorem doBusLost_unseen (hquality : b.tim.quality = 3) (hseen : b.tim.busAt + 2 ≤ b.tick) : doBusLost b = setQuality 2 b := by
  rw [doBusLost, if_pos (by simp [hquality, hseen])]

/-! ### The slot strobe -/

theorem doStrobe_inTime (h : strobeEarly b = false) : doStrobe b = strobeRegions (noteStrobe b) := by
  rw [doStrobe, if_neg (by simp [h])]

theorem doStrobe_early (h : strobeEarly b = true) : doStrobe b = raiseBlock 7 0 (bumpHealth 120 1 (spoolFree 1 3 ownBlock 5 0 b)) := by
  rw [doStrobe, if_pos h]

theorem doStrobeMissing_overdue (hexpect : bitField b.regs.timStrobe 31 16 ≠ 0) (hfirst : b.tim.strobeMissing = false)
    (hdue : b.tim.strobeFrom + 2 * bitField b.regs.timStrobe 31 16 ≤ b.tick) :
    doStrobeMissing b = raiseBlock 7 0 (spoolFree 1 3 ownBlock 7 0 (setTim (fun t => { t with strobeMissing := true }) b)) := by
  rw [doStrobeMissing]
  exact if_neg (by simp [hexpect, hfirst, hdue])

/-! ### The TAP -/

/-- DBG_FW is served: where it is not, its arm shifts out a bypass bit. -/
theorem dbgFw_served (hcap : b.regs.lockState.getLsbD 7 = true) (hgate : b.regs.lcsGate.getLsbD 1 = false) (hopen : closed b = false) :
    ¬ (!b.regs.lockState.getLsbD 7 || b.regs.lcsGate.getLsbD 1 || closed b) = true := by
  rw [hcap, hgate, hopen]
  decide

theorem doDbgFw_resume (hserved : ¬ (!b.regs.lockState.getLsbD 7 || b.regs.lcsGate.getLsbD 1 || closed b) = true)
    (hhalted : b.fwHalted = true) : doDbgFw .resume b = emit (.jtag []) { b with fwHalted := false, fwKick := b.tick } := by
  refine (if_neg hserved).trans ?_
  rw [if_pos hhalted]

theorem doDbgRead_open {what : DbgRead} (hcap : b.regs.lockState.getLsbD 4 = true) (hgate : b.regs.lcsGate.getLsbD 0 = false)
    (hopen : closed b = false) : doDbgRead what b = emit (.jtag (dbgBytes what b)) b := by
  rw [doDbgRead, if_neg (by rw [hcap, hgate, hopen]; decide)]

theorem doScanEntry_open {bist : Bool} (hcap : b.regs.lockState.getLsbD 5 = true) (hgate : b.regs.lcsGate.getLsbD 2 = false)
    (hopen : closed b = false) (hout : b.dst.scan = false) :
    doScanEntry bist b = setDistaff (fun d => if bist then { d with scan := true, bankA := {}, bankB := {}, packs := [] }
      else { d with scan := true }) (setTel (fun t => { t with dumpSlots := [] }) (clearVolatile b)) := by
  rw [doScanEntry]
  exact if_neg (by rw [hcap, hgate, hopen, hout]; decide)

theorem doScanExit_inScan (h : b.dst.scan = true) :
    doScanExit b = setPwr (fun p => { p with nextStart := some 1 }) (setDistaff (fun d => { d with scan := false }) b) := by
  rw [doScanExit, if_neg (by simp [h])]

/-- Settles O42: a lemma for each command about the function of the model that its arm runs, under the clause's premises. -/
theorem timeAndDebugComplete : Obligations.TimeAndDebugComplete := by
  unfold Obligations.TimeAndDebugComplete
  intro s b
  refine ⟨fun h => ?_, fun h => ?_, fun v htod htick => ⟨fun hpps hnear => ?_, fun hpps hquality => ?_⟩, fun hquality hseen => ?_, ?_,
    fun h => ?_, fun h => ?_, fun hexpect hfirst hdue => ?_, ?_, ?_,
    fun hcap hgate hopen => ⟨?_, fun hhalted => ?_, ?_, fun a => ?_⟩, fun what hcap hgate hopen => ?_,
    fun bist hcap hgate hopen hout => ?_, fun h => ?_⟩
  · exact exec_block (f := doTickLost) (by rw [exec, execTickLost]) (doTickLost_running h)
  · exact exec_block (f := doTickRegained) (by rw [exec, execTickRegained]) (doTickRegained_substituted h)
  · exact exec_block (f := doPpsEdge (some v)) (by rw [exec, execPpsEdge]) (doPpsEdge_near htod hpps htick hnear)
  · exact exec_block (f := doBusSample v) (by rw [exec, execTodBusSampleLock]) (doBusSample_withoutPps htod hpps htick hquality)
  · exact exec_block (f := doBusLost) (by rw [exec, execTodBusLost]) (doBusLost_unseen hquality hseen)
  · exact exec_block (f := doPpsLost) (by rw [exec, execPpsLost]) (by rw [doPpsLost])
  · exact exec_settled (f := doStrobe) (by rw [exec, execSlotStrobe]) (doStrobe_inTime h)
  · exact exec_settled (f := doStrobe) (by rw [exec, execSlotStrobe]) (doStrobe_early h)
  · exact exec_block (f := doStrobeMissing) (by rw [exec, execStrobeMissing]) (doStrobeMissing_overdue hexpect hfirst hdue)
  · exact exec_block (f := doIdcode) (by rw [exec, execIdcode]) (by rw [doIdcode, idcode])
  · exact exec_block (f := doBypass) (by rw [exec, execBypass]) (by rw [doBypass])
  · exact exec_block (f := doDbgFw .halt) (by rw [exec, execDbgFw]) (if_neg (dbgFw_served hcap hgate hopen))
  · exact exec_block (f := doDbgFw .resume) (by rw [exec, execDbgFw]) (doDbgFw_resume (dbgFw_served hcap hgate hopen) hhalted)
  · exact exec_block (f := doDbgFw .step) (by rw [exec, execDbgFw]) (if_neg (dbgFw_served hcap hgate hopen))
  · exact exec_block (f := doDbgFw (.read a)) (by rw [exec, execDbgFw]) (if_neg (dbgFw_served hcap hgate hopen))
  · exact exec_block (f := doDbgRead what) (by rw [exec, execDbgRead]) (doDbgRead_open hcap hgate hopen)
  · exact exec_block (f := doScanEntry bist) (by rw [exec, execScanEntry]) (doScanEntry_open hcap hgate hopen hout)
  · exact exec_block (f := doScanExit) (by rw [exec, execScanExit]) (doScanExit_inScan h)

end Sys2Proof.Machine
end
